-- ==== Sys2Proof/Word.lean ====
section
/-! DEFINITION. The word types of the part: bytes, lines and the plain numbers the chapters count in. -/
namespace Sys2Proof

/-- A byte. -/
abbrev Byte := BitVec 8
/-- A 64-byte line (ch. 00, Notation); byte 0 holds bits [7:0] (R8). -/
abbrev Line := BitVec 512
/-- A 16-bit node ID (R21, R33). -/
abbrev Node := BitVec 16
/-- A 12-bit tenant ID (R32). -/
abbrev Tenant := BitVec 12
/-- A 20-bit queue number (ch. 10). -/
abbrev Queue := BitVec 20
/-- A Fraqua port, 0 to 23 (R67). -/
abbrev PortId := Fin 24
/-- An engine tile, 0 to 95 (ch. 10). -/
abbrev TileId := Fin 96
/-- An HBM stack, 0 to 11 (ch. 07). -/
abbrev StackId := Fin 12
/-- A NAND channel, 0 to 31 (ch. 09). -/
abbrev ChanId := Fin 32

end Sys2Proof
end

