-- ==== Sys2Proof/Machine/Types.lean ====
section
/-! DEFINITION. The data a command carries: frames and flits of the fabric (ch. 03), access paths (R571) and the
results that units outside the die hand back (NAND packages, the regulator, the PTP master, the host). -/
namespace Sys2Proof.Machine

/-- A Fraqua frame: header (Table 3.5), payload, tail (Table 3.6). `data` is zero without a payload. -/
structure Frame where
  dst : Node := 0
  src : Node := 0
  opc : BitVec 8 := 0
  tc : BitVec 2 := 0
  pl : Bool := false
  final : Bool := false
  mc : Bool := false
  fence : Bool := false
  redirV : Bool := false
  rsv5 : Bool := false
  tag : BitVec 16 := 0
  seq : BitVec 24 := 0
  status : BitVec 8 := 0
  restart : BitVec 16 := 0
  rsv14 : BitVec 4 := 0
  tenant : Tenant := 0
  epoch : BitVec 32 := 0
  addr : BitVec 64 := 0
  arg : BitVec 32 := 0
  data : Line := 0
  fcrc : BitVec 32 := 0
  endc : BitVec 8 := 0
  tailRsv : BitVec 8 := 0
  mark : Node := 0
  deriving DecidableEq, Repr

/-- A flit (Table 3.3). `fecBad`: some byte lay in an FEC codeword that could not be corrected (R71); `fecFixed`:
how many of its codewords were corrected. -/
structure Flit where
  typ : BitVec 4 := 1
  valid : BitVec 8 := 0
  lseq : BitVec 12 := 0
  bytes : BitVec 1888 := 0
  nak : Bool := false
  ackLseq : BitVec 12 := 0
  crdBulk : BitVec 12 := 0
  crdRsp : BitVec 12 := 0
  crdReq : BitVec 12 := 0
  crdCoh : BitVec 12 := 0
  lcrc : BitVec 32 := 0
  fecBad : Bool := false
  fecFixed : BitVec 8 := 0
  deriving DecidableEq, Repr

/-- The five paths into BAR0 (Table 19.7), the fabric window's with its frame's SRC_NODE and TENANT (R502), and JTAG, which reaches the DBG page, in
recovery mode as well (Table 17.5, R520). -/
inductive Path where
  | bar0 | mgmt | i3c | fabric (src : Node) (tenant : Tenant) | debug | jtag
  deriving DecidableEq, Repr

/-- A message on the I3C sideband (R522): the MCTP control commands Set Endpoint ID, Get Endpoint ID, Get MCTP Version Support and Get
Message Type Support, and the 14 bytes of a vendor-defined register request. -/
inductive Mctp where
  | setEid (eid : Byte)
  | getEid
  | versions
  | types
  | register (bytes : BitVec 112)
  deriving DecidableEq, Repr

/-- A Sync as the port takes it, with its Follow_Up and the delay exchange (R527): the master, domain and transport, whether the delay is the
peer's (`p2p`), the origin time with its corrections and the path's mean delay, in ns. -/
structure PtpSync where
  id : BitVec 64
  domain : Byte := 0
  udp : Bool := false
  p2p : Bool := false
  origin : Nat
  delay : Nat := 0
  deriving DecidableEq, Repr

/-- An Announce message (R527): the master, its interval in ns, domain and transport, and priority1, clockQuality and priority2 of its data
set, in the order in which IEEE 1588 compares them. -/
structure Announce where
  id : BitVec 64
  interval : Nat
  domain : Byte := 0
  udp : Bool := false
  quality : BitVec 48 := 0
  deriving DecidableEq, Repr

/-- The data set as a number: the lesser is the better master. -/
def Announce.rank (m : Announce) : Nat := m.quality.toNat * 2 ^ 64 + m.id.toNat

/-- A write of a function's configuration space (R448, R460): Bus Master Enable, ASPM L1, and the bits of AER's uncorrectable status that it clears;
of the PF also the payload and read request sizes, 10-bit tags, ARI and how many VFs SR-IOV enables. -/
structure PcieCfg where
  bme : Bool
  aspm : Bool := false
  aerClear : BitVec 32 := 0
  mps : Nat := 128
  mrrs : Nat := 512
  tag10 : Bool := false
  ari : Bool := false
  vfs : Nat := 0
  deriving DecidableEq, Repr

/-- What units outside a command's own block give back while it runs, for the commands that a register write starts: blocks of the
dies marked bad at the factory (channel, die, block), blocks whose program fails at a checkpoint, fuse bits that would not blow, tiles (with
the canary, or 0xFFFF) and stacks that failed their test. -/
structure World where
  marks : List (Nat × Nat × Nat) := []
  bad : List (Nat × Nat × Nat) := []
  stuckSeed : BitVec 256 := 0
  stuckKey : BitVec 256 := 0
  tiles : List (Nat × Nat) := []
  stks : List Nat := []
  deriving DecidableEq, Repr

/-- What a die's ONFI parameter page reports (R278, Table 9.1): blocks per plane, pages per block, data and spare bytes of a page, planes, and
whether it can suspend a program or erase. -/
structure Geom where
  blocks : Nat
  pages : Nat
  data : Nat
  spare : Nat
  planes : Nat
  suspend : Bool
  deriving DecidableEq, Repr

/-- What a release of reset meets outside the die: FORCE_RECOVERY_N low, stacks that fail training, tiles that fail with their
canary, the system key not loading, the step of Table 16.9 that firmware stalls at (0: none), key slots whose wrapped copy does
not come back (R508), the geometry the dies report where firmware finds dies (R278, R283), and what the configuration's own commands meet. -/
structure BootIn where
  force : Bool := false
  badStacks : List Nat := []
  badTiles : List (Nat × Nat) := []
  keyFail : Bool := false
  stall : Nat := 0
  lostKeys : List Nat := []
  geom : Option Geom := none
  world : World := {}
  deriving DecidableEq, Repr

/-- What a party does at a tile's Sedge: a read or write of up to 64 bytes from an offset (R311), a write of a bank's owner byte (R313), a
read or write of an enabled window's bytes at a count, or the advance of a window's count (R316). -/
inductive SedgeAct where
  | read (off : BitVec 21) (n : Nat)
  | write (off : BitVec 21) (bytes : List Byte)
  | own (bank : Fin 16) (new : Byte)
  | winRead (w : Fin 8) (at_ : BitVec 32) (n : Nat)
  | winWrite (w : Fin 8) (at_ : BitVec 32) (bytes : List Byte)
  | advance (w : Fin 8) (producer : Bool) (count : BitVec 32)
  deriving DecidableEq, Repr

/-- An access at Sedge: the party that makes it, by owner byte (Table 10.2); the thread a Mule moves data for (R314); what it does; and
the descriptor it is made for (R312). -/
structure SedgeAcc where
  by_ : Byte
  serves : Fin 16 := 0
  act : SedgeAct
  q : Queue := 0
  i : Nat := 0
  deriving DecidableEq, Repr

/-- A circular-buffer window as firmware sets it up (R315). -/
structure CbwSetup where
  w : Fin 8
  base : BitVec 21
  sizeLog2 : Fin 32
  producer : Byte
  consumer : Byte
  deriving DecidableEq, Repr

/-- A wait that firmware arms for a thread of its own: ACTION `wake_thread` (R202, Table 6.7). -/
structure FwWait where
  tile : TileId
  thread : Fin 16
  tenant : Tenant
  word : BitVec 44
  cond : BitVec 2
  value : BitVec 64
  mask : BitVec 64
  deriving DecidableEq, Repr

end Sys2Proof.Machine
end

