-- ==== Sys2Proof/Machine/Units.lean ====
section
/-! DEFINITION. The hidden state of the units beside the fabric and the engines: the flash tier and the PCIe side. -/
namespace Sys2Proof.Machine

/-- A slot on the dies: parity group, super-block, row and position (R279, R280). -/
structure Slot where
  g : Nat
  sb : Nat
  row : Nat
  pos : Nat
  deriving DecidableEq, Repr

/-- One try of the read ladder at a codeword (R286): `step` 1 hard, 2 a re-read, 3 soft, 4 from the row; `good`: the decoder
gave data; then the bits corrected, the metadata and 64 lines of data (Table 9.3). `row`: for step 4, the codewords read from the row's other
good pages, 72 lines each (R281). -/
structure Try where
  step : Nat
  good : Bool
  corrected : Nat := 0
  wseq : Nat := 0
  tenant : Nat := 0
  cw : Nat := 0
  kind : Nat := 0
  lbn : Nat := 0
  crc : Nat := 0
  data : List Line := []
  row : List (List Line) := []
  deriving DecidableEq, Repr

/-- A read of a die in progress: the 16 codewords of a fetched block, for a pass-through read (`pass`) the one that holds
4 KiB unit `sub`, or the 16 of a block that relocation moves (`move`, R292). `row`: its row's other pages are read as well (R286, step 4);
`stale`: the block has been written anew since (R187). `since`: when it went to its die (R301). -/
structure NandRead where
  id : Nat
  pass : Bool
  blk : Nat
  sub : Nat := 0
  lbn : Nat
  at_ : Slot
  move : Bool := false
  row : Bool := false
  stale : Bool := false
  since : Nat := 0
  deriving DecidableEq, Repr

/-- What an operation on the dies is for: the program of a write-down's block; of a block that relocation moves, with the slot it was read from,
its TENANT and ciphertext, and whether it is wear levelling's (R297); of a block whose write-down has ended without it; of a `pad` or of row parity
(R290); or the erase of a member of a super-block. -/
inductive NandJob where
  | down (blk lbn : Nat)
  | copy (lbn : Nat) (src : Slot) (tenant : Nat) (data : List Line) (wl : Bool)
  | void (lbn : Nat)
  | pad
  | parity
  | erase
  deriving DecidableEq, Repr

/-- An operation in progress: its WSEQ and the page it programs, when it began or resumed, how often it was suspended, and the reads it waits
for (R299). -/
structure NandOp where
  id : Nat
  job : NandJob
  at_ : Slot
  wseq : Nat := 0
  page : List Line := []
  since : Nat := 0
  suspends : Nat := 0
  suspended : Bool := false
  waits : List Nat := []
  deriving DecidableEq, Repr

/-- An open super-block with its open row, or a row that takes no more blocks and whose parity is not programmed: the positions given out, when the
row's first program was, and the XOR of the pages programmed so far (R280). `wl`: it takes the relocations of Table 9.5, row 6 (R297). -/
structure OpenSb where
  g : Nat
  sb : Nat
  row : Nat := 0
  used : List Nat := []
  since : Nat := 0
  wl : Bool := false
  sum : List Line := []
  deriving DecidableEq, Repr

/-- What happened on the dies since the last checkpoint, as mount finds it (R304): a tier block programmed in a slot with its WSEQ; a super-block
opened at a TAI second; one erased; and a block marked (Table 9.8). -/
inductive PeatEvent where
  | wrote (lbn : Nat) (x : Slot) (wseq : Nat)
  | opened (g sb time : Nat)
  | erased (g sb : Nat)
  | marked (i kind : Nat)
  deriving DecidableEq, Repr

/-- The flash tier. `ready`, `passReady`: reads decoded, or failed, that their fetch or pass-through has not yet taken.
`open_`: super-blocks that take blocks; `closing`: rows that take no more; `bare`: rows whose parity is not programmed
(R290); `todo`: programs that wait for a slot, with the row they may not be in (R291). `fails`, `noParity`, `deadDue`: super-blocks due under Table
9.5, order 1 (R288), order 2, and order 1 (R301). `reloc`: the
super-block in relocation and its order; `lost`: blocks whose copy cannot be read (R302). `gc`: garbage collection runs; `held`: write-downs wait
behind it (R298). `ckpt`, `log`: what mount would find on the dies (R304): the tables at the last checkpoint, under `ckptKey` (R507), and what was done
since. `known`: dies whose factory marks were read, `kinds`: the marks their blocks bear, as (block, KIND) (R300). `fmt`: while a
`format` erases, the super-blocks whose erase has not begun (R306). `upkeepAt`: when upkeep last had a channel, by channel (R298). `grownAt`: blocks marked `grown`, by die (channel × 16 + index) and when (R301). `logical`:
LOGICAL_BLOCKS of the last format (R282). `progAt`: when super-blocks were opened, by number, as `el` (R294, R526). `scrubbed`, `scrubAt`, `scrubDue`: blocks scrubbed in this period, its begin, and super-blocks due
since the last mount (R296). -/
structure Peat where
  nextId : Nat := 1
  wseq : Nat := 1
  rr : Nat := 0
  reads : List NandRead := []
  ops : List NandOp := []
  open_ : List OpenSb := []
  closing : List OpenSb := []
  bare : List (Nat × Nat × Nat) := []
  todo : List (NandJob × Option (Nat × Nat × Nat)) := []
  ready : List (Nat × Option (List Line)) := []
  passReady : List (Nat × Option (List Line)) := []
  fails : List (Nat × Nat) := []
  noParity : List (Nat × Nat) := []
  deadDue : List (Nat × Nat) := []
  reloc : Option (Nat × Nat × Nat) := none
  lost : List Nat := []
  gc : Bool := false
  held : Bool := false
  ckptAt : Nat := 0
  ckpt : Option (List (Nat × Nat)) := none
  ckptKey : Nat := 0
  log : List PeatEvent := []
  known : List Nat := []
  kinds : List (Nat × Nat) := []
  fmt : Option (List (Nat × Nat)) := none
  upkeepAt : List (Nat × Nat) := []
  grownAt : List (Nat × Nat) := []
  logical : Nat := 0
  scrubbed : List Nat := []
  scrubAt : Nat := 0
  scrubDue : List (Nat × Nat) := []
  progAt : List (Nat × Nat) := []
  deriving DecidableEq, Repr

/-- One frame a BAR4 TLP makes: opcode, fabric address, ARG, payload, FINAL. -/
structure Piece where
  opc : Nat
  addr : Nat
  arg : Nat := 0
  data : Line := 0
  final : Bool := false
  deriving DecidableEq, Repr

/-- A BAR4 TLP (R452 to R457): `kind` 0 read, 1 write, 2 AtomicOp; `todo`: frames not yet sent, with their numbers; `out`:
numbers of frames outstanding; `lines`: data returned, by number; `len`: bytes asked for; `tenant`, `node`: what its frames carry, as of its arrival
(R452); `dropped`: its completion was discarded (R459). -/
structure Tlp where
  id : Nat
  func : Nat
  kind : Nat
  off : Nat
  todo : List (Nat × Piece)
  len : Nat := 0
  out : List Nat := []
  lines : List (Nat × Line) := []
  status : Nat := 0
  tenant : Nat := 0
  node : Nat := 0
  dropped : Bool := false
  deriving DecidableEq, Repr

/-- The PCIe side. `master`: functions with Bus Master Enable set; `mps`, `mrrs`: Max Payload Size and Max Read Request Size of
the PF; `tag10`, `ari`, `vfs`: its 10-bit tags, ARI and the VFs it enables; `aspm`: functions with ASPM L1 enabled; `aer`: their uncorrectable error status
(R448). `msix`: address and data of MSI-X table entries, `open_`: unmasked vectors and `pba`: pending bits, by function × 2,048 + vector; `errUp`: the error interrupt was
raised and its condition stands (R451); `tlps`: BAR4 TLPs in order of arrival. -/
structure Pcie where
  master : List Nat := []
  mps : Nat := 128
  mrrs : Nat := 512
  tag10 : Bool := false
  ari : Bool := false
  vfs : Nat := 0
  aspm : List Nat := []
  aer : List (Nat × Nat) := []
  msix : List (Nat × Nat × Nat) := []
  open_ : List Nat := []
  pba : List Nat := []
  errUp : Bool := false
  nextTlp : Nat := 1
  tlps : List Tlp := []
  deriving DecidableEq, Repr

/-- Where the part stands (Tables 16.3, 16.9, 16.12, 20.6). -/
inductive Mode where
  | dark                   -- VAON or VAON_IO is absent
  | rails (group : Nat)    -- power-up waits for the power-good of group 0 HBM, 1 CORE, 2 IO
  | retry                  -- power-up has dropped every request and waits 1 s (R584)
  | tripped                -- rails are released after a thermal trip (R475)
  | reset (level : Nat)    -- an L0 or L1 reset, until its release
  | boot (stage : Nat)     -- boot or resume has stalled at a step of Table 16.9
  | run
  | l2                     -- an L2 reset, until firmware has brought the part back
  | p3 | p4
  deriving DecidableEq, Repr

/-- An entry to P3 or P4 in progress (Table 16.12): `target` 3 or 4, the step, when it was accepted, and the queues that were
`ready`. -/
structure Entry where
  target : Nat
  step : Nat := 2
  since : Nat
  queues : List Nat := []
  deriving DecidableEq, Repr

/-- The state of the JTAG TAP controller as TDO shows it (R478). -/
inductive Tap where
  | shiftDr | shiftIr | other
  deriving DecidableEq, Repr

/-- A tile out for self-test (Table 18.11): whether it was gated, whether step 2 runs, since when, and whether
`selftest_tile` asked for it. -/
structure Slice where
  tile : Nat
  gated : Bool
  testing : Bool := false
  since : Nat := 0
  cmd : Bool := false
  deriving DecidableEq, Repr

/-- The AON island, the boot store and what the management cores keep. `mode`, `since` when it was entered; `ready`: the earliest
release of the reset; `wake`: what release leads to, 3 a resume from P3, else a boot; `reqs`, `goods`: rail groups 0 HBM, 1 CORE,
2 IO requested and good; `up`: a power-up is under way (Table 20.6); `fall`: the group whose power-good must fall before the next request drops, the lowest
group to drop, and since when (R585); `trip`: THERM_TRIP_N is low; `tap`: the JTAG TAP. `wdog`: when the watchdog was armed or fed; `fatal`: unmasked device-fatal
bits (page × 32 + bit) with since when (R474); `entry`; `retKey`: the retention key (R508). `crashNext`, `logNext`: next places of the two logs; `loser`: the configuration copy that did not win at the last boot, A (0) or
B (1); `nor`: the boot store, erased bytes unlisted; `image`: BODY_HASH of the running image; `cfgSeq`, `cfgHash` of
the winning copy. `fmWritten`: SEC_FM was written since L1 (Table 17.9); `chal`: when the challenge was drawn; `leaf`: the
next leaf to sign with, once one was reserved since the reset (R512). `avs`: the VCORE step commanded and when; `avsFrom`: VCORE before it; `capped`: tiles the cap gated;
`capMoves`: what the cap did, newest first: a tile gated, or TARGET_MV before a step; `capAt`. `lockedOnce`: the servo has locked since L0; `near`,
`far`: consecutive offsets within LOCK_NS and beyond UNLOCK_NS; `syncAt`, `announce`: the last Sync and the announce interval;
`holdAt`: when holdover began; `adjs`: rates while locked, with since when; `ppsAt`: the last PPS_IN edge; `ppsLost`; `ppsRise`: PPS_OUT is high, since when
(R530); `ptpOff`: the offset last measured by PTP, as the counter has moved since (R531); `rank`: the data set of the selected master (R527);
`expired`: DBG_EXPIRY passed while a command of the level ran (R521). `beaconAt`: the
boundary last handled; `beaconOut`; `misses`: consecutive misses; `beacons`: sent since L1. `slice`, `sliceAt`, `sliceNext`;
`full`: `selftest_full` waits (since, failing tiles with what fails, failing stacks); `idle`: when a tile last held work; `canaryAt`, `passAt`, `tempAt`: per tile the last
canary run, last pass (time counter) and temperature at the last run; `retireNext`: next place in `retire_log`; `eid`: the MCTP endpoint ID (R522);
`low`: fewer tiles than MIN_TILES are in `run` or `gated` (R552). -/
structure Aon where
  mode : Mode := .reset 0
  since : Nat := 0
  ready : Nat := 0
  wake : Nat := 0
  reqs : List Nat := [0, 1, 2]
  goods : List Nat := [0, 1, 2]
  up : Bool := true
  fall : Option (Nat × Nat × Nat) := none
  trip : Bool := false
  tap : Tap := .other
  wdog : Option Nat := none
  fatal : List (Nat × Nat) := []
  entry : Option Entry := none
  retKey : Option Nat := none
  crashNext : Nat := 0
  logNext : Nat := 0
  loser : Option Nat := none
  nor : List (Nat × Byte) := []
  image : Nat := 0
  cfgSeq : Nat := 0
  cfgHash : Nat := 0
  fmWritten : Bool := false
  chal : Option Nat := none
  leaf : Option Nat := none
  avs : Option (Nat × Nat) := none
  avsFrom : Nat := 0
  capped : List Nat := []
  capMoves : List (Bool × Nat) := []
  capAt : Nat := 0
  lockedOnce : Bool := false
  near : Nat := 0
  far : Nat := 0
  syncAt : Nat := 0
  announce : Nat := 2 * 10 ^ 9
  holdAt : Nat := 0
  adjs : List (Nat × Nat) := []
  ppsAt : Nat := 0
  ppsLost : Bool := false
  ppsRise : Option Nat := none
  ptpOff : Int := 0
  rank : Nat := 0
  expired : Bool := false
  beaconAt : Nat := 0
  beaconOut : Bool := false
  misses : Nat := 0
  beacons : Nat := 0
  slice : Option Slice := none
  sliceAt : Nat := 0
  sliceNext : Nat := 0
  full : Option (Nat × List (Nat × Nat) × List Nat) := none
  idle : List (Nat × Nat) := []
  canaryAt : List (Nat × Nat) := []
  passAt : List (Nat × Nat) := []
  tempAt : List (Nat × Nat) := []
  retireNext : Nat := 0
  eid : Nat := 0
  low : Bool := true
  deriving DecidableEq, Repr

/-- The fuses (R503, R504, R590, Table 16.13): RESET_MAP, the failed-start limit, the anti-rollback count, the lifecycle,
OWNER_SEED, DBG_KEY_HASH, the serial number and the station address. -/
structure Fuse where
  map : BitVec 16 := 0xAA55
  limit : BitVec 3 := 0
  svn : Nat := 0
  lc : BitVec 3 := 0
  seed : BitVec 256 := 0
  dbgKey : BitVec 256 := 0
  serial : BitVec 64 := 0
  mac : BitVec 48 := 0
  deriving DecidableEq, Repr

end Sys2Proof.Machine
end

