-- ==== Sys2Proof/Syntax.lean ====
section
/-! DEFINITION. The commands of the part: one constructor per row of spec/opcode_table.json, in its order, with what each brings from
outside. The docstring names the row's rule. -/
namespace Sys2Proof
open Machine

/-- A command. -/
inductive Instr where
  /-- PORT_ENABLE, R70. -/
  | portEnable (p : PortId) (gennurik : Bool) (lo hi : Node)
  /-- PORT_DISABLE, R592. -/
  | portDisable (p : PortId)
  /-- LANE_LOCK_ACQUIRED, R70. -/
  | laneLockAcquired (p : PortId)
  /-- FLIT_ALIGNED, R70. -/
  | flitAligned (p : PortId)
  /-- FEC_LOCKED, R70. -/
  | fecLocked (p : PortId)
  /-- CTRL_FLIT_RECEIVE, R70. -/
  | ctrlFlitReceive (p : PortId) (f : Flit)
  /-- BRINGUP_STEP_TIMEOUT, R70. -/
  | bringupStepTimeout (p : PortId)
  /-- BRINGUP_RETRY, R70. -/
  | bringupRetry (p : PortId)
  /-- DATA_FLIT_RECEIVE, R73. -/
  | dataFlitReceive (p : PortId) (f : Flit)
  /-- IDLE_FLIT_RECEIVE, R72. -/
  | idleFlitReceive (p : PortId) (f : Flit)
  /-- REPLAY_TIMEOUT, R75. -/
  | replayTimeout (p : PortId)
  /-- LANE_LOCK_LOSS, R77. -/
  | laneLockLoss (p : PortId) (lane : Fin 8)
  /-- LOCK_HOLD_EXPIRE, R76. -/
  | lockHoldExpire (p : PortId)
  /-- CREDIT_STARVED, R80. -/
  | creditStarved (p : PortId) (cls : Fin 4)
  /-- FRAME_SEND, R78. -/
  | frameSend (p : PortId)
  /-- FRAME_HEADER_RECEIVE, R105. -/
  | frameHeaderReceive (p : PortId)
  /-- FRAME_TAIL_RECEIVE, R106. -/
  | frameTailReceive (p : PortId) (fault : Bool)
  /-- FRAME_STALL_TIMEOUT, R109. -/
  | frameStallTimeout (p : PortId)
  /-- EGRESS_GRANT, R142. -/
  | egressGrant (eg : Fin 25)
  /-- HOLE_TIMEOUT, R130. -/
  | holeTimeout (sink : Fin 25) (src dst : Node) (tc : Fin 4)
  /-- SLOUGH_FULL_LIMIT, R124. -/
  | sloughFullLimit
  /-- SRC_RESET, R131. -/
  | srcReset (node : Node)
  /-- RD_LINE, R90. -/
  | rdLine (f : Frame)
  /-- RD_SHARED, R156. -/
  | rdShared (f : Frame)
  /-- RD_OWN, R156. -/
  | rdOwn (f : Frame)
  /-- RD_LINE_NA, R90. -/
  | rdLineNa (f : Frame)
  /-- RD_VOL, R189. -/
  | rdVol (f : Frame)
  /-- WR_LINE, R179. -/
  | wrLine (f : Frame)
  /-- WR_PARTIAL, R180. -/
  | wrPartial (f : Frame)
  /-- WR_LINE_FINAL, R99. -/
  | wrLineFinal (f : Frame)
  /-- FINAL_HOLD_RELEASE, R99. -/
  | finalHoldRelease (req : Nat)
  /-- WR_SIGNAL, R100. -/
  | wrSignal (f : Frame)
  /-- ADD, R94. -/
  | add (f : Frame)
  /-- AND, R94. -/
  | and_ (f : Frame)
  /-- OR, R94. -/
  | or_ (f : Frame)
  /-- XOR, R94. -/
  | xor_ (f : Frame)
  /-- SWAP, R94. -/
  | swap (f : Frame)
  /-- CAS, R95. -/
  | cas (f : Frame)
  /-- MIN_S, R94. -/
  | minS (f : Frame)
  /-- MAX_S, R94. -/
  | maxS (f : Frame)
  /-- MIN_U, R94. -/
  | minU (f : Frame)
  /-- MAX_U, R94. -/
  | maxU (f : Frame)
  /-- MIN_F32, R96. -/
  | minF32 (f : Frame)
  /-- MAX_F32, R96. -/
  | maxF32 (f : Frame)
  /-- FADD32, R96. -/
  | fadd32 (f : Frame)
  /-- FADD_EXACT, R97. -/
  | faddExact (f : Frame)
  /-- SNP_ACK, R157. -/
  | snpAck (f : Frame)
  /-- GRANT_ACK, R156. -/
  | grantAck (f : Frame)
  /-- WB_DIRTY, R155. -/
  | wbDirty (f : Frame)
  /-- SNOOP_TIMEOUT, R162. -/
  | snoopTimeout (fen : Fin 64) (line : Nat)
  /-- GRANT_ACK_TIMEOUT, R163. -/
  | grantAckTimeout (fen : Fin 64) (line : Nat)
  /-- TENURE_END, R164. -/
  | tenureEnd (line : Nat)
  /-- RSV_SLOT_EXPIRE, R167. -/
  | rsvSlotExpire (slot : Fin 512)
  /-- RSP_DATA, R103. -/
  | rspData (f : Frame)
  /-- RSP_ACK, R103. -/
  | rspAck (f : Frame)
  /-- RSP_ERR, R103. -/
  | rspErr (f : Frame)
  /-- RETRY_RSV, R591. -/
  | retryRsv (f : Frame)
  /-- REQUEST_TIMEOUT, R103. -/
  | requestTimeout (dst : Node) (tag : BitVec 16)
  /-- PENDING_REQUEST_SEND, R104. -/
  | pendingRequestSend (dst : Node)
  /-- WIN_INSTALL, R47. -/
  | winInstall (w : Fin 4096)
  /-- WIN_DRAIN, R50. -/
  | winDrain (w : Fin 4096)
  /-- WIN_REVOKE_NOW, R50. -/
  | winRevokeNow (w : Fin 4096)
  /-- REVOKE_NOW_DONE, R50. -/
  | revokeNowDone (w : Fin 4096)
  /-- WIN_BUMP, R48. -/
  | winBump (w : Fin 4096)
  /-- WIN_BUMP_SRC, R59. -/
  | winBumpSrc (node : Node)
  /-- WIN_FREE, R46. -/
  | winFree (w : Fin 4096)
  /-- DRAIN_DONE, R49. -/
  | drainDone (w : Fin 4096)
  /-- DRAIN_DEADLINE, R55. -/
  | drainDeadline (w : Fin 4096)
  /-- RESTART_EPOCH_WRITE, R64. -/
  | restartEpochWrite (v : BitVec 16)
  /-- FEN_PURGE, R175. -/
  | fenPurge (fen : Fin 64)
  /-- FEN_MEMBER_SET, R176. -/
  | fenMemberSet (fen : Fin 64) (node : Node) (near : Bool)
  /-- PRED_CFG_WRITE, R173. -/
  | predCfgWrite (v : BitVec 32)
  /-- SYNC_POLL, R209. -/
  | syncPoll (q : Queue) (i : Nat)
  /-- SYNC_DBG_SET_WORD, R217. -/
  | syncDbgSetWord (target : BitVec 44)
  /-- SYNC_DBG_FIRE, R218. -/
  | syncDbgFire (target : BitVec 44)
  /-- STACK_TIMEOUT, R227. -/
  | stackTimeout (k : StackId)
  /-- SCRUB_STEP, R234. -/
  | scrubStep (ra : Nat)
  /-- CRYPT_LOAD, R506. -/
  | cryptLoad (slot : Tenant)
  /-- CRYPT_ZEROISE, R239. -/
  | cryptZeroise (slot : Tenant)
  /-- PROT_ACTIVATE, R248. -/
  | protActivate (r : Fin 256)
  /-- PROT_DEACTIVATE, R241. -/
  | protDeactivate (r : Fin 256)
  /-- PROT_FREEZE, R251. -/
  | protFreeze (r : Fin 256)
  /-- PROT_THAW, R251. -/
  | protThaw (r : Fin 256)
  /-- PROT_REBUILD, R253. -/
  | protRebuild (r : Fin 256) (dead : Fin 8)
  /-- TIER_PLACE, R255. -/
  | tierPlace (dsc : Fin 4096)
  /-- TIER_RETIRE, R257. -/
  | tierRetire (dsc : Fin 4096)
  /-- TIER_FLUSH, R258. -/
  | tierFlush (dsc : Fin 4096)
  /-- TIER_FETCH_COMPLETE, R264. -/
  | tierFetchComplete (blk : Nat) (data : List Line) (word : Nat) (crcs : List Nat)
  /-- TIER_FETCH_FAIL, R265. -/
  | tierFetchFail (blk : Nat)
  /-- TIER_WAIT_TIMEOUT, R265. -/
  | tierWaitTimeout (blk : Nat)
  /-- PASS_THROUGH_COMPLETE, R274. -/
  | passThroughComplete (sub : Nat) (good : Bool) (data : List Line) (word crc : Nat)
  /-- EVICT_ONE, R266. -/
  | evictOne
  /-- WRITE_DOWN_COMPLETE, R268. -/
  | writeDownComplete (blk : Nat) (good : Bool)
  /-- WRITE_DOWN_TIMEOUT, R268. -/
  | writeDownTimeout (blk : Nat)
  /-- HEAT_SWEEP, R273. -/
  | heatSweep
  /-- TIER_HANDOFF_HANDOFF, R276. -/
  | tierHandoffHandoff (q : Queue) (i : Nat)
  /-- TIER_HANDOFF_ACCEPT, R276. -/
  | tierHandoffAccept (q : Queue) (i : Nat)
  /-- TIER_HANDOFF_REVERT, R276. -/
  | tierHandoffRevert (q : Queue) (i : Nat)
  /-- PEAT_FORMAT, R306. -/
  | peatFormat (marks : List (Nat × Nat × Nat))
  /-- PEAT_TRIM, R285. -/
  | peatTrim
  /-- PEAT_CHECKPOINT, R304. -/
  | peatCheckpoint (bad : List (Nat × Nat × Nat))
  /-- CKPT_TIMER, R304. -/
  | ckptTimer (bad : List (Nat × Nat × Nat))
  /-- PEAT_MOUNT, R304. -/
  | peatMount (bad : List Nat)
  /-- NAND_READ_COMPLETE, R286. -/
  | nandReadComplete (id : Nat) (tries : List (List Try))
  /-- PEAT_PROGRAM_COMPLETE, R289. -/
  | peatProgramComplete (id : Nat) (pass : Bool)
  /-- ROW_CLOSE_TIMEOUT, R290. -/
  | rowCloseTimeout (g : Fin 32) (sb : Fin 8192)
  /-- RELOCATION_START, R294. -/
  | relocationStart
  /-- RELOCATION_COMPLETE, R292. -/
  | relocationComplete
  /-- ERASE_COMPLETE, R293. -/
  | eraseComplete (id : Nat) (pass : Bool)
  /-- RETENTION_SCRUB, R296. -/
  | retentionScrub (lbn : Nat) (tries : List (List Try))
  /-- PROGRAM_RESUME, R299. -/
  | programResume (id : Nat)
  /-- DIE_TIMEOUT, R301. -/
  | dieTimeout (c : ChanId) (die : Fin 16)
  /-- CHANNEL_TRAIN, R278. -/
  | channelTrain (c : ChanId) (good : Bool) (dies : List Geom)
  /-- QMGR_ENABLE, R321. -/
  | qmgrEnable (q : Queue)
  /-- QMGR_STOP, R319. -/
  | qmgrStop (q : Queue)
  /-- QMGR_RESUME, R319. -/
  | qmgrResume (q : Queue)
  /-- QMGR_RESET, R211. -/
  | qmgrReset (q : Queue)
  /-- QUEUE_BIND, R327. -/
  | queueBind
  /-- DESCRIPTOR_FETCH, R328. -/
  | descriptorFetch (q : Queue)
  /-- DESCRIPTOR_COMPLETE, R331. -/
  | descriptorComplete (q : Queue) (i : Nat)
  /-- NOP, R329. -/
  | nop (q : Queue) (i : Nat)
  /-- MOVE, R334. -/
  | move (q : Queue) (i : Nat)
  /-- GRAPH_RUN, R336. -/
  | graphRun (q : Queue) (i : Nat)
  /-- GRAPH_STAGE_COMPLETE, R338. -/
  | graphStageComplete (q : Queue) (i : Nat) (stage : Nat)
  /-- SEDGE_OWNER_WRITE, R313. -/
  | sedgeOwnerWrite (t : TileId) (bank : Fin 16) (by_ new : Byte) (q : Queue) (i : Nat) (before : List SedgeAcc)
  /-- CBW_COUNT_ADVANCE, R316. -/
  | cbwCountAdvance (t : TileId) (w : Fin 8) (by_ : Byte) (producer : Bool) (count : BitVec 32) (q : Queue) (i : Nat) (before : List SedgeAcc)
  /-- SYNC_WAIT, R204. -/
  | syncWait (q : Queue) (i : Nat) (fw : Option FwWait)
  /-- SYNC_SIGNAL, R213. -/
  | syncSignal (q : Queue) (i : Nat)
  /-- SYNC_PUBLISH, R221. -/
  | syncPublish (q : Queue) (i : Nat)
  /-- EMB_LOOKUP, R373. -/
  | embLookup (q : Queue) (i : Nat)
  /-- EMB_UPDATE, R388. -/
  | embUpdate (q : Queue) (i : Nat)
  /-- EMB_GATHER_CHUNK, R384. -/
  | embGatherChunk (peer : Fin 64) (ch : Nat)
  /-- EMB_UPDATE_CHUNK, R389. -/
  | embUpdateChunk (peer : Fin 64) (ch : Nat)
  /-- EMB_REPLY_TRAILER, R386. -/
  | embReplyTrailer (peer : Fin 64) (ch : Nat)
  /-- EMB_CHUNK_TIMEOUT, R387. -/
  | embChunkTimeout (peer : Fin 64) (ch : Nat)
  /-- EMB_DEFINE, R371. -/
  | embDefine (t : Fin 4096)
  /-- EMB_UNDEFINE, R371. -/
  | embUndefine (t : Fin 4096)
  /-- EMB_STAGE, R393. -/
  | embStage (t : Fin 4096) (slot : Fin 2)
  /-- EMB_SLOT_RETIRE, R394. -/
  | embSlotRetire (t : Fin 4096) (slot : Fin 2)
  /-- VSE_SEARCH, R409. -/
  | vseSearch (q : Queue) (i : Nat)
  /-- VSE_SEARCH_ROUND, R410. -/
  | vseSearchRound (q : Queue) (i : Nat) (query : Nat)
  /-- VSE_SCAN_CHUNK, R415. -/
  | vseScanChunk (peer : Fin 64) (ch : Nat)
  /-- VSE_REPLY_TRAILER, R413. -/
  | vseReplyTrailer (peer : Fin 64) (ch : Nat)
  /-- VSE_CHUNK_TIMEOUT, R413. -/
  | vseChunkTimeout (peer : Fin 64) (ch : Nat)
  /-- VSE_RERANK, R423. -/
  | vseRerank (q : Queue) (i : Nat)
  /-- VSE_MUTATE, R417. -/
  | vseMutate (q : Queue) (i : Nat)
  /-- VSE_COMMIT_POLL, R417. -/
  | vseCommitPoll (q : Queue) (i : Nat)
  /-- VSE_COMMIT_TIMEOUT, R418. -/
  | vseCommitTimeout (q : Queue) (i : Nat)
  /-- VSE_MERGE, R421. -/
  | vseMerge (q : Queue) (i : Nat)
  /-- VSE_DEFINE, R402. -/
  | vseDefine (x : Fin 256)
  /-- VSE_UNDEFINE, R402. -/
  | vseUndefine (x : Fin 256)
  /-- VSE_SLOT_RETIRE, R422. -/
  | vseSlotRetire (x : Fin 256) (slot : Fin 2)
  /-- WST_STREAM, R428. -/
  | wstStream (q : Queue) (i : Nat)
  /-- WST_CHUNK_START, R440. -/
  | wstChunkStart (slot : Fin 1024) (win : Option CbwSetup)
  /-- WST_ACK_TIMEOUT, R438. -/
  | wstAckTimeout (slot : Fin 1024) (k m : Nat)
  /-- BAR4_READ, R452. -/
  | bar4Read (func : Fin 65) (off len : Nat)
  /-- BAR4_WRITE, R455. -/
  | bar4Write (func : Fin 65) (off : Nat) (bytes : List (Option Byte))
  /-- BAR4_ATOMIC, R452. -/
  | bar4Atomic (func : Fin 65) (off : Nat) (op : Fin 3) (size : Nat) (x y : BitVec 64)
  /-- BAR2_DOORBELL, R450. -/
  | bar2Doorbell (func : Fin 65) (off len : Nat) (write : Bool) (v : BitVec 64)
  /-- FUNCTION_LEVEL_RESET, R459. -/
  | functionLevelReset (func : Fin 65)
  /-- PCIE_LINK_DOWN, R460. -/
  | pcieLinkDown
  /-- MSIX_UNMASK, R451. -/
  | msixUnmask (func : Fin 65) (vec : Fin 2048)
  /-- PCIE_LINK_TRAIN, R447. -/
  | pcieLinkTrain (speed : Fin 7) (width : Nat)
  /-- VAON_POWER_ON, R584. -/
  | vaonPowerOn
  /-- POWER_GOOD_RISE, R584. -/
  | powerGoodRise (g : Fin 3)
  /-- POWER_GOOD_TIMEOUT, R584. -/
  | powerGoodTimeout
  /-- RAIL_LOSS, R585. -/
  | railLoss (g : Fin 3)
  /-- VAON_LOSS, R585. -/
  | vaonLoss
  /-- TCXO_LOSS, R582. -/
  | tcxoLoss
  /-- TCXO_TICK, R523. -/
  | tcxoTick
  /-- PERST_ASSERT, R470. -/
  | perstAssert
  /-- SYS_RST_ASSERT, R470. -/
  | sysRstAssert
  /-- RESET_RELEASE, R483. -/
  | resetRelease (o : BootIn)
  /-- WATCHDOG_EXPIRE, R473. -/
  | watchdogExpire
  /-- FATAL_ESCALATE, R474. -/
  | fatalEscalate
  /-- THERMAL_TRIP, R475. -/
  | thermalTrip (tj : Int)
  /-- THERMAL_RELEASE, R475. -/
  | thermalRelease (tj : Int)
  /-- GLB_RST_SYSTEM, R476. -/
  | glbRstSystem (path : Path) (key : Byte) (level : Fin 4)
  /-- GLB_RST_TENANT, R468. -/
  | glbRstTenant (path : Path) (key : Byte) (tenant : Tenant)
  /-- DBG_RST_CMD, R476. -/
  | dbgRstCmd (path : Path) (op : Fin 16) (key : Byte) (level : Fin 4) (tenant : Tenant)
  /-- RESET_MAP_SW_WRITE, R471. -/
  | resetMapSwWrite (v : BitVec 16)
  /-- NOR_WRITE, R488. -/
  | norWrite
  /-- NOR_VERIFY, R489. -/
  | norVerify (slot : Fin 2)
  /-- COMMIT_SVN, R490. -/
  | commitSvn
  /-- NOR_RECOVER, R487. -/
  | norRecover
  /-- P3_ENTER, R497. -/
  | p3Enter
  /-- P3_ENTRY_ADVANCE, R497. -/
  | p3EntryAdvance
  /-- P3_ENTRY_TIMEOUT, R497. -/
  | p3EntryTimeout
  /-- P4_ENTER, R499. -/
  | p4Enter
  /-- WAKE, R498. -/
  | wake (pin : Bool)
  /-- GATE_IDLE_TIMEOUT, R492. -/
  | gateIdleTimeout (t : TileId)
  /-- TILE_FORCE_WRITE, R493. -/
  | tileForceWrite (lo : BitVec 64) (hi : BitVec 32)
  /-- VCORE_TARGET_WRITE, R495. -/
  | vcoreTargetWrite (target : BitVec 10) (step_ : BitVec 5) (vmin : BitVec 10)
  /-- VCORE_STEP_SETTLED, R495. -/
  | vcoreStepSettled (fails : List (Nat × Nat))
  /-- POWER_CAP_SAMPLE, R496. -/
  | powerCapSample (amps : BitVec 12)
  /-- SEC_ADVANCE, R503. -/
  | secAdvance (path : Path)
  /-- SET_OWNER, R504. -/
  | setOwner (stuckSeed stuckKey : BitVec 256)
  /-- DECOMMISSION, R505. -/
  | decommission (key : Byte)
  /-- ATTEST, R513. -/
  | attest
  /-- SEC_FM_WRITE, R502. -/
  | secFmWrite (en : Bool) (node : Node)
  /-- DBG_CHALLENGE, R514. -/
  | dbgChallenge (path : Path)
  /-- CHALLENGE_EXPIRE, R514. -/
  | challengeExpire
  /-- DBG_UNLOCK, R515. -/
  | dbgUnlock (path : Path)
  /-- DBG_LOCK, R516. -/
  | dbgLock (path : Path)
  /-- DEBUG_EXPIRY, R516. -/
  | debugExpiry
  /-- DBG_HALT, R517. -/
  | dbgHalt (path : Path) (t : Fin 128)
  /-- DBG_RESUME, R517. -/
  | dbgResume (path : Path) (t : Fin 128)
  /-- DBG_PEEK, R515. -/
  | dbgPeek (path : Path)
  /-- DBG_POKE, R518. -/
  | dbgPoke (path : Path) (world : World)
  /-- I3C_MCTP_REQUEST, R522. -/
  | i3cMctpRequest (m : Mctp)
  /-- MGMT_UDP_REQUEST, R573. -/
  | mgmtUdpRequest (ip : BitVec 32) (port : BitVec 16) (srcIp : BitVec 32) (srcPort : BitVec 16) (m : BitVec 192)
  /-- TIME_STEP_TO, R524. -/
  | timeStepTo
  /-- PTP_SYNC, R528. -/
  | ptpSync (m : PtpSync)
  /-- MASTER_LOSS, R528. -/
  | masterLoss
  /-- HOLDOVER_EXPIRE, R528. -/
  | holdoverExpire
  /-- PPS_IN_EDGE, R531. -/
  | ppsInEdge
  /-- PPS_IN_MISS, R531. -/
  | ppsInMiss
  /-- BEACON_SEND, R538. -/
  | beaconSend
  /-- MGMT_FENCE, R540. -/
  | mgmtFence
  /-- SELFTEST_TILE, R547. -/
  | selftestTile (t : Fin 128)
  /-- SELFTEST_FULL, R548. -/
  | selftestFull (tiles : List (Nat × Nat)) (stks : List Nat)
  /-- SELFTEST_SLICE, R545. -/
  | selftestSlice
  /-- SLICE_DRAIN_TIMEOUT, R546. -/
  | sliceDrainTimeout
  /-- SLICE_TEST_COMPLETE, R545. -/
  | sliceTestComplete (fail : Option (BitVec 16))
  /-- CANARY_RUN, R549. -/
  | canaryRun (t : TileId) (fail : Option Nat)
  /-- CANARY_TEMP_TRIGGER, R550. -/
  | canaryTempTrigger (tj : Int) (fails : List (Nat × Nat))
  /-- PAGE_INJECT, R562. -/
  | pageInject (path : Path) (n : BitVec 14) (bit : Fin 32)
  /-- ERR_STICKY_CLEAR, R534. -/
  | errStickyClear (path : Path) (n : BitVec 14) (v : BitVec 32)
  /-- ERR_COUNT_CLEAR, R534. -/
  | errCountClear (path : Path) (n : BitVec 14)
  /-- ERR_SEVERITY_WRITE, R532. -/
  | errSeverityWrite (path : Path) (n : BitVec 14) (v : BitVec 64)
  /-- ERR_MASK_WRITE, R563. -/
  | errMaskWrite (path : Path) (n : BitVec 14) (v : BitVec 32)
  /-- PAGE_LOCK_WRITE, R563. -/
  | pageLockWrite (path : Path) (n : BitVec 14) (v : BitVec 32)
  /-- COUNTER_OVF_CLEAR, R537. -/
  | counterOvfClear (path : Path) (n : BitVec 14) (off : BitVec 12)
  /-- INT_STATUS_CLEAR, R534. -/
  | intStatusClear (path : Path) (n : BitVec 14) (v : BitVec 32)
  /-- TABLE_SEL_WRITE, R565. -/
  | tableSelWrite (path : Path) (n : BitVec 14) (sel : Byte)
  /-- TABLE_READ, R566. -/
  | tableRead (path : Path) (n : BitVec 14) (inc : Bool)
  /-- TABLE_WRITE, R567. -/
  | tableWrite (path : Path) (n : BitVec 14) (inc : Bool)
  /-- ABSENT_PAGE_ACCESS, R555. -/
  | absentPageAccess (off : BitVec 26) (write : Bool)
  /-- REGISTER_WRITE, R9. -/
  | registerWrite (path : Path) (off : BitVec 26) (width v : Nat) (holes : List Nat) (world : World)
  /-- TILE_SNAP, R7. -/
  | tileSnap (t : TileId)
  /-- TCXO_RETURN, R582. -/
  | tcxoReturn
  /-- PTP_ANNOUNCE, R528. -/
  | ptpAnnounce (m : Announce)
  /-- THERM_WARN, R589. -/
  | thermWarn (tj : Int)
  /-- AVSBUS_TIMEOUT, R495. -/
  | avsbusTimeout
  /-- POWER_UP_RETRY, R584. -/
  | powerUpRetry
  /-- MERGE_WAIT_TIMEOUT, R421. -/
  | mergeWaitTimeout (q : Queue) (i : Nat)
  /-- PCIE_CONFIG_WRITE, R460. -/
  | pcieConfigWrite (func : Fin 65) (c : PcieCfg)
  /-- RC_FIELD_READ, R536. -/
  | rcFieldRead (path : Path) (off : BitVec 26) (width : Nat) (holes : List Nat)
  /-- MGMT_ARP_REQUEST, R573. -/
  | mgmtArpRequest (ip : BitVec 32)
  deriving DecidableEq, Repr

end Sys2Proof
end

