-- ==== Sys2Proof/Config.lean ====
section
/-! DEFINITION. What the spec leaves to an implementation or leaves open: opaque constants with no body, so that
no proof can see their value. `Blk.freeCtr` numbers the draws. -/
namespace Sys2Proof.Config

/-- The n-th value the spec leaves open (log entry 2): every draw takes a fresh number. -/
opaque free : Nat → Nat

/-- What a line of the stacks holds that nothing has written since power came (log entry 2): by power-up and resident line
number, the stored data and the error pattern of its 72 bytes, since stored check bytes need not match either. -/
opaque unwritten : Nat → Nat → Nat × Nat

/-- DEVICE_SECRET (Table 17.2): drawn at manufacture, never readable and never changed (log entry 6). -/
opaque deviceSecret : Nat

/-- Kerhaval's firmware key and debug key of 60 bytes, lowest byte first, held in the boot ROM (Table 17.3; log entry 6). -/
opaque firmwareKey : Nat
opaque debugKey : Nat

/-- Kerhaval's IANA enterprise number, held in ROM (Table 17.9; log entry 6). -/
opaque iana : Nat

/-- Kerhaval's Vendor ID, held in ROM (Table 15.2; log entry 102). -/
opaque vendorId : BitVec 16

/-! How a seed becomes an HSS key and its signatures, which RFC 8554 leaves to the signer (R509, R511; log entry 6). Tree 0 is the top one and tree
1 + n the second-level tree that its leaf n signs. -/

/-- The 16 bytes that name a tree of a seed. -/
opaque lmsId : Nat → Nat → Nat

/-- The 32 secret bytes of chain `k` of a leaf, by seed, tree, leaf and chain. -/
opaque otsSecret : Nat → Nat → Nat → Nat → Nat

/-- The 32 bytes that randomise the message hash of a leaf, by seed, tree, leaf and message. -/
opaque otsSalt : Nat → Nat → Nat → List Nat → Nat

/-- The 480 parity bytes of an LDPC codeword, from its 64 lines of data and its metadata (R281): the code itself is not given (log entry 91). -/
opaque ldpc : List Line → Nat → BitVec 3840

end Sys2Proof.Config
end

