-- ==== Sys2Proof/Machine/Bits.lean ====
section
/-! DEFINITION. Bit fields, byte order and checks over numbers: every wider access is built here, once (R8). -/
namespace Sys2Proof.Machine

/-- Bits [hi:lo] of a number. -/
def bits (n hi lo : Nat) : Nat := (n >>> lo) % 2 ^ (hi + 1 - lo)

/-- Bit i of a number. -/
def bitAt (n i : Nat) : Bool := n.testBit i

/-- Put `v`, cut to `w` bits, at bit `lo` of `n`. -/
def putBits (n lo w v : Nat) : Nat :=
  (n >>> (lo + w)) <<< (lo + w) ||| (v % 2 ^ w) <<< lo ||| n % 2 ^ lo

/-- A Bool as a bit. -/
def b2n (b : Bool) : Nat := if b then 1 else 0

/-- The n low bytes of a number, lowest first (R8). -/
def bytesLE : Nat → Nat → List Byte
  | 0, _ => []
  | n + 1, v => BitVec.ofNat 8 v :: bytesLE n (v / 256)

/-- A number from its bytes, lowest first (R8). -/
def ofBytesLE : List Byte → Nat
  | [] => 0
  | b :: bs => b.toNat + 256 * ofBytesLE bs

/-- Subtraction modulo 2^w. -/
def subMod (w a b : Nat) : Nat := (a + 2 ^ w - b % 2 ^ w) % 2 ^ w

/-- A number of w bits as two's complement. -/
def toSigned (w n : Nat) : Int := if n % 2 ^ w < 2 ^ (w - 1) then ((n % 2 ^ w : Nat) : Int) else ((n % 2 ^ w : Nat) : Int) - 2 ^ w

/-- R43: epoch `a` is not older than epoch `b`. -/
def notOlder (a b : Nat) : Bool := subMod 32 a b < 2 ^ 31

/-- One bit step of the reflected Castagnoli CRC. -/
def crcStep (c : Nat) : Nat := if c % 2 = 1 then (c / 2) ^^^ 0x82F63B78 else c / 2

/-- One byte into the CRC register. -/
def crcByte (c : Nat) (b : Byte) : Nat :=
  crcStep (crcStep (crcStep (crcStep (crcStep (crcStep (crcStep (crcStep (c ^^^ b.toNat))))))))

/-- R71: CRC-32C, initial value and final XOR 0xFFFF_FFFF. -/
def crc32c (bs : List Byte) : Nat := (bs.foldl crcByte 0xFFFFFFFF) ^^^ 0xFFFFFFFF

/-- The bytes of a line, byte 0 first. -/
def lineBytes (l : Line) : List Byte := bytesLE 64 l.toNat

/-- Byte k of a line. -/
def lineByte (l : Line) (k : Nat) : Byte := BitVec.ofNat 8 (l.toNat >>> (8 * k))

/-- Bytes k to k + n − 1 of a line as a number. -/
def lineGet (l : Line) (k n : Nat) : Nat := (l.toNat >>> (8 * k)) % 2 ^ (8 * n)

/-- Replace bytes k to k + n − 1 of a line. -/
def linePut (l : Line) (k n v : Nat) : Line := BitVec.ofNat 512 (putBits l.toNat (8 * k) (8 * n) v)

/-- The position of the first element that satisfies a test. -/
def findIdxFrom {α : Type} (p : α → Bool) : List α → Nat → Option Nat
  | [], _ => none
  | x :: xs, i => if p x then some i else findIdxFrom p xs (i + 1)

/-- Element i of a list, or `d`. -/
def nth {α : Type} (d : α) : List α → Nat → α
  | [], _ => d
  | x :: _, 0 => x
  | _ :: xs, n + 1 => nth d xs n

/-- Change element i of a list. -/
def modNth {α : Type} (f : α → α) : Nat → List α → List α
  | _, [] => []
  | 0, x :: xs => f x :: xs
  | n + 1, x :: xs => x :: modNth f n xs

/-- Elements of `w` bits packed lowest first. -/
def pack (w : Nat) : List Nat → Nat
  | [] => 0
  | x :: xs => x % 2 ^ w + pack w xs <<< w

/-- n-byte elements of a number, lowest first. -/
def cut (n : Nat) : Nat → Nat → List Nat
  | 0, _ => []
  | k + 1, v => v % 2 ^ (8 * n) :: cut n k (v >>> (8 * n))

/-- A number as n lines. -/
def toLines (n v : Nat) : List Line := (cut 64 n v).map (BitVec.ofNat 512)

end Sys2Proof.Machine
end

