-- ==== Sys2Proof/Machine/Crypto.lean ====
section
/-! DEFINITION. The standard functions the store and the security block name (Table 0.2): AES-256 and its XTS mode
(IEEE 1619) for R236, SHA-256 and HMAC for the keys of ch. 17, and AES key unwrap. Blocks are lists of 16 bytes as numbers. -/
namespace Sys2Proof.Machine

/-- The AES S-box, entry i in byte i. -/
def sboxTable : Nat := 0x16bb54b00f2d99416842e6bf0d89a18cdf2855cee9871e9b948ed9691198f8e19e1dc186b95735610ef6034866b53e708a8bbd4b1f74dde8c6b4a61c2e2578ba08ae7a65eaf4566ca94ed58d6d37c8e779e4959162acd3c25c2406490a3a32e0db0b5ede14b8ee4688902a22dc4f816073195d643d7ea7c41744975fec130ccdd2f3ff1021dab6bcf5389d928f40a351a89f3c507f02f94585334d43fbaaefd0cf584c4a39becb6a5bb1fc20ed00d153842fe329b3d63b52a05a6e1b1a2c830975b227ebe28012079a059618c323c7041531d871f1e5a534ccf73f362693fdb7c072a49cafa2d4adf04759fa7dc982ca76abd7fe2b670130c56f6bf27b777c63
/-- The inverse S-box. -/
def invSboxTable : Nat := 0x7d0c2155631469e126d677ba7e042b17619953833cbbebc8b0f52aae4d3be0a0ef9cc9939f7ae52d0d4ab519a97f51605fec8027591012b131c7078833a8dd1ff45acd78fec0db9a2079d2c64b3e56fc1bbe18aa0e62b76f89c5291d711af1476edf751ce837f9e28535ade72274ac9673e6b4f0cecff297eadc674f4111913a6b8a130103bdafc1020f3fca8f1e2cd00645b3b80558e4f70ad3bc8c00abd890849d8da75746155edab9edfd5048706c92b6655dcc5ca4d41698688664f6f87225d18b6d49a25b76b224d92866a12e084ec3fa420b954cee3d23c2a632947b54cbe9dec444438e3487ff2f9b8239e37cfbd7f3819ea340bf38a53630d56a0952
/-- The round constants of SHA-256, 32 bits each. -/
def shaTable : Nat := 0xc67178f2bef9a3f7a4506ceb90befffa8cc7020884c8781478a5636f748f82ee682e6ff35b9cca4f4ed8aa4a391c0cb334b0bcb52748774c1e376c0819a4c116106aa070f40e3585d6990624d192e819c76c51a3c24b8b70a81a664ba2bfe8a192722c8581c2c92e766a0abb650a735453380d134d2c6dfc2e1b213827b70a851429296706ca6351d5a79147c6e00bf3bf597fc7b00327c8a831c66d983e515276f988da5cb0a9dc4a7484aa2de92c6f240ca1cc0fc19dc6efbe4786e49b69c1c19bf1749bdc06a780deb1fe72be5d74550c7dc3243185be12835b01d807aa98ab1c5ed5923f82a459f111f13956c25be9b5dba5b5c0fbcf71374491428a2f98

def sbox (x : Nat) : Nat := (sboxTable >>> (8 * x)) % 256
def invSbox (x : Nat) : Nat := (invSboxTable >>> (8 * x)) % 256

/-- Multiply by x in the AES field. -/
def xtime (a : Nat) : Nat := if a < 128 then 2 * a else (2 * a - 256) ^^^ 0x1B
def gmul3 (a : Nat) : Nat := xtime a ^^^ a
def gmul9 (a : Nat) : Nat := xtime (xtime (xtime a)) ^^^ a
def gmul11 (a : Nat) : Nat := xtime (xtime (xtime a)) ^^^ xtime a ^^^ a
def gmul13 (a : Nat) : Nat := xtime (xtime (xtime a)) ^^^ xtime (xtime a) ^^^ a
def gmul14 (a : Nat) : Nat := xtime (xtime (xtime a)) ^^^ xtime (xtime a) ^^^ xtime a

def xorL (a b : List Nat) : List Nat := a.zipWith (· ^^^ ·) b

def mixCols : List Nat → List Nat
  | a :: b :: c :: d :: r =>
    (xtime a ^^^ gmul3 b ^^^ c ^^^ d) :: (a ^^^ xtime b ^^^ gmul3 c ^^^ d) ::
    (a ^^^ b ^^^ xtime c ^^^ gmul3 d) :: (gmul3 a ^^^ b ^^^ c ^^^ xtime d) :: mixCols r
  | l => l

def invMixCols : List Nat → List Nat
  | a :: b :: c :: d :: r =>
    (gmul14 a ^^^ gmul11 b ^^^ gmul13 c ^^^ gmul9 d) :: (gmul9 a ^^^ gmul14 b ^^^ gmul11 c ^^^ gmul13 d) ::
    (gmul13 a ^^^ gmul9 b ^^^ gmul14 c ^^^ gmul11 d) :: (gmul11 a ^^^ gmul13 b ^^^ gmul9 c ^^^ gmul14 d) :: invMixCols r
  | l => l

/-- Reorder a block: byte i of the result is byte `ix[i]`. -/
def permute (ix l : List Nat) : List Nat := ix.map fun i => nth 0 l i

def shiftRows : List Nat → List Nat := permute [0, 5, 10, 15, 4, 9, 14, 3, 8, 13, 2, 7, 12, 1, 6, 11]
def invShiftRows : List Nat → List Nat := permute [0, 13, 10, 7, 4, 1, 14, 11, 8, 5, 2, 15, 12, 9, 6, 3]

/-- The words of the AES-256 key schedule, last first, four bytes each: `n` more words from word `i` on. -/
def aesExpand : Nat → Nat → Nat → List (List Nat) → List (List Nat)
  | 0, _, _, ws => ws
  | n + 1, i, rcon, ws =>
    let t := nth [] ws 0
    let old := nth [] ws 7
    let f := if i % 8 = 0 then xorL ((t.drop 1 ++ t.take 1).map sbox) [rcon, 0, 0, 0]
      else if i % 8 = 4 then t.map sbox else t
    aesExpand n (i + 1) (if i % 8 = 0 then xtime rcon else rcon) (xorL old f :: ws)

/-- Groups of n elements. -/
def groups {α : Type} (n : Nat) : Nat → List α → List (List α)
  | 0, _ => []
  | k + 1, l => l.take n :: groups n k (l.drop n)

/-- The 15 round keys of a 32-byte key. -/
def aesRoundKeys (key : List Nat) : List (List Nat) :=
  let ws := (aesExpand 52 8 1 (groups 4 8 key).reverse).reverse
  (groups 4 15 ws).map fun g => g.flatten

def aesRounds : List (List Nat) → List Nat → List Nat
  | [], s => s
  | [k], s => xorL (shiftRows (s.map sbox)) k
  | k :: ks, s => aesRounds ks (xorL (mixCols (shiftRows (s.map sbox))) k)

/-- AES-256 encryption of one block. -/
def aesEnc (rk : List (List Nat)) (s : List Nat) : List Nat :=
  match rk with
  | [] => s
  | k :: ks => aesRounds ks (xorL s k)

def aesInvRounds : List (List Nat) → List Nat → List Nat
  | [], s => s
  | [k], s => xorL ((invShiftRows s).map invSbox) k
  | k :: ks, s => aesInvRounds ks (invMixCols (xorL ((invShiftRows s).map invSbox) k))

/-- AES-256 decryption of one block. -/
def aesDec (rk : List (List Nat)) (s : List Nat) : List Nat :=
  match rk.reverse with
  | [] => s
  | k :: ks => aesInvRounds ks (xorL s k)

/-- The n low bytes of a number as numbers. -/
def natBytes (n v : Nat) : List Nat := (bytesLE n v).map (·.toNat)
/-- A number from its bytes, lowest first. -/
def ofNatBytes (l : List Nat) : Nat := l.foldr (fun b n => b + 256 * n) 0

/-- The next XTS tweak: multiply by x in GF(2^128). -/
def xtsNext (t : Nat) : Nat := (2 * t) % 2 ^ 128 ^^^ (if 2 ^ 127 ≤ t then 0x87 else 0)

/-- XTS over the blocks of a line, with block function `f`. -/
def xtsBlocks (f : List Nat → List Nat) : Nat → Nat → Nat → Nat
  | 0, _, _ => 0
  | n + 1, t, v =>
    let p := v % 2 ^ 128
    (ofNatBytes (f (natBytes 16 (p ^^^ t))) ^^^ t) + 2 ^ 128 * xtsBlocks f n (xtsNext t) (v >>> 128)

/-- The first tweak of a data unit: the 128-bit tweak value under the second key half. -/
def xtsTweak (key tweak : Nat) : Nat :=
  ofNatBytes (aesEnc (aesRoundKeys (natBytes 32 (key >>> 256))) (natBytes 16 tweak))

/-- AES-256-XTS encryption of a line (R236). `key`: K1 in the low 256 bits, K2 above. -/
def xtsEncrypt (key tweak : Nat) (l : Line) : Line :=
  .ofNat 512 (xtsBlocks (aesEnc (aesRoundKeys (natBytes 32 key))) 4 (xtsTweak key tweak) l.toNat)

/-- AES-256-XTS decryption of a line (R236). -/
def xtsDecrypt (key tweak : Nat) (l : Line) : Line :=
  .ofNat 512 (xtsBlocks (aesDec (aesRoundKeys (natBytes 32 key))) 4 (xtsTweak key tweak) l.toNat)

/-! ### SHA-256 and HMAC -/

def rotr (n x : Nat) : Nat := (x >>> n) ||| ((x <<< (32 - n)) % 2 ^ 32)

/-- Sixteen words of a 64-byte chunk, big-endian. -/
def shaWords : List Nat → List Nat
  | a :: b :: c :: d :: r => (a * 2 ^ 24 + b * 2 ^ 16 + c * 2 ^ 8 + d) :: shaWords r
  | _ => []

/-- The message schedule, last word first. -/
def shaSchedule : Nat → List Nat → List Nat
  | 0, ws => ws
  | n + 1, ws =>
    let w15 := nth 0 ws 14
    let w2 := nth 0 ws 1
    let s0 := rotr 7 w15 ^^^ rotr 18 w15 ^^^ (w15 >>> 3)
    let s1 := rotr 17 w2 ^^^ rotr 19 w2 ^^^ (w2 >>> 10)
    shaSchedule n ((nth 0 ws 15 + s0 + nth 0 ws 6 + s1) % 2 ^ 32 :: ws)

/-- The eight working variables. -/
structure Sha where
  a : Nat
  b : Nat
  c : Nat
  d : Nat
  e : Nat
  f : Nat
  g : Nat
  h : Nat

def shaRound (s : Sha) (kw : Nat) : Sha :=
  let s1 := rotr 6 s.e ^^^ rotr 11 s.e ^^^ rotr 25 s.e
  let ch := (s.e &&& s.f) ^^^ ((2 ^ 32 - 1 - s.e) &&& s.g)
  let t1 := (s.h + s1 + ch + kw) % 2 ^ 32
  let s0 := rotr 2 s.a ^^^ rotr 13 s.a ^^^ rotr 22 s.a
  let mj := (s.a &&& s.b) ^^^ (s.a &&& s.c) ^^^ (s.b &&& s.c)
  ⟨(t1 + s0 + mj) % 2 ^ 32, s.a, s.b, s.c, (s.d + t1) % 2 ^ 32, s.e, s.f, s.g⟩

def shaRounds : Nat → List Nat → Sha → Sha
  | _, [], s => s
  | i, w :: ws, s => shaRounds (i + 1) ws (shaRound s ((shaTable >>> (32 * i)) % 2 ^ 32 + w))

def shaChunk (s : Sha) (chunk : List Nat) : Sha :=
  let r := shaRounds 0 (shaSchedule 48 (shaWords chunk).reverse).reverse s
  let p (x y : Nat) := (x + y) % 2 ^ 32
  ⟨p s.a r.a, p s.b r.b, p s.c r.c, p s.d r.d, p s.e r.e, p s.f r.f, p s.g r.g, p s.h r.h⟩

/-- The n low bytes of a number, highest first. -/
def bytesBE (n v : Nat) : List Nat := (natBytes n v).reverse

/-- SHA-256 of a list of bytes: its 32 bytes. -/
def sha256 (m : List Nat) : List Nat :=
  let pad := (119 - m.length % 64) % 64
  let msg := m ++ [0x80] ++ List.replicate pad 0 ++ bytesBE 8 (8 * m.length)
  let s := (groups 64 (msg.length / 64) msg).foldl shaChunk
    ⟨0x6A09E667, 0xBB67AE85, 0x3C6EF372, 0xA54FF53A, 0x510E527F, 0x9B05688C, 0x1F83D9AB, 0x5BE0CD19⟩
  [s.a, s.b, s.c, s.d, s.e, s.f, s.g, s.h].flatMap (bytesBE 4)

/-- HMAC-SHA-256 under a key of up to 64 bytes. -/
def hmac (key msg : List Nat) : List Nat :=
  let k := key ++ List.replicate (64 - key.length) 0
  sha256 (k.map (· ^^^ 0x5C) ++ sha256 (k.map (· ^^^ 0x36) ++ msg))

/-! ### AES key unwrap (RFC 3394) -/

/-- One unwrapping step: block `i` of round `t`. -/
def kwStep (rk : List (List Nat)) (t : Nat) (a : Nat) (r : Nat) : Nat × Nat :=
  let b := aesDec rk (bytesBE 8 (a ^^^ t) ++ bytesBE 8 r)
  (ofNatBytes (b.take 8).reverse, ofNatBytes (b.drop 8).reverse)

/-- The blocks of one round, from the last to the first. -/
def kwRound (rk : List (List Nat)) (t0 : Nat) : Nat → Nat → List Nat → Nat × List Nat
  | 0, a, rs => (a, rs)
  | i + 1, a, rs =>
    let (a, r) := kwStep rk (t0 + i + 1) a (nth 0 rs i)
    kwRound rk t0 i a (modNth (fun _ => r) i rs)

/-- The six rounds, from the last. -/
def kwRounds (rk : List (List Nat)) (n : Nat) : Nat → Nat → List Nat → Nat × List Nat
  | 0, a, rs => (a, rs)
  | j + 1, a, rs =>
    let (a, rs) := kwRound rk (n * j) n a rs
    kwRounds rk n j a rs

/-- Unwrap a key of n 64-bit blocks under a 32-byte key encryption key; none when the integrity check fails. -/
def keyUnwrap (kek : List Nat) (wrapped : List Nat) (n : Nat) : Option (List Nat) :=
  let ws := (groups 8 (n + 1) wrapped).map fun g => ofNatBytes g.reverse
  let (a, rs) := kwRounds (aesRoundKeys kek) n 6 (nth 0 ws 0) (ws.drop 1)
  if a = 0xA6A6A6A6A6A6A6A6 then some (rs.flatMap (bytesBE 8)) else none

end Sys2Proof.Machine
end

