-- ==== Sys2Proof/Machine/Lms.lean ====
section
/-! DEFINITION. HSS signatures as RFC 8554 verifies and makes them, with the parameters of R509: L = 2, LMS_SHA256_M32_H20 with
LMOTS_SHA256_N32_W8 at both levels. Byte strings are lists of numbers below 256. -/
namespace Sys2Proof.Machine

/-- LMS_SHA256_M32_H20. -/
def lmsType : Nat := 8
/-- LMOTS_SHA256_N32_W8. -/
def otsType : Nat := 4

/-- Bytes k to k + n − 1. -/
def slice_ (l : List Nat) (k n : Nat) : List Nat := (l.drop k).take n

/-- A big-endian number at a place. -/
def beAt (l : List Nat) (k n : Nat) : Nat := ofNatBytes (slice_ l k n).reverse

/-- The digits of a message hash and its checksum, w = 8. -/
def otsDigits (q : List Nat) : List Nat := q ++ bytesBE 2 (q.foldl (fun n d => n + (255 - d)) 0)

/-- One Winternitz chain: n steps from step j. -/
def otsChain (pre : List Nat) : Nat → Nat → List Nat → List Nat
  | 0, _, x => x
  | n + 1, j, x => otsChain pre n (j + 1) (sha256 (pre ++ [j] ++ x))

/-- The one-time public key a signature leads to: `i` the key identifier, `q` the leaf. -/
def otsCandidate (i : List Nat) (q : Nat) (msg sig : List Nat) : List Nat :=
  let iq := i ++ bytesBE 4 q
  let h := sha256 (iq ++ [0x81, 0x81] ++ slice_ sig 4 32 ++ msg)
  let ends := (otsDigits h).zip (List.range 34) |>.flatMap fun d =>
    otsChain (iq ++ bytesBE 2 d.2) (255 - d.1) d.1 (slice_ sig (36 + 32 * d.2) 32)
  sha256 (iq ++ [0x80, 0x80] ++ ends)

/-- Up the tree from a node to the root. -/
def lmsRoot (i path : List Nat) : Nat → Nat → Nat → List Nat → List Nat
  | 0, _, _, x => x
  | n + 1, node, k, x =>
    let p := slice_ path (32 * k) 32
    let pre := i ++ bytesBE 4 (node / 2) ++ [0x83, 0x83]
    lmsRoot i path n (node / 2) (k + 1) (sha256 (if node % 2 = 1 then pre ++ p ++ x else pre ++ x ++ p))

/-- An LMS signature of 1,772 bytes verifies under a public key of 56 bytes. -/
def lmsVerify (pub msg sig : List Nat) : Bool :=
  let i := slice_ pub 8 16
  let q := beAt sig 0 4
  let ots := slice_ sig 4 1124
  let leaf := sha256 (i ++ bytesBE 4 (2 ^ 20 + q) ++ [0x82, 0x82] ++ otsCandidate i q msg ots)
  beAt pub 0 4 == lmsType && beAt pub 4 4 == otsType && beAt ots 0 4 == otsType && beAt sig 1128 4 == lmsType &&
  decide (q < 2 ^ 20) && lmsRoot i (slice_ sig 1132 640) 20 (2 ^ 20 + q) 0 leaf == slice_ pub 24 32

/-- R509: an HSS signature of 3,604 bytes verifies under a public key of 60 bytes. -/
def hssVerify (pub msg sig : List Nat) : Bool :=
  let lower := slice_ sig 1776 56
  pub.length == 60 && sig.length == 3604 && beAt pub 0 4 == 2 && beAt sig 0 4 == 1 &&
  lmsVerify (slice_ pub 4 56) lower (slice_ sig 4 1772) && lmsVerify lower msg (slice_ sig 1832 1772)

/-! ### Signing -/

/-- The identifier of a tree, and one secret of a leaf. -/
def treeId (seed t : Nat) : List Nat := bytesBE 16 (Config.lmsId seed t)
def leafSecret (seed t q k : Nat) : List Nat := bytesBE 32 (Config.otsSecret seed t q k)

/-- The one-time public key of a leaf. -/
def otsPublic (seed t q : Nat) : List Nat :=
  let iq := treeId seed t ++ bytesBE 4 q
  sha256 (iq ++ [0x80, 0x80] ++ (List.range 34).flatMap fun k => otsChain (iq ++ bytesBE 2 k) 255 0 (leafSecret seed t q k))

/-- A node of a tree, `h` levels above the leaves: the root is node 1. -/
@[irreducible] def lmsNode (seed t : Nat) : Nat → Nat → List Nat
  | 0, r => sha256 (treeId seed t ++ bytesBE 4 r ++ [0x82, 0x82] ++ otsPublic seed t (r - 2 ^ 20))
  | h + 1, r => sha256 (treeId seed t ++ bytesBE 4 r ++ [0x83, 0x83] ++ lmsNode seed t h (2 * r) ++ lmsNode seed t h (2 * r + 1))

/-- The public key of a tree, 56 bytes. -/
def lmsPublic (seed t : Nat) : List Nat := bytesBE 4 lmsType ++ bytesBE 4 otsType ++ treeId seed t ++ lmsNode seed t 20 1

/-- The signature a leaf gives, 1,772 bytes. -/
def lmsSign (seed t q : Nat) (msg : List Nat) : List Nat :=
  let iq := treeId seed t ++ bytesBE 4 q
  let salt := bytesBE 32 (Config.otsSalt seed t q msg)
  let digits := otsDigits (sha256 (iq ++ [0x81, 0x81] ++ salt ++ msg))
  let chains := (digits.zip (List.range 34)).flatMap fun d => otsChain (iq ++ bytesBE 2 d.2) d.1 0 (leafSecret seed t q d.2)
  let path := (List.range 20).flatMap fun h => lmsNode seed t h ((2 ^ 20 + q) / 2 ^ h ^^^ 1)
  bytesBE 4 q ++ bytesBE 4 otsType ++ salt ++ chains ++ bytesBE 4 lmsType ++ path

/-- The public key of a seed, 60 bytes, and the signature of 3,604 bytes that its leaf `q` of 2^40 gives (R509). -/
def hssPublic (seed : Nat) : List Nat := bytesBE 4 2 ++ lmsPublic seed 0
def hssSign (seed q : Nat) (msg : List Nat) : List Nat :=
  let n := q / 2 ^ 20
  bytesBE 4 1 ++ lmsSign seed 0 n (lmsPublic seed (1 + n)) ++ lmsPublic seed (1 + n) ++ lmsSign seed (1 + n) (q % 2 ^ 20) msg

end Sys2Proof.Machine
end

