-- ==== Sys2Proof/Machine/Fabric.lean ====
section
/-! DEFINITION. The hidden state of the ports, the switch core, the home, the resident store and the requests the
part originates: what chapters 03 to 08 give beside registers and tables. Plain data throughout. Times are in
units of 2^-32 ns of elapsed time (R523 alone, R526) unless a field says time counter. -/
namespace Sys2Proof.Machine

/-- How much of a frame a flit sent carries: all of it, its header (the tail still to come), or the rest. -/
inductive Part where
  | whole | head | rest
  deriving DecidableEq, Repr

/-- A frame waiting for an egress, 0 to 23 or 24 for the local delivery point (R122). `done`: its tail has arrived.
`stamp`: the counter's advance when it entered the part (R143, R526). `src`: its competitor at level 2 of Table 4.8, 0–23 ingress
ports, 24–31 tile columns, 32 home, 33 host path, 34 management cores; `tile`: its place in a column. `ingress`: it is still in
ingress buffer (R124); `owes`: credits for it are due to the sender at its ingress port (R121). -/
structure QEnt where
  id : Nat
  fr : Frame
  eg : Nat
  done : Bool := true
  stamp : Nat := 0
  src : Nat := 32
  tile : Nat := 0
  slough : Bool := false
  slot : Nat := 0
  ingress : Bool := false
  owes : Bool := false
  deriving DecidableEq, Repr

/-- A data flit sent and not yet acknowledged (R74), with the frame it carries, which the part keeps until the flit with its tail is
acknowledged (R108). `first`: when it was first sent (R77). -/
structure TxFlit where
  lseq : Nat
  ent : QEnt
  part : Part
  sent : Nat
  first : Nat
  deriving DecidableEq, Repr

/-- A frame arriving, its header routed: `mode` 0 on its way, 1 to be answered PEER_DEAD once its tail is good (Table 4.2,
order 4), 2 discarded. -/
structure Transit where
  id : Nat
  fr : Frame
  mode : Nat
  deriving DecidableEq, Repr

/-- The link layer of one port. `crd`: credits held, `ret`: credits to return, in class order coherence, request,
response, bulk. `rx`: frame-stream bytes received and not yet parsed; `hdr`: the frame in progress once its header was
routed, with its id. `drop`: 1 the frame in progress was abandoned (R112), 2 before its header had come. `out`: frames granted, sent in order within a class (R79).
`sending`: a cut-through frame whose tail has not left. `lit`: the port's optical engine and SerDes are powered (R494). -/
structure Port where
  start : Nat := 0
  stepAt : Nat := 0
  rxNext : Nat := 0
  txNext : Nat := 0
  unacked : List TxFlit := []
  replays : Nat := 0
  nak : Bool := false
  lost : List Nat := []
  lostAt : Nat := 0
  crd : List Nat := [0, 0, 0, 0]
  ret : List Nat := [0, 0, 0, 0]
  starved : List Nat := [0, 0, 0, 0]
  rx : List Byte := []
  rxAt : Nat := 0
  hdr : Option Transit := none
  drop : Nat := 0
  stay : Bool := false
  out : List QEnt := []
  sending : Option QEnt := none
  reserved : Nat := 0
  lit : Bool := false
  deriving DecidableEq, Repr

/-- A stream at a sink output (R126): `held` lists the frames held by sequence number; a frame `stalled` stands for its
number without effect (R129). `timer`: when the hole timer started (R130). -/
structure Stream where
  sink : Nat
  src : Nat
  dst : Nat
  tc : Nat
  expected : Nat := 0
  held : List (Nat × QEnt) := []
  timer : Nat := 0
  deriving DecidableEq, Repr

/-- The switch core. `queue`: every frame waiting for an egress, in order of entry. `rr`: round-robin pointers and class
weights left, by key. `fullSince`: since when Slough has been full (R124). -/
structure Switch where
  nextId : Nat := 0
  queue : List QEnt := []
  streams : List Stream := []
  rr : List (Nat × Nat) := []
  fullSince : Option Nat := none
  deriving DecidableEq, Repr

/-- A request joined to a Flock entry (R137); `place`: the place in the line's order it came at, its own again if it must be served by itself
(R57, R184). -/
structure Member where
  fr : Frame
  win : Nat
  off : Nat
  place : Nat := 0
  deriving DecidableEq, Repr

/-- Why a request at the home exists: a fabric or local request; a write of dirty data a snoop answer brought, for
request `parent` or for none, of directory entry `idx`; a write-back, likewise; the add of WR_SIGNAL `parent` to a word of another line
(R100, R205); an arming read of a monitor for a work item (R207); the write of SYNC_DBG_CMD `set_word` (R217). -/
inductive Kind where
  | request
  | dirty (parent : Option Nat) (idx : Nat)
  | writeBack (parent : Option Nat) (idx : Nat)
  | signal (parent : Nat)
  | arm (work : Nat)
  | debug
  deriving DecidableEq, Repr

/-- Where a request at the home stands (R26 and the waits the chapters give). -/
inductive Wait where
  | ready        -- may move on now
  | final        -- held under R99
  | slot         -- at the intake, until a reservation slot frees (R168)
  | turn         -- in the tracker, until earlier requests of its line are done (R150)
  | way          -- in its reserved tracker entry, until a way frees (R170)
  | tenure       -- a recall waits for the owner's tenure (R164)
  | snoop        -- snoop answers are due
  | dirty        -- dirty data of its line is being written (R157)
  | order        -- past the directory, until earlier requests of its line commit (R138)
  | fetch        -- on a tier fetch (R264)
  | pass         -- on a pass-through read (R274)
  | repair       -- on the mirror partner's copy (R247)
  | acks         -- committed, until the protection updates are acknowledged (R245, R249)
  | pair         -- a WR_SIGNAL at the store, until its add may be made with it (R205)
  | signal       -- the add of a WR_SIGNAL, at the store
  deriving DecidableEq, Repr

/-- The pipeline stage a request reaches next (Table 1.x of R26). -/
inductive Stage where
  | hold | flock | dir | tier | key | store
  deriving DecidableEq, Repr

/-- A request the home holds. `place`: its place in the order of R138, zero before Flock. `stage`: the stage it is at.
`near`: given near by the predictor (R172). `alone`: served again uncombined (R57). `resv`: the slot whose reserved tracker entry it was
placed in (R166). `data`: the line served in place of the store's (a peek's, a partner's); `low`: one read from the lower tier (R274), served
while the block is not in the pool. `evict`: the way being given up for it (R169). `sigFail`: how the add of a
WR_SIGNAL failed before its line was written. `tiered`: it has passed the tier stage (R257). `result`: its outcome once committed, waiting for `acks` protection updates: a status and
one line per requester. -/
structure Req where
  id : Nat
  fr : Frame
  kind : Kind := .request
  win : Option Nat := none
  off : Nat := 0
  relaxed : Bool := false
  winWr : Bool := false
  place : Nat := 0
  stage : Stage := .hold
  wait : Wait := .ready
  since : Nat := 0
  members : List Member := []
  leads : Bool := false
  open_ : Bool := false
  near : Bool := false
  alone : Bool := false
  resv : Option Nat := none
  data : Option Line := none
  low : Option Line := none
  evict : Option Nat := none
  acks : Nat := 0
  sigFail : Option Nat := none
  tiered : Bool := false
  result : Option (Nat × List Line) := none
  deriving DecidableEq, Repr

/-- A snoop sent and not yet answered (R162). `reason`: Table 5.5; `opc` 0x40 to 0x42. -/
structure Snoop where
  fen : Nat
  idx : Nat
  opc : Nat
  reason : Nat
  tag : Nat
  sent : Nat
  resent : Bool := false
  req : Option Nat := none
  deriving DecidableEq, Repr

/-- A grant sent and not yet acknowledged (R163). -/
structure Grant where
  fen : Nat
  idx : Nat
  tag : Nat
  sent : Nat
  excl : Bool
  deriving DecidableEq, Repr

/-- A bound reservation slot (R165): the key (SRC_NODE, line, OPCODE), when it was bound and for how long in µs. -/
structure RsvSlot where
  slot : Nat
  src : Nat
  line : Nat
  opc : Nat
  since : Nat
  hold : Nat
  deriving DecidableEq, Repr

/-- A drain or revoke_now in progress (R49, R50): when it started, how long it may last (none: `revoke_now`), the recalls of R53 that
have not ended, and their place among the requests of each line: behind those that came before the drain (R56). -/
structure Drain where
  win : Nat
  start : Nat
  len : Option Nat
  recalls : List Nat := []
  place : Nat := 0
  deriving DecidableEq, Repr

/-- The home. `inbox`: frames delivered and not yet served; `again`:
members to be served again through their own windows (R57), each with its place; `reqs`: the requests in it, in order of arrival;
`busQ`: accesses the fabric management window (R574) is to make. -/
structure Home where
  nextId : Nat := 1
  nextPlace : Nat := 1
  nextTag : Nat := 0
  inbox : List Frame := []
  again : List (Frame × Nat) := []
  reqs : List Req := []
  snoops : List Snoop := []
  grants : List Grant := []
  slots : List RsvSlot := []
  drains : List Drain := []
  busQ : List (Nat × Frame × Nat) := []
  deriving DecidableEq, Repr

/-- A stored line: the ciphertext of `data` under `key` with `tweak`, or `data` itself as ciphertext. -/
inductive Stored where
  | enc (key tweak : Nat) (data : Line)
  | raw (data : Line)
  deriving DecidableEq, Repr

/-- How a whole frame was last filled: zero plaintext of a block under a key (R261, R264), or ciphertext zero. -/
structure Fill where
  key : Option Nat
  block : Nat
  sys : Bool := false
  deriving DecidableEq, Repr

/-- The stacks. `lines`: stored lines by resident line number (RA >> 6); a line not listed is as its frame was filled,
`fills`, and a line of a frame not filled since power-up `power` is as it came up. `flips`: errors in a stored word of 72
bytes, as a pattern to XOR (physics alone sets it; a write clears it). `ueNext`: next place in a stack's `ue_log`. `keys`: the
keys of loaded slots. `scrubbed`, `passAt`: lines a stack's scrub pass has read, and when the pass started. `mends`: lines that await their
mirror partner's copy. -/
structure Store where
  power : Nat := 0
  lines : List (Nat × Option Stored) := []
  fills : List (Nat × Option Fill) := []
  flips : List (Nat × Nat) := []
  ueNext : List (Nat × Nat) := []
  keys : List (Nat × Nat) := []
  scrubbed : List (Nat × Nat) := []
  passAt : List (Nat × Nat) := []
  mends : List Nat := []
  deriving DecidableEq, Repr

/-- A fetch (R264): the block, its frame once taken, and whether the lower tier is read. -/
structure Fetch where
  block : Nat
  desc : Nat
  frame : Option Nat := none
  since : Nat := 0
  pass : Bool := false
  deriving DecidableEq, Repr

/-- A write-down in progress (R268). `why`: 0 eviction, 1 flush, 2 retire. `bad`: it met a line it may not send; `crcs`: the SUB_CRC of each
sub-block sent to host memory (Table 8.6); `trailed`: its trailer has been written (R462, step 3). -/
structure Down where
  block : Nat
  desc : Nat
  since : Nat
  why : Nat
  bad : Bool := false
  crcs : List Nat := []
  trailed : Bool := false
  deriving DecidableEq, Repr

/-- A TIER command in progress: `place` with the frames it has taken, `retire` with the blocks whose write-down failed, or
`flush` with the write-downs it waits for. -/
inductive TierJob where
  | place (idx : Nat) (got : List Nat)
  | retire (idx : Nat) (failed : List Nat)
  | flush (idx : Nat) (left : List Nat) (again : List Nat) (failed : Bool)
  deriving DecidableEq, Repr

/-- The tier stage's work in progress; `evicting`: the evictor has started and not yet reached FREE_HIGH_PCT (R266);
`maps`: the frames that hold each descriptor's block map (R259); `asked`: the reads of host memory that are out (R463), for the fetch (0) or write-down (2) of
a block or the pass-through read (1) of a 4 KiB unit. -/
structure Tier where
  evicting : Bool := false
  maps : List (Nat × Nat) := []
  fetches : List Fetch := []
  downs : List Down := []
  asked : List (Nat × Nat) := []
  job : Option TierJob := none
  deriving DecidableEq, Repr

/-- A protection command in progress (R248, R251, R252, R253). -/
inductive ProtJob where
  | copy (idx next acked : Nat) (failed : Bool)
  | parity (idx line got : Nat) (acc : Line)
  | freeze (idx : Nat)
  | rebuild (idx dead line got : Nat) (acc : Line)
  deriving DecidableEq, Repr

end Sys2Proof.Machine
end

