-- ==== Sys2Proof/Machine/Fields.lean ====
section
/-! DEFINITION. The registers and software-visible tables of the part, field by field, as the register tables and the
entry layouts of the spec give them: the space a field lies in, its lowest bit in the page or entry, its width,
its reset value and its access code (R9, R10). Reserved bits have no field: they read zero. -/
namespace Sys2Proof.Machine

/-- An access code of Table 0.4; RSV bits have no field. -/
inductive Acc where
  | rw | ro | w1c | w1s | wo | rc
  deriving DecidableEq, Repr

/-- The register pages and tables a field can lie in. -/
inductive Space where
  | xlt | win | swc | fqp | slough | flock | fen | pred | sync | hbm | crypt | prot | tier | peat | pch | qmgr | tile | cbw | emb | vse
  | wst | pcie | glb | pwr | sec | dbg | time | mgmt | hdr | tbl | t_xlt_entry | t_tenant_ctx | t_window | t_route
  | t_mcast | t_dir | t_monitor | t_dbg_log | t_region | t_place | t_map | t_frame | t_lmap | t_qctx | t_table | t_index | t_stream | t_qmark
  | t_retire_log | t_ue_log | t_pred | t_member | t_slot | t_pin | t_sb | t_blk | t_func | t_seg | t_crash | t_log | t_hist | t_members
  | t_nor_stage | t_report | t_attest_pub | t_token_area
  deriving DecidableEq, Repr

/-- A number for each space. -/
def Space.code : Space → Nat
  | .xlt => 1
  | .win => 2
  | .swc => 3
  | .fqp => 4
  | .slough => 5
  | .flock => 6
  | .fen => 7
  | .pred => 8
  | .sync => 9
  | .hbm => 10
  | .crypt => 11
  | .prot => 12
  | .tier => 13
  | .peat => 14
  | .pch => 15
  | .qmgr => 16
  | .tile => 17
  | .cbw => 18
  | .emb => 19
  | .vse => 20
  | .wst => 21
  | .pcie => 22
  | .glb => 23
  | .pwr => 24
  | .sec => 25
  | .dbg => 26
  | .time => 27
  | .mgmt => 28
  | .hdr => 29
  | .tbl => 30
  | .t_xlt_entry => 31
  | .t_tenant_ctx => 32
  | .t_window => 33
  | .t_route => 34
  | .t_mcast => 35
  | .t_dir => 36
  | .t_monitor => 37
  | .t_dbg_log => 38
  | .t_region => 39
  | .t_place => 40
  | .t_map => 41
  | .t_frame => 42
  | .t_lmap => 43
  | .t_qctx => 44
  | .t_table => 45
  | .t_index => 46
  | .t_stream => 47
  | .t_qmark => 48
  | .t_retire_log => 49
  | .t_ue_log => 50
  | .t_pred => 51
  | .t_member => 52
  | .t_slot => 53
  | .t_pin => 54
  | .t_sb => 55
  | .t_blk => 56
  | .t_func => 57
  | .t_seg => 58
  | .t_crash => 59
  | .t_log => 60
  | .t_hist => 61
  | .t_members => 62
  | .t_nor_stage => 63
  | .t_report => 64
  | .t_attest_pub => 65
  | .t_token_area => 66

/-- One field: its space, lowest bit within the page or entry, width, reset value and access code. -/
structure Fld where
  sp : Space
  bit : Nat
  w : Nat
  rst : Nat
  acc : Acc
  deriving DecidableEq, Repr

/-- The key of field `f` of instance or entry `i` in the field store. -/
def Fld.key (f : Fld) (i : Nat) : Nat := ((f.sp.code * 2 ^ 44) + i) * 2 ^ 16 + f.bit

namespace Reg

-- xlt: registers of 02_marsh_addressing_windows_epochs.md, Table 2.5
def XLT_VALID_ENTRIES : Fld := ⟨.xlt, 0x40*8+0, 17, 0, .ro⟩
def XLT_FAULT_VA : Fld := ⟨.xlt, 0x48*8+0, 56, 0, .ro⟩
def XLT_FAULT_TENANT : Fld := ⟨.xlt, 0x50*8+8, 12, 0, .ro⟩
def XLT_FAULT_CAUSE : Fld := ⟨.xlt, 0x50*8+0, 2, 0, .ro⟩
def xltAll0 : List Fld :=
  [XLT_VALID_ENTRIES, XLT_FAULT_VA, XLT_FAULT_TENANT, XLT_FAULT_CAUSE]

-- win: registers of 02_marsh_addressing_windows_epochs.md, Table 2.7
def WIN_CMD_OP : Fld := ⟨.win, 0x40*8+28, 4, 0, .wo⟩
def WIN_CMD_INDEX : Fld := ⟨.win, 0x40*8+16, 12, 0, .wo⟩
def WIN_CMD_NODE : Fld := ⟨.win, 0x40*8+0, 16, 0, .wo⟩
def WIN_CMD_ARG_EPOCH : Fld := ⟨.win, 0x48*8+32, 32, 0, .rw⟩
def WIN_CMD_ARG_SET_EPOCH : Fld := ⟨.win, 0x48*8+31, 1, 0, .rw⟩
def WIN_CMD_ARG_SET_REDIRECT : Fld := ⟨.win, 0x48*8+30, 1, 0, .rw⟩
def WIN_CMD_ARG_REDIRECT_PART : Fld := ⟨.win, 0x48*8+24, 6, 0, .rw⟩
def WIN_CMD_ARG_DEADLINE_US : Fld := ⟨.win, 0x48*8+0, 20, 0, .rw⟩
def WIN_CMD_STATUS_DONE : Fld := ⟨.win, 0x50*8+31, 1, 1, .ro⟩
def WIN_CMD_STATUS_CODE : Fld := ⟨.win, 0x50*8+0, 4, 0, .ro⟩
def WIN_PEER_DEAD_DEAD : Fld := ⟨.win, 0x58*8+0, 64, 0, .ro⟩
def WIN_RESTART_EPOCH_RESTART_EPOCH : Fld := ⟨.win, 0x60*8+0, 16, 0, .rw⟩
def WIN_STALE_CNT_OVF : Fld := ⟨.win, 0x68*8+63, 1, 0, .w1c⟩
def WIN_STALE_CNT : Fld := ⟨.win, 0x68*8+0, 48, 0, .ro⟩
def WIN_REVOKED_CNT_OVF : Fld := ⟨.win, 0x70*8+63, 1, 0, .w1c⟩
def WIN_REVOKED_CNT : Fld := ⟨.win, 0x70*8+0, 48, 0, .ro⟩
def WIN_RESTART_DISCARD_CNT_OVF : Fld := ⟨.win, 0x78*8+63, 1, 0, .w1c⟩
def WIN_RESTART_DISCARD_CNT : Fld := ⟨.win, 0x78*8+0, 48, 0, .ro⟩
def winAll0 : List Fld :=
  [WIN_CMD_OP, WIN_CMD_INDEX, WIN_CMD_NODE, WIN_CMD_ARG_EPOCH, WIN_CMD_ARG_SET_EPOCH, WIN_CMD_ARG_SET_REDIRECT,
   WIN_CMD_ARG_REDIRECT_PART, WIN_CMD_ARG_DEADLINE_US, WIN_CMD_STATUS_DONE, WIN_CMD_STATUS_CODE,
   WIN_PEER_DEAD_DEAD, WIN_RESTART_EPOCH_RESTART_EPOCH, WIN_STALE_CNT_OVF, WIN_STALE_CNT, WIN_REVOKED_CNT_OVF,
   WIN_REVOKED_CNT, WIN_RESTART_DISCARD_CNT_OVF, WIN_RESTART_DISCARD_CNT]

-- swc: registers of 03_fraqua_ports_frames_transactions.md, Table 3.13
def SWC_REQ_TIMEOUT_TIMEOUT_US : Fld := ⟨.swc, 0x40*8+0, 20, 0xfa0, .rw⟩
def SWC_LATE_RSP_CNT_OVF : Fld := ⟨.swc, 0x48*8+63, 1, 0, .w1c⟩
def SWC_LATE_RSP_CNT : Fld := ⟨.swc, 0x48*8+0, 48, 0, .ro⟩
def SWC_CTRL_ADAPTIVE : Fld := ⟨.swc, 0x50*8+31, 1, 1, .rw⟩
def SWC_ARB_AGE_THRESH_NS : Fld := ⟨.swc, 0x50*8+48, 16, 0x7d0, .rw⟩
def SWC_ARB_W_COH : Fld := ⟨.swc, 0x50*8+44, 4, 4, .rw⟩
def SWC_ARB_W_RSP : Fld := ⟨.swc, 0x50*8+40, 4, 4, .rw⟩
def SWC_ARB_W_REQ : Fld := ⟨.swc, 0x50*8+36, 4, 2, .rw⟩
def SWC_ARB_W_BULK : Fld := ⟨.swc, 0x50*8+32, 4, 1, .rw⟩
def SWC_RESEQ_HOLE_US : Fld := ⟨.swc, 0x58*8+0, 20, 0x3e8, .rw⟩
def SWC_GRANT_USED_CREDITS : Fld := ⟨.swc, 0x58*8+32, 22, 0, .ro⟩
def SWC_NO_ROUTE_CNT_OVF : Fld := ⟨.swc, 0x60*8+63, 1, 0, .w1c⟩
def SWC_NO_ROUTE_CNT : Fld := ⟨.swc, 0x60*8+0, 48, 0, .ro⟩
def SWC_PEER_DEAD_RSP_CNT_OVF : Fld := ⟨.swc, 0x68*8+63, 1, 0, .w1c⟩
def SWC_PEER_DEAD_RSP_CNT : Fld := ⟨.swc, 0x68*8+0, 48, 0, .ro⟩
def SWC_RESEQ_HOLE_CNT_OVF : Fld := ⟨.swc, 0x70*8+63, 1, 0, .w1c⟩
def SWC_RESEQ_HOLE_CNT : Fld := ⟨.swc, 0x70*8+0, 48, 0, .ro⟩
def SWC_RESEQ_BEHIND_CNT_OVF : Fld := ⟨.swc, 0x78*8+63, 1, 0, .w1c⟩
def SWC_RESEQ_BEHIND_CNT : Fld := ⟨.swc, 0x78*8+0, 48, 0, .ro⟩
def SWC_RESEQ_OUTWIN_CNT_OVF : Fld := ⟨.swc, 0x80*8+63, 1, 0, .w1c⟩
def SWC_RESEQ_OUTWIN_CNT : Fld := ⟨.swc, 0x80*8+0, 48, 0, .ro⟩
def SWC_MC_DISCARD_CNT_OVF : Fld := ⟨.swc, 0x88*8+63, 1, 0, .w1c⟩
def SWC_MC_DISCARD_CNT : Fld := ⟨.swc, 0x88*8+0, 48, 0, .ro⟩
def SWC_ADAPT_ALT_CNT_OVF : Fld := ⟨.swc, 0x90*8+63, 1, 0, .w1c⟩
def SWC_ADAPT_ALT_CNT : Fld := ⟨.swc, 0x90*8+0, 48, 0, .ro⟩
def SWC_AGE_GRANT_CNT_OVF : Fld := ⟨.swc, 0x98*8+63, 1, 0, .w1c⟩
def SWC_AGE_GRANT_CNT : Fld := ⟨.swc, 0x98*8+0, 48, 0, .ro⟩
def SWC_CMD_OP : Fld := ⟨.swc, 0xa0*8+28, 4, 0, .wo⟩
def SWC_CMD_NODE : Fld := ⟨.swc, 0xa0*8+0, 16, 0, .wo⟩
def SWC_CMD_STATUS_DONE : Fld := ⟨.swc, 0xa0*8+63, 1, 1, .ro⟩
def SWC_CMD_STATUS_CODE : Fld := ⟨.swc, 0xa0*8+32, 4, 0, .ro⟩
def swcAll0 : List Fld :=
  [SWC_REQ_TIMEOUT_TIMEOUT_US, SWC_LATE_RSP_CNT_OVF, SWC_LATE_RSP_CNT, SWC_CTRL_ADAPTIVE, SWC_ARB_AGE_THRESH_NS,
   SWC_ARB_W_COH, SWC_ARB_W_RSP, SWC_ARB_W_REQ, SWC_ARB_W_BULK, SWC_RESEQ_HOLE_US, SWC_GRANT_USED_CREDITS,
   SWC_NO_ROUTE_CNT_OVF, SWC_NO_ROUTE_CNT, SWC_PEER_DEAD_RSP_CNT_OVF, SWC_PEER_DEAD_RSP_CNT,
   SWC_RESEQ_HOLE_CNT_OVF, SWC_RESEQ_HOLE_CNT, SWC_RESEQ_BEHIND_CNT_OVF, SWC_RESEQ_BEHIND_CNT,
   SWC_RESEQ_OUTWIN_CNT_OVF, SWC_RESEQ_OUTWIN_CNT, SWC_MC_DISCARD_CNT_OVF, SWC_MC_DISCARD_CNT,
   SWC_ADAPT_ALT_CNT_OVF, SWC_ADAPT_ALT_CNT, SWC_AGE_GRANT_CNT_OVF, SWC_AGE_GRANT_CNT, SWC_CMD_OP, SWC_CMD_NODE,
   SWC_CMD_STATUS_DONE, SWC_CMD_STATUS_CODE]

-- fqp: registers of 03_fraqua_ports_frames_transactions.md, Table 3.17
def FQP_CTRL_ENABLE : Fld := ⟨.fqp, 0x40*8+31, 1, 0, .rw⟩
def FQP_CTRL_ROLE : Fld := ⟨.fqp, 0x40*8+30, 1, 0, .rw⟩
def FQP_SRC_RANGE_SRC_HI : Fld := ⟨.fqp, 0x40*8+48, 16, 0, .rw⟩
def FQP_SRC_RANGE_SRC_LO : Fld := ⟨.fqp, 0x40*8+32, 16, 0xffff, .rw⟩
def FQP_STATE_PEER_ROLE : Fld := ⟨.fqp, 0x48*8+30, 1, 0, .ro⟩
def FQP_STATE_PEER_NODE : Fld := ⟨.fqp, 0x48*8+12, 16, 0, .ro⟩
def FQP_STATE_LINK_STATE : Fld := ⟨.fqp, 0x48*8+0, 4, 0, .ro⟩
def FQP_TIMING_FRAME_STALL_US : Fld := ⟨.fqp, 0x48*8+54, 10, 0, .rw⟩
def FQP_TIMING_REPLAY_MAX : Fld := ⟨.fqp, 0x48*8+48, 3, 4, .rw⟩
def FQP_TIMING_LOCK_HOLD_US : Fld := ⟨.fqp, 0x48*8+44, 4, 2, .rw⟩
def FQP_CREDIT_A_REQ_UNITS : Fld := ⟨.fqp, 0x50*8+16, 16, 0x2000, .rw⟩
def FQP_CREDIT_A_COH_UNITS : Fld := ⟨.fqp, 0x50*8+0, 16, 0x800, .rw⟩
def FQP_CREDIT_B_BULK_UNITS : Fld := ⟨.fqp, 0x50*8+48, 16, 0x4000, .rw⟩
def FQP_CREDIT_B_RSP_UNITS : Fld := ⟨.fqp, 0x50*8+32, 16, 0x4000, .rw⟩
def FQP_LINK_DOWN_TIME_TIME : Fld := ⟨.fqp, 0x58*8+0, 64, 0, .ro⟩
def FQP_FEC_CORR_CNT_OVF : Fld := ⟨.fqp, 0x60*8+63, 1, 0, .w1c⟩
def FQP_FEC_CORR_CNT : Fld := ⟨.fqp, 0x60*8+0, 48, 0, .ro⟩
def FQP_FEC_UNCORR_CNT_OVF : Fld := ⟨.fqp, 0x68*8+63, 1, 0, .w1c⟩
def FQP_FEC_UNCORR_CNT : Fld := ⟨.fqp, 0x68*8+0, 48, 0, .ro⟩
def FQP_REPLAY_CNT_OVF : Fld := ⟨.fqp, 0x70*8+63, 1, 0, .w1c⟩
def FQP_REPLAY_CNT : Fld := ⟨.fqp, 0x70*8+0, 48, 0, .ro⟩
def FQP_TX_FRAME_CNT_OVF : Fld := ⟨.fqp, 0x78*8+63, 1, 0, .w1c⟩
def FQP_TX_FRAME_CNT : Fld := ⟨.fqp, 0x78*8+0, 48, 0, .ro⟩
def FQP_RX_FRAME_CNT_OVF : Fld := ⟨.fqp, 0x80*8+63, 1, 0, .w1c⟩
def FQP_RX_FRAME_CNT : Fld := ⟨.fqp, 0x80*8+0, 48, 0, .ro⟩
def FQP_RX_BAD_CNT_OVF : Fld := ⟨.fqp, 0x88*8+63, 1, 0, .w1c⟩
def FQP_RX_BAD_CNT : Fld := ⟨.fqp, 0x88*8+0, 48, 0, .ro⟩
def FQP_STALL_CNT_OVF : Fld := ⟨.fqp, 0x90*8+63, 1, 0, .w1c⟩
def FQP_STALL_CNT : Fld := ⟨.fqp, 0x90*8+0, 48, 0, .ro⟩
def FQP_RESUME_DISCARD_CNT_OVF : Fld := ⟨.fqp, 0x98*8+63, 1, 0, .w1c⟩
def FQP_RESUME_DISCARD_CNT : Fld := ⟨.fqp, 0x98*8+0, 48, 0, .ro⟩
def FQP_INGRESS_VIOL_CNT_OVF : Fld := ⟨.fqp, 0xa0*8+63, 1, 0, .w1c⟩
def FQP_INGRESS_VIOL_CNT : Fld := ⟨.fqp, 0xa0*8+0, 48, 0, .ro⟩
def FQP_LINK_DOWN_CNT_OVF : Fld := ⟨.fqp, 0xa8*8+63, 1, 0, .w1c⟩
def FQP_LINK_DOWN_CNT : Fld := ⟨.fqp, 0xa8*8+0, 48, 0, .ro⟩
def FQP_LINK_DOWN_DISCARD_CNT_OVF : Fld := ⟨.fqp, 0xb0*8+63, 1, 0, .w1c⟩
def FQP_LINK_DOWN_DISCARD_CNT : Fld := ⟨.fqp, 0xb0*8+0, 48, 0, .ro⟩
def fqpAll0 : List Fld :=
  [FQP_CTRL_ENABLE, FQP_CTRL_ROLE, FQP_SRC_RANGE_SRC_HI, FQP_SRC_RANGE_SRC_LO, FQP_STATE_PEER_ROLE,
   FQP_STATE_PEER_NODE, FQP_STATE_LINK_STATE, FQP_TIMING_FRAME_STALL_US, FQP_TIMING_REPLAY_MAX,
   FQP_TIMING_LOCK_HOLD_US, FQP_CREDIT_A_REQ_UNITS, FQP_CREDIT_A_COH_UNITS, FQP_CREDIT_B_BULK_UNITS,
   FQP_CREDIT_B_RSP_UNITS, FQP_LINK_DOWN_TIME_TIME, FQP_FEC_CORR_CNT_OVF, FQP_FEC_CORR_CNT,
   FQP_FEC_UNCORR_CNT_OVF, FQP_FEC_UNCORR_CNT, FQP_REPLAY_CNT_OVF, FQP_REPLAY_CNT, FQP_TX_FRAME_CNT_OVF,
   FQP_TX_FRAME_CNT, FQP_RX_FRAME_CNT_OVF, FQP_RX_FRAME_CNT, FQP_RX_BAD_CNT_OVF, FQP_RX_BAD_CNT,
   FQP_STALL_CNT_OVF, FQP_STALL_CNT, FQP_RESUME_DISCARD_CNT_OVF, FQP_RESUME_DISCARD_CNT,
   FQP_INGRESS_VIOL_CNT_OVF, FQP_INGRESS_VIOL_CNT, FQP_LINK_DOWN_CNT_OVF, FQP_LINK_DOWN_CNT,
   FQP_LINK_DOWN_DISCARD_CNT_OVF, FQP_LINK_DOWN_DISCARD_CNT]

-- slough: registers of 04_switch_core_slough_flock.md, Table 4.10
def SLOUGH_CFG_SIZE_GIB : Fld := ⟨.slough, 0x40*8+0, 7, 0x10, .rw⟩
def SLOUGH_THRESH_FULL_LIMIT_MS : Fld := ⟨.slough, 0x40*8+48, 16, 0x64, .rw⟩
def SLOUGH_THRESH_SPILL_PCT : Fld := ⟨.slough, 0x40*8+32, 7, 0x4b, .rw⟩
def SLOUGH_OCC_HWM_FRAMES : Fld := ⟨.slough, 0x48*8+32, 30, 0, .rc⟩
def SLOUGH_OCC_OCC_FRAMES : Fld := ⟨.slough, 0x48*8+0, 30, 0, .ro⟩
def SLOUGH_SPILL_CNT_OVF : Fld := ⟨.slough, 0x50*8+63, 1, 0, .w1c⟩
def SLOUGH_SPILL_CNT : Fld := ⟨.slough, 0x50*8+0, 48, 0, .ro⟩
def SLOUGH_DISCARD_CNT_OVF : Fld := ⟨.slough, 0x58*8+63, 1, 0, .w1c⟩
def SLOUGH_DISCARD_CNT : Fld := ⟨.slough, 0x58*8+0, 48, 0, .ro⟩
def SLOUGH_UNCORR_CNT_OVF : Fld := ⟨.slough, 0x60*8+63, 1, 0, .w1c⟩
def SLOUGH_UNCORR_CNT : Fld := ⟨.slough, 0x60*8+0, 48, 0, .ro⟩
def sloughAll0 : List Fld :=
  [SLOUGH_CFG_SIZE_GIB, SLOUGH_THRESH_FULL_LIMIT_MS, SLOUGH_THRESH_SPILL_PCT, SLOUGH_OCC_HWM_FRAMES,
   SLOUGH_OCC_OCC_FRAMES, SLOUGH_SPILL_CNT_OVF, SLOUGH_SPILL_CNT, SLOUGH_DISCARD_CNT_OVF, SLOUGH_DISCARD_CNT,
   SLOUGH_UNCORR_CNT_OVF, SLOUGH_UNCORR_CNT]

-- flock: registers of 04_switch_core_slough_flock.md, Table 4.11
def FLOCK_CTRL_READ_EN : Fld := ⟨.flock, 0x40*8+31, 1, 1, .rw⟩
def FLOCK_CTRL_ATOMIC_EN : Fld := ⟨.flock, 0x40*8+30, 1, 1, .rw⟩
def FLOCK_OCC_HWM : Fld := ⟨.flock, 0x40*8+48, 14, 0, .rc⟩
def FLOCK_OCC_ENTRIES : Fld := ⟨.flock, 0x40*8+32, 14, 0, .ro⟩
def FLOCK_READ_JOIN_CNT_OVF : Fld := ⟨.flock, 0x48*8+63, 1, 0, .w1c⟩
def FLOCK_READ_JOIN_CNT : Fld := ⟨.flock, 0x48*8+0, 48, 0, .ro⟩
def FLOCK_ATOMIC_JOIN_CNT_OVF : Fld := ⟨.flock, 0x50*8+63, 1, 0, .w1c⟩
def FLOCK_ATOMIC_JOIN_CNT : Fld := ⟨.flock, 0x50*8+0, 48, 0, .ro⟩
def FLOCK_FULL_CNT_OVF : Fld := ⟨.flock, 0x58*8+63, 1, 0, .w1c⟩
def FLOCK_FULL_CNT : Fld := ⟨.flock, 0x58*8+0, 48, 0, .ro⟩
def FLOCK_RESERVE_CNT_OVF : Fld := ⟨.flock, 0x60*8+63, 1, 0, .w1c⟩
def FLOCK_RESERVE_CNT : Fld := ⟨.flock, 0x60*8+0, 48, 0, .ro⟩
def flockAll0 : List Fld :=
  [FLOCK_CTRL_READ_EN, FLOCK_CTRL_ATOMIC_EN, FLOCK_OCC_HWM, FLOCK_OCC_ENTRIES, FLOCK_READ_JOIN_CNT_OVF,
   FLOCK_READ_JOIN_CNT, FLOCK_ATOMIC_JOIN_CNT_OVF, FLOCK_ATOMIC_JOIN_CNT, FLOCK_FULL_CNT_OVF, FLOCK_FULL_CNT,
   FLOCK_RESERVE_CNT_OVF, FLOCK_RESERVE_CNT]

-- fen: registers of 05_fen_coherence.md, Table 5.11
def FEN_CFG_TENURE_NS : Fld := ⟨.fen, 0x40*8+20, 12, 0xc8, .rw⟩
def FEN_CFG_SNOOP_TIMEOUT_US : Fld := ⟨.fen, 0x40*8+4, 16, 0x32, .rw⟩
def FEN_RSV_CFG_LINE_QUEUE : Fld := ⟨.fen, 0x40*8+42, 4, 8, .rw⟩
def FEN_RSV_CFG_RSV_HOLD_US : Fld := ⟨.fen, 0x40*8+32, 10, 0x14, .rw⟩
def FEN_CMD_OP : Fld := ⟨.fen, 0x48*8+28, 4, 0, .wo⟩
def FEN_CMD_NEAR_OK : Fld := ⟨.fen, 0x48*8+22, 1, 0, .wo⟩
def FEN_CMD_REQ : Fld := ⟨.fen, 0x48*8+16, 6, 0, .wo⟩
def FEN_CMD_NODE : Fld := ⟨.fen, 0x48*8+0, 16, 0, .wo⟩
def FEN_CMD_STATUS_DONE : Fld := ⟨.fen, 0x48*8+63, 1, 1, .ro⟩
def FEN_CMD_STATUS_CODE : Fld := ⟨.fen, 0x48*8+32, 4, 0, .ro⟩
def FEN_OCC_ENTRIES : Fld := ⟨.fen, 0x50*8+0, 19, 0, .ro⟩
def FEN_RSV_OCC_HWM : Fld := ⟨.fen, 0x50*8+48, 10, 0, .rc⟩
def FEN_RSV_OCC_USED : Fld := ⟨.fen, 0x50*8+32, 10, 0, .ro⟩
def FEN_SNOOP_CNT_OVF : Fld := ⟨.fen, 0x60*8+63, 1, 0, .w1c⟩
def FEN_SNOOP_CNT : Fld := ⟨.fen, 0x60*8+0, 48, 0, .ro⟩
def FEN_SNOOP_NP_CNT_OVF : Fld := ⟨.fen, 0x68*8+63, 1, 0, .w1c⟩
def FEN_SNOOP_NP_CNT : Fld := ⟨.fen, 0x68*8+0, 48, 0, .ro⟩
def FEN_BACKINV_CNT_OVF : Fld := ⟨.fen, 0x70*8+63, 1, 0, .w1c⟩
def FEN_BACKINV_CNT : Fld := ⟨.fen, 0x70*8+0, 48, 0, .ro⟩
def FEN_RETRY_CNT_OVF : Fld := ⟨.fen, 0x78*8+63, 1, 0, .w1c⟩
def FEN_RETRY_CNT : Fld := ⟨.fen, 0x78*8+0, 48, 0, .ro⟩
def FEN_RSV_EXPIRED_CNT_OVF : Fld := ⟨.fen, 0x80*8+63, 1, 0, .w1c⟩
def FEN_RSV_EXPIRED_CNT : Fld := ⟨.fen, 0x80*8+0, 48, 0, .ro⟩
def FEN_SNOOP_TIMEOUT_CNT_OVF : Fld := ⟨.fen, 0x88*8+63, 1, 0, .w1c⟩
def FEN_SNOOP_TIMEOUT_CNT : Fld := ⟨.fen, 0x88*8+0, 48, 0, .ro⟩
def FEN_LATE_COH_CNT_OVF : Fld := ⟨.fen, 0x90*8+63, 1, 0, .w1c⟩
def FEN_LATE_COH_CNT : Fld := ⟨.fen, 0x90*8+0, 48, 0, .ro⟩
def FEN_COH_DISCARD_CNT_OVF : Fld := ⟨.fen, 0x98*8+63, 1, 0, .w1c⟩
def FEN_COH_DISCARD_CNT : Fld := ⟨.fen, 0x98*8+0, 48, 0, .ro⟩
def FEN_ALIAS_CNT_OVF : Fld := ⟨.fen, 0xa0*8+63, 1, 0, .w1c⟩
def FEN_ALIAS_CNT : Fld := ⟨.fen, 0xa0*8+0, 48, 0, .ro⟩
def FEN_TENURE_WAIT_CNT_OVF : Fld := ⟨.fen, 0xa8*8+63, 1, 0, .w1c⟩
def FEN_TENURE_WAIT_CNT : Fld := ⟨.fen, 0xa8*8+0, 48, 0, .ro⟩
def FEN_NONMEMBER_CNT_OVF : Fld := ⟨.fen, 0xb0*8+63, 1, 0, .w1c⟩
def FEN_NONMEMBER_CNT : Fld := ⟨.fen, 0xb0*8+0, 48, 0, .ro⟩
def FEN_PURGE_OWNED_CNT_OVF : Fld := ⟨.fen, 0xb8*8+63, 1, 0, .w1c⟩
def FEN_PURGE_OWNED_CNT : Fld := ⟨.fen, 0xb8*8+0, 48, 0, .ro⟩
def fenAll0 : List Fld :=
  [FEN_CFG_TENURE_NS, FEN_CFG_SNOOP_TIMEOUT_US, FEN_RSV_CFG_LINE_QUEUE, FEN_RSV_CFG_RSV_HOLD_US, FEN_CMD_OP,
   FEN_CMD_NEAR_OK, FEN_CMD_REQ, FEN_CMD_NODE, FEN_CMD_STATUS_DONE, FEN_CMD_STATUS_CODE, FEN_OCC_ENTRIES,
   FEN_RSV_OCC_HWM, FEN_RSV_OCC_USED, FEN_SNOOP_CNT_OVF, FEN_SNOOP_CNT, FEN_SNOOP_NP_CNT_OVF, FEN_SNOOP_NP_CNT,
   FEN_BACKINV_CNT_OVF, FEN_BACKINV_CNT, FEN_RETRY_CNT_OVF, FEN_RETRY_CNT, FEN_RSV_EXPIRED_CNT_OVF,
   FEN_RSV_EXPIRED_CNT, FEN_SNOOP_TIMEOUT_CNT_OVF, FEN_SNOOP_TIMEOUT_CNT, FEN_LATE_COH_CNT_OVF, FEN_LATE_COH_CNT,
   FEN_COH_DISCARD_CNT_OVF, FEN_COH_DISCARD_CNT, FEN_ALIAS_CNT_OVF, FEN_ALIAS_CNT, FEN_TENURE_WAIT_CNT_OVF,
   FEN_TENURE_WAIT_CNT, FEN_NONMEMBER_CNT_OVF, FEN_NONMEMBER_CNT, FEN_PURGE_OWNED_CNT_OVF, FEN_PURGE_OWNED_CNT]

-- pred: registers of 05_fen_coherence.md, Table 5.12
def PRED_CFG_MODE : Fld := ⟨.pred, 0x40*8+30, 2, 0, .rw⟩
def PRED_CFG_GRAIN_LOG2 : Fld := ⟨.pred, 0x40*8+25, 5, 0xc, .rw⟩
def PRED_CFG_FAR_ON : Fld := ⟨.pred, 0x40*8+12, 4, 8, .rw⟩
def PRED_CFG_FAR_OFF : Fld := ⟨.pred, 0x40*8+8, 4, 3, .rw⟩
def PRED_CFG_INC : Fld := ⟨.pred, 0x40*8+4, 4, 2, .rw⟩
def PRED_NEAR_CNT_OVF : Fld := ⟨.pred, 0x48*8+63, 1, 0, .w1c⟩
def PRED_NEAR_CNT : Fld := ⟨.pred, 0x48*8+0, 48, 0, .ro⟩
def PRED_FAR_CNT_OVF : Fld := ⟨.pred, 0x50*8+63, 1, 0, .w1c⟩
def PRED_FAR_CNT : Fld := ⟨.pred, 0x50*8+0, 48, 0, .ro⟩
def PRED_FLIP_CNT_OVF : Fld := ⟨.pred, 0x58*8+63, 1, 0, .w1c⟩
def PRED_FLIP_CNT : Fld := ⟨.pred, 0x58*8+0, 48, 0, .ro⟩
def predAll0 : List Fld :=
  [PRED_CFG_MODE, PRED_CFG_GRAIN_LOG2, PRED_CFG_FAR_ON, PRED_CFG_FAR_OFF, PRED_CFG_INC, PRED_NEAR_CNT_OVF,
   PRED_NEAR_CNT, PRED_FAR_CNT_OVF, PRED_FAR_CNT, PRED_FLIP_CNT_OVF, PRED_FLIP_CNT]

-- sync: registers of 06_ordering_scopes_signals.md, Table 6.14
def SYNC_CFG_POLL_NS : Fld := ⟨.sync, 0x40*8+16, 16, 0x3e8, .rw⟩
def SYNC_CFG_PUBLISH_TRIES : Fld := ⟨.sync, 0x40*8+8, 8, 0x40, .rw⟩
def SYNC_TENANT_LIMIT_MONITORS : Fld := ⟨.sync, 0x40*8+32, 17, 0x10000, .rw⟩
def SYNC_MON_OCC_HWM : Fld := ⟨.sync, 0x48*8+32, 17, 0, .rc⟩
def SYNC_MON_OCC_ARMED : Fld := ⟨.sync, 0x48*8+0, 17, 0, .ro⟩
def SYNC_DBG_CMD_OP : Fld := ⟨.sync, 0x50*8+60, 4, 0, .wo⟩
def SYNC_DBG_CMD_TARGET : Fld := ⟨.sync, 0x50*8+0, 44, 0, .wo⟩
def SYNC_DBG_VALUE_VALUE : Fld := ⟨.sync, 0x58*8+0, 64, 0, .rw⟩
def SYNC_DBG_STATUS_DONE : Fld := ⟨.sync, 0x60*8+31, 1, 1, .ro⟩
def SYNC_DBG_STATUS_CODE : Fld := ⟨.sync, 0x60*8+0, 4, 0, .ro⟩
def SYNC_BLOCKED_FIRST_SRC_TENANT : Fld := ⟨.sync, 0x68*8+52, 12, 0, .ro⟩
def SYNC_BLOCKED_FIRST_OBJ_TENANT : Fld := ⟨.sync, 0x68*8+40, 12, 0, .ro⟩
def SYNC_BLOCKED_FIRST_SRC_NODE : Fld := ⟨.sync, 0x68*8+24, 16, 0, .ro⟩
def SYNC_BLOCKED_FIRST_STAGE : Fld := ⟨.sync, 0x68*8+0, 1, 0, .ro⟩
def SYNC_DBG_LOG_PTR_WRAPPED : Fld := ⟨.sync, 0x70*8+31, 1, 0, .ro⟩
def SYNC_DBG_LOG_PTR_NEXT : Fld := ⟨.sync, 0x70*8+0, 6, 0, .ro⟩
def SYNC_FIRE_CNT_OVF : Fld := ⟨.sync, 0x78*8+63, 1, 0, .w1c⟩
def SYNC_FIRE_CNT : Fld := ⟨.sync, 0x78*8+0, 48, 0, .ro⟩
def SYNC_POLL_CNT_OVF : Fld := ⟨.sync, 0x80*8+63, 1, 0, .w1c⟩
def SYNC_POLL_CNT : Fld := ⟨.sync, 0x80*8+0, 48, 0, .ro⟩
def SYNC_BLOCKED_CNT_OVF : Fld := ⟨.sync, 0x88*8+63, 1, 0, .w1c⟩
def SYNC_BLOCKED_CNT : Fld := ⟨.sync, 0x88*8+0, 48, 0, .ro⟩
def SYNC_DBG_ACTION_CNT_OVF : Fld := ⟨.sync, 0x90*8+63, 1, 0, .w1c⟩
def SYNC_DBG_ACTION_CNT : Fld := ⟨.sync, 0x90*8+0, 48, 0, .ro⟩
def SYNC_DBG_DENIED_CNT_OVF : Fld := ⟨.sync, 0x98*8+63, 1, 0, .w1c⟩
def SYNC_DBG_DENIED_CNT : Fld := ⟨.sync, 0x98*8+0, 48, 0, .ro⟩
def SYNC_PUBLISH_CONFLICT_CNT_OVF : Fld := ⟨.sync, 0xa0*8+63, 1, 0, .w1c⟩
def SYNC_PUBLISH_CONFLICT_CNT : Fld := ⟨.sync, 0xa0*8+0, 48, 0, .ro⟩
def SYNC_PUBLISH_TRIES_CNT_OVF : Fld := ⟨.sync, 0xa8*8+63, 1, 0, .w1c⟩
def SYNC_PUBLISH_TRIES_CNT : Fld := ⟨.sync, 0xa8*8+0, 48, 0, .ro⟩
def syncAll0 : List Fld :=
  [SYNC_CFG_POLL_NS, SYNC_CFG_PUBLISH_TRIES, SYNC_TENANT_LIMIT_MONITORS, SYNC_MON_OCC_HWM, SYNC_MON_OCC_ARMED,
   SYNC_DBG_CMD_OP, SYNC_DBG_CMD_TARGET, SYNC_DBG_VALUE_VALUE, SYNC_DBG_STATUS_DONE, SYNC_DBG_STATUS_CODE,
   SYNC_BLOCKED_FIRST_SRC_TENANT, SYNC_BLOCKED_FIRST_OBJ_TENANT, SYNC_BLOCKED_FIRST_SRC_NODE,
   SYNC_BLOCKED_FIRST_STAGE, SYNC_DBG_LOG_PTR_WRAPPED, SYNC_DBG_LOG_PTR_NEXT, SYNC_FIRE_CNT_OVF, SYNC_FIRE_CNT,
   SYNC_POLL_CNT_OVF, SYNC_POLL_CNT, SYNC_BLOCKED_CNT_OVF, SYNC_BLOCKED_CNT, SYNC_DBG_ACTION_CNT_OVF,
   SYNC_DBG_ACTION_CNT, SYNC_DBG_DENIED_CNT_OVF, SYNC_DBG_DENIED_CNT, SYNC_PUBLISH_CONFLICT_CNT_OVF,
   SYNC_PUBLISH_CONFLICT_CNT, SYNC_PUBLISH_TRIES_CNT_OVF, SYNC_PUBLISH_TRIES_CNT]

-- hbm: registers of 07_resident_store_protection.md, Table 7.5
def HBM_GLB_STACK_EN : Fld := ⟨.hbm, 0x40*8+0, 12, 0xfff, .rw⟩
def HBM_CFG_LC_MODE : Fld := ⟨.hbm, 0x40*8+32, 2, 0, .rw⟩
def HBM_STATE_STACK_STATE : Fld := ⟨.hbm, 0x48*8+0, 3, 0, .ro⟩
def HBM_SCRUB_PASSES : Fld := ⟨.hbm, 0x48*8+48, 16, 0, .ro⟩
def HBM_SCRUB_PERIOD_H : Fld := ⟨.hbm, 0x48*8+32, 8, 0x18, .rw⟩
def HBM_CE_LINE_CNT_OVF : Fld := ⟨.hbm, 0x50*8+63, 1, 0, .w1c⟩
def HBM_CE_LINE_CNT : Fld := ⟨.hbm, 0x50*8+0, 48, 0, .ro⟩
def HBM_CE_BYTE_CNT_OVF : Fld := ⟨.hbm, 0x58*8+63, 1, 0, .w1c⟩
def HBM_CE_BYTE_CNT : Fld := ⟨.hbm, 0x58*8+0, 48, 0, .ro⟩
def HBM_UE_CNT_OVF : Fld := ⟨.hbm, 0x60*8+63, 1, 0, .w1c⟩
def HBM_UE_CNT : Fld := ⟨.hbm, 0x60*8+0, 48, 0, .ro⟩
def HBM_SCRUB_FIX_CNT_OVF : Fld := ⟨.hbm, 0x68*8+63, 1, 0, .w1c⟩
def HBM_SCRUB_FIX_CNT : Fld := ⟨.hbm, 0x68*8+0, 48, 0, .ro⟩
def hbmAll0 : List Fld :=
  [HBM_GLB_STACK_EN, HBM_CFG_LC_MODE, HBM_STATE_STACK_STATE, HBM_SCRUB_PASSES, HBM_SCRUB_PERIOD_H,
   HBM_CE_LINE_CNT_OVF, HBM_CE_LINE_CNT, HBM_CE_BYTE_CNT_OVF, HBM_CE_BYTE_CNT, HBM_UE_CNT_OVF, HBM_UE_CNT,
   HBM_SCRUB_FIX_CNT_OVF, HBM_SCRUB_FIX_CNT]

-- crypt: registers of 07_resident_store_protection.md, Table 7.6
def CRYPT_CMD_OP : Fld := ⟨.crypt, 0x40*8+28, 4, 0, .wo⟩
def CRYPT_CMD_SLOT : Fld := ⟨.crypt, 0x40*8+0, 12, 0, .wo⟩
def CRYPT_CMD_STATUS_DONE : Fld := ⟨.crypt, 0x40*8+63, 1, 1, .ro⟩
def CRYPT_CMD_STATUS_CODE : Fld := ⟨.crypt, 0x40*8+32, 4, 0, .ro⟩
def CRYPT_LOADED_COUNT : Fld := ⟨.crypt, 0x48*8+0, 13, 0, .ro⟩
def CRYPT_NOKEY_CNT_OVF : Fld := ⟨.crypt, 0x50*8+63, 1, 0, .w1c⟩
def CRYPT_NOKEY_CNT : Fld := ⟨.crypt, 0x50*8+0, 48, 0, .ro⟩
def cryptAll0 : List Fld :=
  [CRYPT_CMD_OP, CRYPT_CMD_SLOT, CRYPT_CMD_STATUS_DONE, CRYPT_CMD_STATUS_CODE, CRYPT_LOADED_COUNT,
   CRYPT_NOKEY_CNT_OVF, CRYPT_NOKEY_CNT]

-- prot: registers of 07_resident_store_protection.md, Table 7.7
def PROT_CMD_OP : Fld := ⟨.prot, 0x40*8+28, 4, 0, .wo⟩
def PROT_CMD_INDEX : Fld := ⟨.prot, 0x40*8+12, 8, 0, .wo⟩
def PROT_CMD_DEAD_IDX : Fld := ⟨.prot, 0x40*8+0, 3, 0, .wo⟩
def PROT_CMD_ARG_TARGET : Fld := ⟨.prot, 0x48*8+26, 27, 0, .rw⟩
def PROT_CMD_STATUS_DONE : Fld := ⟨.prot, 0x50*8+31, 1, 1, .ro⟩
def PROT_CMD_STATUS_CODE : Fld := ⟨.prot, 0x50*8+0, 4, 0, .ro⟩
def PROT_REBUILD_POS_LINE : Fld := ⟨.prot, 0x58*8+0, 35, 0, .ro⟩
def PROT_LOST_CNT_OVF : Fld := ⟨.prot, 0x60*8+63, 1, 0, .w1c⟩
def PROT_LOST_CNT : Fld := ⟨.prot, 0x60*8+0, 48, 0, .ro⟩
def PROT_FROZEN_CNT_OVF : Fld := ⟨.prot, 0x68*8+63, 1, 0, .w1c⟩
def PROT_FROZEN_CNT : Fld := ⟨.prot, 0x68*8+0, 48, 0, .ro⟩
def PROT_UPDATE_CNT_OVF : Fld := ⟨.prot, 0x70*8+63, 1, 0, .w1c⟩
def PROT_UPDATE_CNT : Fld := ⟨.prot, 0x70*8+0, 48, 0, .ro⟩
def protAll0 : List Fld :=
  [PROT_CMD_OP, PROT_CMD_INDEX, PROT_CMD_DEAD_IDX, PROT_CMD_ARG_TARGET, PROT_CMD_STATUS_DONE,
   PROT_CMD_STATUS_CODE, PROT_REBUILD_POS_LINE, PROT_LOST_CNT_OVF, PROT_LOST_CNT, PROT_FROZEN_CNT_OVF,
   PROT_FROZEN_CNT, PROT_UPDATE_CNT_OVF, PROT_UPDATE_CNT]

-- tier: registers of 08_tiered_range_placement.md, Table 8.11
def TIER_CMD_OP : Fld := ⟨.tier, 0x40*8+28, 4, 0, .wo⟩
def TIER_CMD_INDEX : Fld := ⟨.tier, 0x40*8+0, 12, 0, .wo⟩
def TIER_CMD_STATUS_DONE : Fld := ⟨.tier, 0x40*8+63, 1, 1, .ro⟩
def TIER_CMD_STATUS_CODE : Fld := ⟨.tier, 0x40*8+32, 4, 0, .ro⟩
def TIER_CFG_FREE_LOW_PCT : Fld := ⟨.tier, 0x48*8+24, 8, 2, .rw⟩
def TIER_CFG_FREE_HIGH_PCT : Fld := ⟨.tier, 0x48*8+16, 8, 4, .rw⟩
def TIER_CFG_TOUCH_GRAIN_US : Fld := ⟨.tier, 0x48*8+0, 16, 0x3e8, .rw⟩
def TIER_TIMEOUT_PEAT_US : Fld := ⟨.tier, 0x48*8+48, 16, 0x7d0, .rw⟩
def TIER_TIMEOUT_HOST_US : Fld := ⟨.tier, 0x48*8+32, 16, 0x1f4, .rw⟩
def HIWYN_CFG_HEAT_UP : Fld := ⟨.tier, 0x50*8+24, 8, 4, .rw⟩
def HIWYN_CFG_HALVE_MS : Fld := ⟨.tier, 0x50*8+0, 16, 0x64, .rw⟩
def TIER_HANDOFF_CFG_GUARD_US : Fld := ⟨.tier, 0x50*8+32, 16, 0xa, .rw⟩
def TIER_POOL_TOTAL_FRAMES : Fld := ⟨.tier, 0x58*8+0, 25, 0, .ro⟩
def TIER_POOL_FREE_FRAMES : Fld := ⟨.tier, 0x58*8+32, 25, 0, .ro⟩
def TIER_POOL_PINNED_FRAMES : Fld := ⟨.tier, 0x60*8+0, 25, 0, .ro⟩
def TIER_FETCH_HOST_CNT_OVF : Fld := ⟨.tier, 0x68*8+63, 1, 0, .w1c⟩
def TIER_FETCH_HOST_CNT : Fld := ⟨.tier, 0x68*8+0, 48, 0, .ro⟩
def TIER_FETCH_PEAT_CNT_OVF : Fld := ⟨.tier, 0x70*8+63, 1, 0, .w1c⟩
def TIER_FETCH_PEAT_CNT : Fld := ⟨.tier, 0x70*8+0, 48, 0, .ro⟩
def TIER_FETCH_ZERO_CNT_OVF : Fld := ⟨.tier, 0x78*8+63, 1, 0, .w1c⟩
def TIER_FETCH_ZERO_CNT : Fld := ⟨.tier, 0x78*8+0, 48, 0, .ro⟩
def TIER_EVICT_CNT_OVF : Fld := ⟨.tier, 0x80*8+63, 1, 0, .w1c⟩
def TIER_EVICT_CNT : Fld := ⟨.tier, 0x80*8+0, 48, 0, .ro⟩
def TIER_WRITEDOWN_CNT_OVF : Fld := ⟨.tier, 0x88*8+63, 1, 0, .w1c⟩
def TIER_WRITEDOWN_CNT : Fld := ⟨.tier, 0x88*8+0, 48, 0, .ro⟩
def TIER_ABANDON_CNT_OVF : Fld := ⟨.tier, 0x90*8+63, 1, 0, .w1c⟩
def TIER_ABANDON_CNT : Fld := ⟨.tier, 0x90*8+0, 48, 0, .ro⟩
def TIER_DOWN_FAIL_CNT_OVF : Fld := ⟨.tier, 0x98*8+63, 1, 0, .w1c⟩
def TIER_DOWN_FAIL_CNT : Fld := ⟨.tier, 0x98*8+0, 48, 0, .ro⟩
def TIER_FAIL_CNT_OVF : Fld := ⟨.tier, 0xa0*8+63, 1, 0, .w1c⟩
def TIER_FAIL_CNT : Fld := ⟨.tier, 0xa0*8+0, 48, 0, .ro⟩
def TIER_TIMEOUT_CNT_OVF : Fld := ⟨.tier, 0xa8*8+63, 1, 0, .w1c⟩
def TIER_TIMEOUT_CNT : Fld := ⟨.tier, 0xa8*8+0, 48, 0, .ro⟩
def TIER_BADTRL_CNT_OVF : Fld := ⟨.tier, 0xb0*8+63, 1, 0, .w1c⟩
def TIER_BADTRL_CNT : Fld := ⟨.tier, 0xb0*8+0, 48, 0, .ro⟩
def TIER_PASS_CNT_OVF : Fld := ⟨.tier, 0xb8*8+63, 1, 0, .w1c⟩
def TIER_PASS_CNT : Fld := ⟨.tier, 0xb8*8+0, 48, 0, .ro⟩
def TIER_UNPLACED_CNT_OVF : Fld := ⟨.tier, 0xc0*8+63, 1, 0, .w1c⟩
def TIER_UNPLACED_CNT : Fld := ⟨.tier, 0xc0*8+0, 48, 0, .ro⟩
def TIER_DOWN_LOST_CNT_OVF : Fld := ⟨.tier, 0xc8*8+63, 1, 0, .w1c⟩
def TIER_DOWN_LOST_CNT : Fld := ⟨.tier, 0xc8*8+0, 48, 0, .ro⟩
def TIER_TENANT_CNT_OVF : Fld := ⟨.tier, 0xd0*8+63, 1, 0, .w1c⟩
def TIER_TENANT_CNT : Fld := ⟨.tier, 0xd0*8+0, 48, 0, .ro⟩
def TIER_NOFRAME_CNT_OVF : Fld := ⟨.tier, 0xd8*8+63, 1, 0, .w1c⟩
def TIER_NOFRAME_CNT : Fld := ⟨.tier, 0xd8*8+0, 48, 0, .ro⟩
def TIER_OLDEST_STAMP : Fld := ⟨.tier, 0xe0*8+0, 52, 0, .ro⟩
def tierAll0 : List Fld :=
  [TIER_CMD_OP, TIER_CMD_INDEX, TIER_CMD_STATUS_DONE, TIER_CMD_STATUS_CODE, TIER_CFG_FREE_LOW_PCT,
   TIER_CFG_FREE_HIGH_PCT, TIER_CFG_TOUCH_GRAIN_US, TIER_TIMEOUT_PEAT_US, TIER_TIMEOUT_HOST_US,
   HIWYN_CFG_HEAT_UP, HIWYN_CFG_HALVE_MS, TIER_HANDOFF_CFG_GUARD_US, TIER_POOL_TOTAL_FRAMES,
   TIER_POOL_FREE_FRAMES, TIER_POOL_PINNED_FRAMES, TIER_FETCH_HOST_CNT_OVF, TIER_FETCH_HOST_CNT,
   TIER_FETCH_PEAT_CNT_OVF, TIER_FETCH_PEAT_CNT, TIER_FETCH_ZERO_CNT_OVF, TIER_FETCH_ZERO_CNT,
   TIER_EVICT_CNT_OVF, TIER_EVICT_CNT, TIER_WRITEDOWN_CNT_OVF, TIER_WRITEDOWN_CNT, TIER_ABANDON_CNT_OVF,
   TIER_ABANDON_CNT, TIER_DOWN_FAIL_CNT_OVF, TIER_DOWN_FAIL_CNT, TIER_FAIL_CNT_OVF, TIER_FAIL_CNT,
   TIER_TIMEOUT_CNT_OVF, TIER_TIMEOUT_CNT, TIER_BADTRL_CNT_OVF, TIER_BADTRL_CNT, TIER_PASS_CNT_OVF,
   TIER_PASS_CNT, TIER_UNPLACED_CNT_OVF, TIER_UNPLACED_CNT, TIER_DOWN_LOST_CNT_OVF, TIER_DOWN_LOST_CNT,
   TIER_TENANT_CNT_OVF, TIER_TENANT_CNT, TIER_NOFRAME_CNT_OVF, TIER_NOFRAME_CNT, TIER_OLDEST_STAMP]

-- peat: registers of 09_peat_flash_tier.md, Table 9.7
def PEAT_CMD_OP : Fld := ⟨.peat, 0x40*8+28, 4, 0, .wo⟩
def PEAT_CMD_ARG0_FIRST_LBN : Fld := ⟨.peat, 0x48*8+0, 34, 0, .rw⟩
def PEAT_CMD_ARG1_COUNT : Fld := ⟨.peat, 0x50*8+0, 34, 0, .rw⟩
def PEAT_CMD_STATUS_DONE : Fld := ⟨.peat, 0x58*8+31, 1, 1, .ro⟩
def PEAT_CMD_STATUS_CODE : Fld := ⟨.peat, 0x58*8+0, 4, 0, .ro⟩
def PEAT_STATE_STATE : Fld := ⟨.peat, 0x60*8+0, 4, 0, .ro⟩
def PEAT_GEOM_DIES : Fld := ⟨.peat, 0x68*8+48, 10, 0, .ro⟩
def PEAT_GEOM_BLOCKS : Fld := ⟨.peat, 0x68*8+32, 14, 0, .ro⟩
def PEAT_GEOM_PAGES : Fld := ⟨.peat, 0x68*8+16, 16, 0, .ro⟩
def PEAT_LOGICAL_BLOCKS_COUNT : Fld := ⟨.peat, 0x70*8+0, 34, 0, .ro⟩
def PEAT_FREE_SB_FREE : Fld := ⟨.peat, 0x78*8+0, 19, 0, .ro⟩
def PEAT_MAP_UNITS_UNITS : Fld := ⟨.peat, 0x78*8+32, 22, 0, .ro⟩
def PEAT_GC_GC_START_PCT : Fld := ⟨.peat, 0x80*8+24, 8, 4, .rw⟩
def PEAT_GC_GC_STOP_PCT : Fld := ⟨.peat, 0x80*8+16, 8, 6, .rw⟩
def PEAT_GC_UPKEEP_MIN_PCT : Fld := ⟨.peat, 0x80*8+8, 8, 0xa, .rw⟩
def PEAT_GC_UPKEEP_MAX_PCT : Fld := ⟨.peat, 0x80*8+0, 8, 0x28, .rw⟩
def PEAT_WL_WL_DELTA : Fld := ⟨.peat, 0x80*8+48, 16, 0xc8, .rw⟩
def PEAT_WL_RATED_PE : Fld := ⟨.peat, 0x80*8+32, 16, 0xbb8, .rw⟩
def PEAT_DISTURB_RD_THRESH : Fld := ⟨.peat, 0x88*8+0, 32, 0x186a0, .rw⟩
def PEAT_RET_RET_PERIOD_D : Fld := ⟨.peat, 0x88*8+58, 6, 7, .rw⟩
def PEAT_RET_RET_MAX_AGE_D : Fld := ⟨.peat, 0x88*8+49, 9, 0x5a, .rw⟩
def PEAT_RET_RET_BITS : Fld := ⟨.peat, 0x88*8+41, 8, 0x48, .rw⟩
def PEAT_TIMING_ROW_CLOSE_US : Fld := ⟨.peat, 0x90*8+16, 16, 0x3e8, .rw⟩
def PEAT_TIMING_SUSPEND_MAX : Fld := ⟨.peat, 0x90*8+8, 8, 4, .rw⟩
def PEAT_TIMING_READ_RETRY_MAX : Fld := ⟨.peat, 0x90*8+0, 8, 8, .rw⟩
def PEAT_CKPT_CKPT_S : Fld := ⟨.peat, 0x90*8+48, 16, 0x3c, .rw⟩
def PEAT_WEAR_MAX_PE : Fld := ⟨.peat, 0x98*8+32, 16, 0, .ro⟩
def PEAT_WEAR_AVG_PE : Fld := ⟨.peat, 0x98*8+16, 16, 0, .ro⟩
def PEAT_WEAR_MIN_PE : Fld := ⟨.peat, 0x98*8+0, 16, 0, .ro⟩
def PEAT_READ_CW_CNT_OVF : Fld := ⟨.peat, 0xa0*8+63, 1, 0, .w1c⟩
def PEAT_READ_CW_CNT : Fld := ⟨.peat, 0xa0*8+0, 48, 0, .ro⟩
def PEAT_SOFT_CNT_OVF : Fld := ⟨.peat, 0xa8*8+63, 1, 0, .w1c⟩
def PEAT_SOFT_CNT : Fld := ⟨.peat, 0xa8*8+0, 48, 0, .ro⟩
def PEAT_PARITY_RECOVER_CNT_OVF : Fld := ⟨.peat, 0xb0*8+63, 1, 0, .w1c⟩
def PEAT_PARITY_RECOVER_CNT : Fld := ⟨.peat, 0xb0*8+0, 48, 0, .ro⟩
def PEAT_READ_FAIL_CNT_OVF : Fld := ⟨.peat, 0xb8*8+63, 1, 0, .w1c⟩
def PEAT_READ_FAIL_CNT : Fld := ⟨.peat, 0xb8*8+0, 48, 0, .ro⟩
def PEAT_PROG_BLK_CNT_OVF : Fld := ⟨.peat, 0xc0*8+63, 1, 0, .w1c⟩
def PEAT_PROG_BLK_CNT : Fld := ⟨.peat, 0xc0*8+0, 48, 0, .ro⟩
def PEAT_RELOC_BLK_CNT_OVF : Fld := ⟨.peat, 0xc8*8+63, 1, 0, .w1c⟩
def PEAT_RELOC_BLK_CNT : Fld := ⟨.peat, 0xc8*8+0, 48, 0, .ro⟩
def PEAT_ERASE_CNT_OVF : Fld := ⟨.peat, 0xd0*8+63, 1, 0, .w1c⟩
def PEAT_ERASE_CNT : Fld := ⟨.peat, 0xd0*8+0, 48, 0, .ro⟩
def PEAT_GROWN_BAD_CNT_OVF : Fld := ⟨.peat, 0xd8*8+63, 1, 0, .w1c⟩
def PEAT_GROWN_BAD_CNT : Fld := ⟨.peat, 0xd8*8+0, 48, 0, .ro⟩
def PEAT_TRIM_CNT_OVF : Fld := ⟨.peat, 0xe0*8+63, 1, 0, .w1c⟩
def PEAT_TRIM_CNT : Fld := ⟨.peat, 0xe0*8+0, 48, 0, .ro⟩
def peatAll0 : List Fld :=
  [PEAT_CMD_OP, PEAT_CMD_ARG0_FIRST_LBN, PEAT_CMD_ARG1_COUNT, PEAT_CMD_STATUS_DONE, PEAT_CMD_STATUS_CODE,
   PEAT_STATE_STATE, PEAT_GEOM_DIES, PEAT_GEOM_BLOCKS, PEAT_GEOM_PAGES, PEAT_LOGICAL_BLOCKS_COUNT,
   PEAT_FREE_SB_FREE, PEAT_MAP_UNITS_UNITS, PEAT_GC_GC_START_PCT, PEAT_GC_GC_STOP_PCT, PEAT_GC_UPKEEP_MIN_PCT,
   PEAT_GC_UPKEEP_MAX_PCT, PEAT_WL_WL_DELTA, PEAT_WL_RATED_PE, PEAT_DISTURB_RD_THRESH, PEAT_RET_RET_PERIOD_D,
   PEAT_RET_RET_MAX_AGE_D, PEAT_RET_RET_BITS, PEAT_TIMING_ROW_CLOSE_US, PEAT_TIMING_SUSPEND_MAX,
   PEAT_TIMING_READ_RETRY_MAX, PEAT_CKPT_CKPT_S, PEAT_WEAR_MAX_PE, PEAT_WEAR_AVG_PE, PEAT_WEAR_MIN_PE,
   PEAT_READ_CW_CNT_OVF, PEAT_READ_CW_CNT, PEAT_SOFT_CNT_OVF, PEAT_SOFT_CNT, PEAT_PARITY_RECOVER_CNT_OVF,
   PEAT_PARITY_RECOVER_CNT, PEAT_READ_FAIL_CNT_OVF, PEAT_READ_FAIL_CNT, PEAT_PROG_BLK_CNT_OVF, PEAT_PROG_BLK_CNT,
   PEAT_RELOC_BLK_CNT_OVF, PEAT_RELOC_BLK_CNT, PEAT_ERASE_CNT_OVF, PEAT_ERASE_CNT, PEAT_GROWN_BAD_CNT_OVF,
   PEAT_GROWN_BAD_CNT, PEAT_TRIM_CNT_OVF, PEAT_TRIM_CNT]

-- pch: registers of 09_peat_flash_tier.md, Table 9.9
def PCH_CTRL_ENABLE : Fld := ⟨.pch, 0x40*8+31, 1, 0, .rw⟩
def PCH_CTRL_DIE_EN : Fld := ⟨.pch, 0x40*8+0, 16, 0, .rw⟩
def PCH_RATE_MTS : Fld := ⟨.pch, 0x40*8+32, 12, 0xe10, .rw⟩
def PCH_STATE_DIE_DEAD : Fld := ⟨.pch, 0x48*8+16, 16, 0, .ro⟩
def PCH_STATE_STATE : Fld := ⟨.pch, 0x48*8+0, 4, 0, .ro⟩
def PCH_SHARE_DEMAND_PCT : Fld := ⟨.pch, 0x48*8+56, 8, 0, .ro⟩
def PCH_SHARE_WRITE_PCT : Fld := ⟨.pch, 0x48*8+48, 8, 0, .ro⟩
def PCH_SHARE_UPKEEP_PCT : Fld := ⟨.pch, 0x48*8+40, 8, 0, .ro⟩
def PCH_SHARE_IDLE_PCT : Fld := ⟨.pch, 0x48*8+32, 8, 0, .ro⟩
def PCH_READ_CNT_OVF : Fld := ⟨.pch, 0x50*8+63, 1, 0, .w1c⟩
def PCH_READ_CNT : Fld := ⟨.pch, 0x50*8+0, 48, 0, .ro⟩
def PCH_PROG_CNT_OVF : Fld := ⟨.pch, 0x58*8+63, 1, 0, .w1c⟩
def PCH_PROG_CNT : Fld := ⟨.pch, 0x58*8+0, 48, 0, .ro⟩
def PCH_ERASE_CNT_OVF : Fld := ⟨.pch, 0x60*8+63, 1, 0, .w1c⟩
def PCH_ERASE_CNT : Fld := ⟨.pch, 0x60*8+0, 48, 0, .ro⟩
def PCH_SUSPEND_CNT_OVF : Fld := ⟨.pch, 0x68*8+63, 1, 0, .w1c⟩
def PCH_SUSPEND_CNT : Fld := ⟨.pch, 0x68*8+0, 48, 0, .ro⟩
def PCH_RETRY_CNT_OVF : Fld := ⟨.pch, 0x70*8+63, 1, 0, .w1c⟩
def PCH_RETRY_CNT : Fld := ⟨.pch, 0x70*8+0, 48, 0, .ro⟩
def PCH_STATUS_FAIL_CNT_OVF : Fld := ⟨.pch, 0x78*8+63, 1, 0, .w1c⟩
def PCH_STATUS_FAIL_CNT : Fld := ⟨.pch, 0x78*8+0, 48, 0, .ro⟩
def pchAll0 : List Fld :=
  [PCH_CTRL_ENABLE, PCH_CTRL_DIE_EN, PCH_RATE_MTS, PCH_STATE_DIE_DEAD, PCH_STATE_STATE, PCH_SHARE_DEMAND_PCT,
   PCH_SHARE_WRITE_PCT, PCH_SHARE_UPKEEP_PCT, PCH_SHARE_IDLE_PCT, PCH_READ_CNT_OVF, PCH_READ_CNT,
   PCH_PROG_CNT_OVF, PCH_PROG_CNT, PCH_ERASE_CNT_OVF, PCH_ERASE_CNT, PCH_SUSPEND_CNT_OVF, PCH_SUSPEND_CNT,
   PCH_RETRY_CNT_OVF, PCH_RETRY_CNT, PCH_STATUS_FAIL_CNT_OVF, PCH_STATUS_FAIL_CNT]

-- qmgr: registers of 10_engine_tiles_sedge_mule_queues.md, Table 10.14
def QMGR_CMD_OP : Fld := ⟨.qmgr, 0x40*8+28, 4, 0, .wo⟩
def QMGR_CMD_QUEUE : Fld := ⟨.qmgr, 0x40*8+0, 20, 0, .wo⟩
def QMGR_CMD_STATUS_DONE : Fld := ⟨.qmgr, 0x40*8+63, 1, 1, .ro⟩
def QMGR_CMD_STATUS_CODE : Fld := ⟨.qmgr, 0x40*8+32, 4, 0, .ro⟩
def QMGR_CFG_AGE_US : Fld := ⟨.qmgr, 0x48*8+16, 16, 0x64, .rw⟩
def QMGR_CFG_QUANTUM : Fld := ⟨.qmgr, 0x48*8+0, 16, 0x40, .rw⟩
def QMGR_DB_BASE_BASE : Fld := ⟨.qmgr, 0x48*8+32, 21, 0x1ff800, .rw⟩
def QMGR_BOUND_THREADS : Fld := ⟨.qmgr, 0x50*8+0, 11, 0, .ro⟩
def QMGR_READY_QUEUES : Fld := ⟨.qmgr, 0x50*8+32, 21, 0, .ro⟩
def QMGR_DESC_CNT_OVF : Fld := ⟨.qmgr, 0x58*8+63, 1, 0, .w1c⟩
def QMGR_DESC_CNT : Fld := ⟨.qmgr, 0x58*8+0, 48, 0, .ro⟩
def QMGR_DB_CNT_OVF : Fld := ⟨.qmgr, 0x60*8+63, 1, 0, .w1c⟩
def QMGR_DB_CNT : Fld := ⟨.qmgr, 0x60*8+0, 48, 0, .ro⟩
def QMGR_DB_BAD_CNT_OVF : Fld := ⟨.qmgr, 0x68*8+63, 1, 0, .w1c⟩
def QMGR_DB_BAD_CNT : Fld := ⟨.qmgr, 0x68*8+0, 48, 0, .ro⟩
def QMGR_DB_TENANT_CNT_OVF : Fld := ⟨.qmgr, 0x70*8+63, 1, 0, .w1c⟩
def QMGR_DB_TENANT_CNT : Fld := ⟨.qmgr, 0x70*8+0, 48, 0, .ro⟩
def QMGR_SIG_FAIL_CNT_OVF : Fld := ⟨.qmgr, 0x78*8+63, 1, 0, .w1c⟩
def QMGR_SIG_FAIL_CNT : Fld := ⟨.qmgr, 0x78*8+0, 48, 0, .ro⟩
def QMGR_QERR_CNT_OVF : Fld := ⟨.qmgr, 0x80*8+63, 1, 0, .w1c⟩
def QMGR_QERR_CNT : Fld := ⟨.qmgr, 0x80*8+0, 48, 0, .ro⟩
def qmgrAll0 : List Fld :=
  [QMGR_CMD_OP, QMGR_CMD_QUEUE, QMGR_CMD_STATUS_DONE, QMGR_CMD_STATUS_CODE, QMGR_CFG_AGE_US, QMGR_CFG_QUANTUM,
   QMGR_DB_BASE_BASE, QMGR_BOUND_THREADS, QMGR_READY_QUEUES, QMGR_DESC_CNT_OVF, QMGR_DESC_CNT, QMGR_DB_CNT_OVF,
   QMGR_DB_CNT, QMGR_DB_BAD_CNT_OVF, QMGR_DB_BAD_CNT, QMGR_DB_TENANT_CNT_OVF, QMGR_DB_TENANT_CNT,
   QMGR_SIG_FAIL_CNT_OVF, QMGR_SIG_FAIL_CNT, QMGR_QERR_CNT_OVF, QMGR_QERR_CNT]

-- tile: registers of 10_engine_tiles_sedge_mule_queues.md, Table 10.15
def TILE_STATE_STATE : Fld := ⟨.tile, 0x40*8+29, 3, 0, .ro⟩
def TILE_STATE_THREADS_BUSY : Fld := ⟨.tile, 0x40*8+0, 16, 0, .ro⟩
def TILE_SNAP_SNAP : Fld := ⟨.tile, 0x48*8+0, 1, 0, .wo⟩
def TILE_STEP_SNAP_STEPS : Fld := ⟨.tile, 0x50*8+0, 48, 0, .ro⟩
def TILE_TIME_SNAP_TIME : Fld := ⟨.tile, 0x58*8+0, 64, 0, .ro⟩
def TILE_STEP_CNT_OVF : Fld := ⟨.tile, 0x60*8+63, 1, 0, .w1c⟩
def TILE_STEP_CNT : Fld := ⟨.tile, 0x60*8+0, 48, 0, .ro⟩
def TILE_BUSY_STEP_CNT_OVF : Fld := ⟨.tile, 0x68*8+63, 1, 0, .w1c⟩
def TILE_BUSY_STEP_CNT : Fld := ⟨.tile, 0x68*8+0, 48, 0, .ro⟩
def TILE_SWITCH_CNT_OVF : Fld := ⟨.tile, 0x70*8+63, 1, 0, .w1c⟩
def TILE_SWITCH_CNT : Fld := ⟨.tile, 0x70*8+0, 48, 0, .ro⟩
def TILE_DESC_CNT_OVF : Fld := ⟨.tile, 0x78*8+63, 1, 0, .w1c⟩
def TILE_DESC_CNT : Fld := ⟨.tile, 0x78*8+0, 48, 0, .ro⟩
def SEDGE_OWN_LO_OWN : Fld := ⟨.tile, 0x80*8+0, 64, 0, .ro⟩
def SEDGE_OWN_HI_OWN : Fld := ⟨.tile, 0x88*8+0, 64, 0, .ro⟩
def SEDGE_OWNER_FAULT_CNT_OVF : Fld := ⟨.tile, 0x90*8+63, 1, 0, .w1c⟩
def SEDGE_OWNER_FAULT_CNT : Fld := ⟨.tile, 0x90*8+0, 48, 0, .ro⟩
def MULE_BANK_WAIT_CNT_OVF : Fld := ⟨.tile, 0x98*8+63, 1, 0, .w1c⟩
def MULE_BANK_WAIT_CNT : Fld := ⟨.tile, 0x98*8+0, 48, 0, .ro⟩
def tileAll0 : List Fld :=
  [TILE_STATE_STATE, TILE_STATE_THREADS_BUSY, TILE_SNAP_SNAP, TILE_STEP_SNAP_STEPS, TILE_TIME_SNAP_TIME,
   TILE_STEP_CNT_OVF, TILE_STEP_CNT, TILE_BUSY_STEP_CNT_OVF, TILE_BUSY_STEP_CNT, TILE_SWITCH_CNT_OVF,
   TILE_SWITCH_CNT, TILE_DESC_CNT_OVF, TILE_DESC_CNT, SEDGE_OWN_LO_OWN, SEDGE_OWN_HI_OWN,
   SEDGE_OWNER_FAULT_CNT_OVF, SEDGE_OWNER_FAULT_CNT, MULE_BANK_WAIT_CNT_OVF, MULE_BANK_WAIT_CNT]

-- cbw: registers of 10_engine_tiles_sedge_mule_queues.md, Table 10.15
def CBW_CFG_EN : Fld := ⟨.cbw, 0x0*8+63, 1, 0, .ro⟩
def CBW_CFG_PRODUCER : Fld := ⟨.cbw, 0x0*8+40, 8, 0, .ro⟩
def CBW_CFG_CONSUMER : Fld := ⟨.cbw, 0x0*8+32, 8, 0, .ro⟩
def CBW_CFG_SIZE_LOG2 : Fld := ⟨.cbw, 0x0*8+27, 5, 0, .ro⟩
def CBW_CFG_BASE : Fld := ⟨.cbw, 0x0*8+6, 15, 0, .ro⟩
def CBW_PTR_PROD : Fld := ⟨.cbw, 0x8*8+32, 32, 0, .ro⟩
def CBW_PTR_CONS : Fld := ⟨.cbw, 0x8*8+0, 32, 0, .ro⟩
def cbwAll0 : List Fld :=
  [CBW_CFG_EN, CBW_CFG_PRODUCER, CBW_CFG_CONSUMER, CBW_CFG_SIZE_LOG2, CBW_CFG_BASE, CBW_PTR_PROD, CBW_PTR_CONS]

-- emb: registers of 12_embedding_gather_update.md, Table 12.12
def EMB_CMD_OP : Fld := ⟨.emb, 0x40*8+28, 4, 0, .wo⟩
def EMB_CMD_SLOT : Fld := ⟨.emb, 0x40*8+12, 1, 0, .wo⟩
def EMB_CMD_TABLE : Fld := ⟨.emb, 0x40*8+0, 12, 0, .wo⟩
def EMB_CMD_STATUS_DONE : Fld := ⟨.emb, 0x40*8+63, 1, 1, .ro⟩
def EMB_CMD_STATUS_CODE : Fld := ⟨.emb, 0x40*8+32, 4, 0, .ro⟩
def EMB_CFG_RETIRE_GRACE_MS : Fld := ⟨.emb, 0x48*8+16, 16, 0x64, .rw⟩
def EMB_XAP_BASE_BASE : Fld := ⟨.emb, 0x48*8+32, 21, 0x1ff7ff, .rw⟩
def EMB_ACTIVE_TABLES : Fld := ⟨.emb, 0x50*8+0, 13, 0, .ro⟩
def EMB_LOOKUP_CNT_OVF : Fld := ⟨.emb, 0x58*8+63, 1, 0, .w1c⟩
def EMB_LOOKUP_CNT : Fld := ⟨.emb, 0x58*8+0, 48, 0, .ro⟩
def EMB_UPDATE_CNT_OVF : Fld := ⟨.emb, 0x60*8+63, 1, 0, .w1c⟩
def EMB_UPDATE_CNT : Fld := ⟨.emb, 0x60*8+0, 48, 0, .ro⟩
def EMB_ROW_LOCAL_CNT_OVF : Fld := ⟨.emb, 0x68*8+63, 1, 0, .w1c⟩
def EMB_ROW_LOCAL_CNT : Fld := ⟨.emb, 0x68*8+0, 48, 0, .ro⟩
def EMB_ROW_REMOTE_CNT_OVF : Fld := ⟨.emb, 0x70*8+63, 1, 0, .w1c⟩
def EMB_ROW_REMOTE_CNT : Fld := ⟨.emb, 0x70*8+0, 48, 0, .ro⟩
def EMB_ROW_SERVED_CNT_OVF : Fld := ⟨.emb, 0x78*8+63, 1, 0, .w1c⟩
def EMB_ROW_SERVED_CNT : Fld := ⟨.emb, 0x78*8+0, 48, 0, .ro⟩
def EMB_DROP_CNT_OVF : Fld := ⟨.emb, 0x80*8+63, 1, 0, .w1c⟩
def EMB_DROP_CNT : Fld := ⟨.emb, 0x80*8+0, 48, 0, .ro⟩
def EMB_COAL_SAVED_CNT_OVF : Fld := ⟨.emb, 0x88*8+63, 1, 0, .w1c⟩
def EMB_COAL_SAVED_CNT : Fld := ⟨.emb, 0x88*8+0, 48, 0, .ro⟩
def EMB_COAL_PASS_CNT_OVF : Fld := ⟨.emb, 0x90*8+63, 1, 0, .w1c⟩
def EMB_COAL_PASS_CNT : Fld := ⟨.emb, 0x90*8+0, 48, 0, .ro⟩
def EMB_VERSION_MISS_CNT_OVF : Fld := ⟨.emb, 0x98*8+63, 1, 0, .w1c⟩
def EMB_VERSION_MISS_CNT : Fld := ⟨.emb, 0x98*8+0, 48, 0, .ro⟩
def EMB_RETIRE_CNT_OVF : Fld := ⟨.emb, 0xa0*8+63, 1, 0, .w1c⟩
def EMB_RETIRE_CNT : Fld := ⟨.emb, 0xa0*8+0, 48, 0, .ro⟩
def EMB_XCHG_TIMEOUT_CNT_OVF : Fld := ⟨.emb, 0xa8*8+63, 1, 0, .w1c⟩
def EMB_XCHG_TIMEOUT_CNT : Fld := ⟨.emb, 0xa8*8+0, 48, 0, .ro⟩
def EMB_XCHG_BAD_CNT_OVF : Fld := ⟨.emb, 0xb0*8+63, 1, 0, .w1c⟩
def EMB_XCHG_BAD_CNT : Fld := ⟨.emb, 0xb0*8+0, 48, 0, .ro⟩
def embAll0 : List Fld :=
  [EMB_CMD_OP, EMB_CMD_SLOT, EMB_CMD_TABLE, EMB_CMD_STATUS_DONE, EMB_CMD_STATUS_CODE, EMB_CFG_RETIRE_GRACE_MS,
   EMB_XAP_BASE_BASE, EMB_ACTIVE_TABLES, EMB_LOOKUP_CNT_OVF, EMB_LOOKUP_CNT, EMB_UPDATE_CNT_OVF, EMB_UPDATE_CNT,
   EMB_ROW_LOCAL_CNT_OVF, EMB_ROW_LOCAL_CNT, EMB_ROW_REMOTE_CNT_OVF, EMB_ROW_REMOTE_CNT, EMB_ROW_SERVED_CNT_OVF,
   EMB_ROW_SERVED_CNT, EMB_DROP_CNT_OVF, EMB_DROP_CNT, EMB_COAL_SAVED_CNT_OVF, EMB_COAL_SAVED_CNT,
   EMB_COAL_PASS_CNT_OVF, EMB_COAL_PASS_CNT, EMB_VERSION_MISS_CNT_OVF, EMB_VERSION_MISS_CNT, EMB_RETIRE_CNT_OVF,
   EMB_RETIRE_CNT, EMB_XCHG_TIMEOUT_CNT_OVF, EMB_XCHG_TIMEOUT_CNT, EMB_XCHG_BAD_CNT_OVF, EMB_XCHG_BAD_CNT]

-- vse: registers of 13_vector_search_filters.md, Table 13.15
def VSE_CMD_OP : Fld := ⟨.vse, 0x40*8+28, 4, 0, .wo⟩
def VSE_CMD_INDEX : Fld := ⟨.vse, 0x40*8+0, 8, 0, .wo⟩
def VSE_CMD_STATUS_DONE : Fld := ⟨.vse, 0x40*8+63, 1, 1, .ro⟩
def VSE_CMD_STATUS_CODE : Fld := ⟨.vse, 0x40*8+32, 4, 0, .ro⟩
def VSE_CFG_RETIRE_GRACE_MS : Fld := ⟨.vse, 0x48*8+16, 16, 0x64, .rw⟩
def VSE_CFG_COMMIT_WAIT_US : Fld := ⟨.vse, 0x48*8+0, 16, 0x3e8, .rw⟩
def VSE_XAP_BASE_BASE : Fld := ⟨.vse, 0x48*8+32, 21, 0x1ff7fe, .rw⟩
def VSE_ACTIVE_INDEXES : Fld := ⟨.vse, 0x50*8+0, 9, 0, .ro⟩
def VSE_QUERY_CNT_OVF : Fld := ⟨.vse, 0x58*8+63, 1, 0, .w1c⟩
def VSE_QUERY_CNT : Fld := ⟨.vse, 0x58*8+0, 48, 0, .ro⟩
def VSE_SHORT_CNT_OVF : Fld := ⟨.vse, 0x60*8+63, 1, 0, .w1c⟩
def VSE_SHORT_CNT : Fld := ⟨.vse, 0x60*8+0, 48, 0, .ro⟩
def VSE_WIDEN_CNT_OVF : Fld := ⟨.vse, 0x68*8+63, 1, 0, .w1c⟩
def VSE_WIDEN_CNT : Fld := ⟨.vse, 0x68*8+0, 48, 0, .ro⟩
def VSE_SCANNED_CNT_OVF : Fld := ⟨.vse, 0x70*8+63, 1, 0, .w1c⟩
def VSE_SCANNED_CNT : Fld := ⟨.vse, 0x70*8+0, 48, 0, .ro⟩
def VSE_PASSING_CNT_OVF : Fld := ⟨.vse, 0x78*8+63, 1, 0, .w1c⟩
def VSE_PASSING_CNT : Fld := ⟨.vse, 0x78*8+0, 48, 0, .ro⟩
def VSE_RERANK_CNT_OVF : Fld := ⟨.vse, 0x80*8+63, 1, 0, .w1c⟩
def VSE_RERANK_CNT : Fld := ⟨.vse, 0x80*8+0, 48, 0, .ro⟩
def VSE_MUTATE_CNT_OVF : Fld := ⟨.vse, 0x88*8+63, 1, 0, .w1c⟩
def VSE_MUTATE_CNT : Fld := ⟨.vse, 0x88*8+0, 48, 0, .ro⟩
def VSE_MUT_DROP_CNT_OVF : Fld := ⟨.vse, 0x90*8+63, 1, 0, .w1c⟩
def VSE_MUT_DROP_CNT : Fld := ⟨.vse, 0x90*8+0, 48, 0, .ro⟩
def VSE_COMMIT_TIMEOUT_CNT_OVF : Fld := ⟨.vse, 0x98*8+63, 1, 0, .w1c⟩
def VSE_COMMIT_TIMEOUT_CNT : Fld := ⟨.vse, 0x98*8+0, 48, 0, .ro⟩
def VSE_MERGE_CNT_OVF : Fld := ⟨.vse, 0xa0*8+63, 1, 0, .w1c⟩
def VSE_MERGE_CNT : Fld := ⟨.vse, 0xa0*8+0, 48, 0, .ro⟩
def VSE_TOMB_PASS_CNT_OVF : Fld := ⟨.vse, 0xa8*8+63, 1, 0, .w1c⟩
def VSE_TOMB_PASS_CNT : Fld := ⟨.vse, 0xa8*8+0, 48, 0, .ro⟩
def VSE_VERSION_MISS_CNT_OVF : Fld := ⟨.vse, 0xb0*8+63, 1, 0, .w1c⟩
def VSE_VERSION_MISS_CNT : Fld := ⟨.vse, 0xb0*8+0, 48, 0, .ro⟩
def VSE_RETIRE_CNT_OVF : Fld := ⟨.vse, 0xb8*8+63, 1, 0, .w1c⟩
def VSE_RETIRE_CNT : Fld := ⟨.vse, 0xb8*8+0, 48, 0, .ro⟩
def VSE_XCHG_TIMEOUT_CNT_OVF : Fld := ⟨.vse, 0xc0*8+63, 1, 0, .w1c⟩
def VSE_XCHG_TIMEOUT_CNT : Fld := ⟨.vse, 0xc0*8+0, 48, 0, .ro⟩
def VSE_XCHG_BAD_CNT_OVF : Fld := ⟨.vse, 0xc8*8+63, 1, 0, .w1c⟩
def VSE_XCHG_BAD_CNT : Fld := ⟨.vse, 0xc8*8+0, 48, 0, .ro⟩
def vseAll0 : List Fld :=
  [VSE_CMD_OP, VSE_CMD_INDEX, VSE_CMD_STATUS_DONE, VSE_CMD_STATUS_CODE, VSE_CFG_RETIRE_GRACE_MS,
   VSE_CFG_COMMIT_WAIT_US, VSE_XAP_BASE_BASE, VSE_ACTIVE_INDEXES, VSE_QUERY_CNT_OVF, VSE_QUERY_CNT,
   VSE_SHORT_CNT_OVF, VSE_SHORT_CNT, VSE_WIDEN_CNT_OVF, VSE_WIDEN_CNT, VSE_SCANNED_CNT_OVF, VSE_SCANNED_CNT,
   VSE_PASSING_CNT_OVF, VSE_PASSING_CNT, VSE_RERANK_CNT_OVF, VSE_RERANK_CNT, VSE_MUTATE_CNT_OVF, VSE_MUTATE_CNT,
   VSE_MUT_DROP_CNT_OVF, VSE_MUT_DROP_CNT, VSE_COMMIT_TIMEOUT_CNT_OVF, VSE_COMMIT_TIMEOUT_CNT, VSE_MERGE_CNT_OVF,
   VSE_MERGE_CNT, VSE_TOMB_PASS_CNT_OVF, VSE_TOMB_PASS_CNT, VSE_VERSION_MISS_CNT_OVF, VSE_VERSION_MISS_CNT,
   VSE_RETIRE_CNT_OVF, VSE_RETIRE_CNT, VSE_XCHG_TIMEOUT_CNT_OVF, VSE_XCHG_TIMEOUT_CNT, VSE_XCHG_BAD_CNT_OVF,
   VSE_XCHG_BAD_CNT]

-- wst: registers of 14_weight_streaming.md, Table 14.5
def WST_CFG_TOTAL_GBPS : Fld := ⟨.wst, 0x40*8+16, 16, 0, .rw⟩
def WST_CFG_RESEND_MAX : Fld := ⟨.wst, 0x40*8+12, 4, 2, .rw⟩
def WST_ACTIVE_STREAMS : Fld := ⟨.wst, 0x40*8+32, 11, 0, .ro⟩
def WST_CHUNK_CNT_OVF : Fld := ⟨.wst, 0x48*8+63, 1, 0, .w1c⟩
def WST_CHUNK_CNT : Fld := ⟨.wst, 0x48*8+0, 48, 0, .ro⟩
def WST_LINE_CNT_OVF : Fld := ⟨.wst, 0x50*8+63, 1, 0, .w1c⟩
def WST_LINE_CNT : Fld := ⟨.wst, 0x50*8+0, 48, 0, .ro⟩
def WST_DELIVERED_CNT_OVF : Fld := ⟨.wst, 0x58*8+63, 1, 0, .w1c⟩
def WST_DELIVERED_CNT : Fld := ⟨.wst, 0x58*8+0, 48, 0, .ro⟩
def WST_RESEND_CNT_OVF : Fld := ⟨.wst, 0x60*8+63, 1, 0, .w1c⟩
def WST_RESEND_CNT : Fld := ⟨.wst, 0x60*8+0, 48, 0, .ro⟩
def WST_MEMBER_ERR_CNT_OVF : Fld := ⟨.wst, 0x68*8+63, 1, 0, .w1c⟩
def WST_MEMBER_ERR_CNT : Fld := ⟨.wst, 0x68*8+0, 48, 0, .ro⟩
def WST_SLOT_WAIT_CNT_OVF : Fld := ⟨.wst, 0x70*8+63, 1, 0, .w1c⟩
def WST_SLOT_WAIT_CNT : Fld := ⟨.wst, 0x70*8+0, 48, 0, .ro⟩
def WST_FAIL_CNT_OVF : Fld := ⟨.wst, 0x78*8+63, 1, 0, .w1c⟩
def WST_FAIL_CNT : Fld := ⟨.wst, 0x78*8+0, 48, 0, .ro⟩
def wstAll0 : List Fld :=
  [WST_CFG_TOTAL_GBPS, WST_CFG_RESEND_MAX, WST_ACTIVE_STREAMS, WST_CHUNK_CNT_OVF, WST_CHUNK_CNT,
   WST_LINE_CNT_OVF, WST_LINE_CNT, WST_DELIVERED_CNT_OVF, WST_DELIVERED_CNT, WST_RESEND_CNT_OVF, WST_RESEND_CNT,
   WST_MEMBER_ERR_CNT_OVF, WST_MEMBER_ERR_CNT, WST_SLOT_WAIT_CNT_OVF, WST_SLOT_WAIT_CNT, WST_FAIL_CNT_OVF,
   WST_FAIL_CNT]

-- pcie: registers of 15_host_pcie_interface.md, Table 15.5
def PCIE_HOST_NODE : Fld := ⟨.pcie, 0x40*8+0, 16, 0, .rw⟩
def PCIE_CTRL_ERR_VEC : Fld := ⟨.pcie, 0x40*8+32, 11, 0, .rw⟩
def PCIE_LINK_WIDTH : Fld := ⟨.pcie, 0x48*8+4, 5, 0, .ro⟩
def PCIE_LINK_SPEED : Fld := ⟨.pcie, 0x48*8+0, 4, 0, .ro⟩
def PCIE_BAR4_ERR_FIRST_FUNC : Fld := ⟨.pcie, 0x50*8+57, 7, 0, .ro⟩
def PCIE_BAR4_ERR_FIRST_STATUS : Fld := ⟨.pcie, 0x50*8+48, 6, 0, .ro⟩
def PCIE_BAR4_ERR_FIRST_OFFSET : Fld := ⟨.pcie, 0x50*8+0, 36, 0, .ro⟩
def PCIE_BAR4_RD_CNT_OVF : Fld := ⟨.pcie, 0x58*8+63, 1, 0, .w1c⟩
def PCIE_BAR4_RD_CNT : Fld := ⟨.pcie, 0x58*8+0, 48, 0, .ro⟩
def PCIE_BAR4_WR_CNT_OVF : Fld := ⟨.pcie, 0x60*8+63, 1, 0, .w1c⟩
def PCIE_BAR4_WR_CNT : Fld := ⟨.pcie, 0x60*8+0, 48, 0, .ro⟩
def PCIE_BAR4_ATOMIC_CNT_OVF : Fld := ⟨.pcie, 0x68*8+63, 1, 0, .w1c⟩
def PCIE_BAR4_ATOMIC_CNT : Fld := ⟨.pcie, 0x68*8+0, 48, 0, .ro⟩
def PCIE_BAR4_ERR_CNT_OVF : Fld := ⟨.pcie, 0x70*8+63, 1, 0, .w1c⟩
def PCIE_BAR4_ERR_CNT : Fld := ⟨.pcie, 0x70*8+0, 48, 0, .ro⟩
def PCIE_DB_DISCARD_CNT_OVF : Fld := ⟨.pcie, 0x78*8+63, 1, 0, .w1c⟩
def PCIE_DB_DISCARD_CNT : Fld := ⟨.pcie, 0x78*8+0, 48, 0, .ro⟩
def PCIE_INT_DROP_CNT_OVF : Fld := ⟨.pcie, 0x80*8+63, 1, 0, .w1c⟩
def PCIE_INT_DROP_CNT : Fld := ⟨.pcie, 0x80*8+0, 48, 0, .ro⟩
def PCIE_TIER_RD_CNT_OVF : Fld := ⟨.pcie, 0x88*8+63, 1, 0, .w1c⟩
def PCIE_TIER_RD_CNT : Fld := ⟨.pcie, 0x88*8+0, 48, 0, .ro⟩
def PCIE_TIER_ERR_CNT_OVF : Fld := ⟨.pcie, 0x90*8+63, 1, 0, .w1c⟩
def PCIE_TIER_ERR_CNT : Fld := ⟨.pcie, 0x90*8+0, 48, 0, .ro⟩
def PCIE_LINK_DOWN_CNT_OVF : Fld := ⟨.pcie, 0x98*8+63, 1, 0, .w1c⟩
def PCIE_LINK_DOWN_CNT : Fld := ⟨.pcie, 0x98*8+0, 48, 0, .ro⟩
def PCIE_FLR_CNT_OVF : Fld := ⟨.pcie, 0xa0*8+63, 1, 0, .w1c⟩
def PCIE_FLR_CNT : Fld := ⟨.pcie, 0xa0*8+0, 48, 0, .ro⟩
def pcieAll0 : List Fld :=
  [PCIE_HOST_NODE, PCIE_CTRL_ERR_VEC, PCIE_LINK_WIDTH, PCIE_LINK_SPEED, PCIE_BAR4_ERR_FIRST_FUNC,
   PCIE_BAR4_ERR_FIRST_STATUS, PCIE_BAR4_ERR_FIRST_OFFSET, PCIE_BAR4_RD_CNT_OVF, PCIE_BAR4_RD_CNT,
   PCIE_BAR4_WR_CNT_OVF, PCIE_BAR4_WR_CNT, PCIE_BAR4_ATOMIC_CNT_OVF, PCIE_BAR4_ATOMIC_CNT, PCIE_BAR4_ERR_CNT_OVF,
   PCIE_BAR4_ERR_CNT, PCIE_DB_DISCARD_CNT_OVF, PCIE_DB_DISCARD_CNT, PCIE_INT_DROP_CNT_OVF, PCIE_INT_DROP_CNT,
   PCIE_TIER_RD_CNT_OVF, PCIE_TIER_RD_CNT, PCIE_TIER_ERR_CNT_OVF, PCIE_TIER_ERR_CNT, PCIE_LINK_DOWN_CNT_OVF,
   PCIE_LINK_DOWN_CNT, PCIE_FLR_CNT_OVF, PCIE_FLR_CNT]

-- glb: registers of 16_reset_boot_power_states.md, Table 16.13
def GLB_RST_CMD_OP : Fld := ⟨.glb, 0x100*8+28, 4, 0, .wo⟩
def GLB_RST_CMD_LEVEL : Fld := ⟨.glb, 0x100*8+26, 2, 0, .wo⟩
def GLB_RST_CMD_KEY : Fld := ⟨.glb, 0x100*8+16, 8, 0, .wo⟩
def GLB_RST_CMD_TENANT : Fld := ⟨.glb, 0x100*8+0, 12, 0, .wo⟩
def GLB_RST_STATUS_DONE : Fld := ⟨.glb, 0x100*8+63, 1, 1, .ro⟩
def GLB_RST_STATUS_CODE : Fld := ⟨.glb, 0x100*8+32, 4, 0, .ro⟩
def GLB_RESET_MAP_FUSE_LIMIT : Fld := ⟨.glb, 0x108*8+16, 3, 0, .ro⟩
def GLB_RESET_MAP_FUSE_MAP : Fld := ⟨.glb, 0x108*8+0, 16, 0, .ro⟩
def GLB_RESET_MAP_SW_MAP : Fld := ⟨.glb, 0x108*8+32, 16, 0xaaaa, .rw⟩
def GLB_RESET_MAP_EFF_MAP : Fld := ⟨.glb, 0x110*8+0, 16, 0, .ro⟩
def GLB_LAST_RESET_SOURCE : Fld := ⟨.glb, 0x118*8+28, 4, 0, .ro⟩
def GLB_LAST_RESET_LEVEL : Fld := ⟨.glb, 0x118*8+26, 2, 0, .ro⟩
def GLB_LAST_RESET_TIME_TIME : Fld := ⟨.glb, 0x120*8+0, 64, 0, .ro⟩
def GLB_BOOT_STATUS_RECOVERY : Fld := ⟨.glb, 0x128*8+31, 1, 0, .ro⟩
def GLB_BOOT_STATUS_CFG_SLOT : Fld := ⟨.glb, 0x128*8+30, 1, 0, .ro⟩
def GLB_BOOT_STATUS_FW_SLOT : Fld := ⟨.glb, 0x128*8+29, 1, 0, .ro⟩
def GLB_BOOT_STATUS_STAGE : Fld := ⟨.glb, 0x128*8+20, 4, 0, .ro⟩
def GLB_BOOT_STATUS_FAIL_CODE : Fld := ⟨.glb, 0x128*8+16, 4, 0, .ro⟩
def GLB_BOOT_STATUS_CFG_SKIPPED : Fld := ⟨.glb, 0x128*8+0, 16, 0, .ro⟩
def GLB_FAILED_START_LIMIT : Fld := ⟨.glb, 0x128*8+36, 3, 0, .ro⟩
def GLB_FAILED_START_COUNT : Fld := ⟨.glb, 0x128*8+32, 4, 0, .ro⟩
def GLB_WDOG_PERIOD_MS : Fld := ⟨.glb, 0x130*8+16, 16, 0x3e8, .ro⟩
def GLB_ESCALATE_EN : Fld := ⟨.glb, 0x130*8+63, 1, 0, .rw⟩
def GLB_ESCALATE_HOLD_MS : Fld := ⟨.glb, 0x130*8+32, 16, 0x64, .rw⟩
def GLB_PIN_EN_GROUPS : Fld := ⟨.glb, 0x138*8+0, 6, 0, .ro⟩
def GLB_NOR_CMD_OP : Fld := ⟨.glb, 0x140*8+28, 4, 0, .wo⟩
def GLB_NOR_CMD_SLOT : Fld := ⟨.glb, 0x140*8+0, 1, 0, .wo⟩
def GLB_NOR_ARG_LEN : Fld := ⟨.glb, 0x148*8+32, 17, 0, .rw⟩
def GLB_NOR_ARG_NOR_OFF : Fld := ⟨.glb, 0x148*8+0, 32, 0, .rw⟩
def GLB_NOR_STATUS_DONE : Fld := ⟨.glb, 0x150*8+31, 1, 1, .ro⟩
def GLB_NOR_STATUS_CODE : Fld := ⟨.glb, 0x150*8+0, 4, 0, .ro⟩
def GLB_SVN_RUN_SVN : Fld := ⟨.glb, 0x158*8+8, 8, 0, .ro⟩
def GLB_SVN_FUSE_SVN : Fld := ⟨.glb, 0x158*8+0, 8, 0, .ro⟩
def GLB_PART_ID_DEVICE : Fld := ⟨.glb, 0x40*8+16, 16, 0x1152, .ro⟩
def GLB_PART_ID_STEPPING : Fld := ⟨.glb, 0x40*8+8, 8, 0xb0, .ro⟩
def GLB_NODE_ID_NODE : Fld := ⟨.glb, 0x40*8+32, 16, 0, .rw⟩
def GLB_CAP_TILES : Fld := ⟨.glb, 0x48*8+24, 8, 0x60, .ro⟩
def GLB_CAP_PORTS : Fld := ⟨.glb, 0x48*8+19, 5, 0x18, .ro⟩
def GLB_CAP_STACKS : Fld := ⟨.glb, 0x48*8+15, 4, 0xc, .ro⟩
def GLB_CAP_NAND_CH : Fld := ⟨.glb, 0x48*8+9, 6, 0x20, .ro⟩
def GLB_FW_VERSION_VERSION : Fld := ⟨.glb, 0x50*8+0, 64, 0, .ro⟩
def GLB_INT_NEXT_PAGE : Fld := ⟨.glb, 0x58*8+0, 14, 0x3fff, .ro⟩
def GLB_FATAL_NEXT_PAGE : Fld := ⟨.glb, 0x58*8+32, 14, 0x3fff, .ro⟩
def GLB_FMW_BASE_BASE : Fld := ⟨.glb, 0x60*8+0, 21, 0x1ff7fd, .rw⟩
def GLB_MGMT_MAC_MAC : Fld := ⟨.glb, 0x68*8+0, 48, 0, .rw⟩
def GLB_MGMT_IP_IP : Fld := ⟨.glb, 0x70*8+0, 32, 0xa9fe0001, .rw⟩
def GLB_MGMT_UDP_PORT : Fld := ⟨.glb, 0x70*8+32, 16, 0x4b52, .rw⟩
def GLB_ABSENT_CNT_OVF : Fld := ⟨.glb, 0x78*8+63, 1, 0, .w1c⟩
def GLB_ABSENT_CNT : Fld := ⟨.glb, 0x78*8+0, 48, 0, .ro⟩
def GLB_MGMT_REQ_CNT_OVF : Fld := ⟨.glb, 0x80*8+63, 1, 0, .w1c⟩
def GLB_MGMT_REQ_CNT : Fld := ⟨.glb, 0x80*8+0, 48, 0, .ro⟩
def GLB_MGMT_BAD_CNT_OVF : Fld := ⟨.glb, 0x88*8+63, 1, 0, .w1c⟩
def GLB_MGMT_BAD_CNT : Fld := ⟨.glb, 0x88*8+0, 48, 0, .ro⟩
def GLB_FMW_REQ_CNT_OVF : Fld := ⟨.glb, 0x90*8+63, 1, 0, .w1c⟩
def GLB_FMW_REQ_CNT : Fld := ⟨.glb, 0x90*8+0, 48, 0, .ro⟩
def glbAll0 : List Fld :=
  [GLB_RST_CMD_OP, GLB_RST_CMD_LEVEL, GLB_RST_CMD_KEY, GLB_RST_CMD_TENANT, GLB_RST_STATUS_DONE,
   GLB_RST_STATUS_CODE, GLB_RESET_MAP_FUSE_LIMIT, GLB_RESET_MAP_FUSE_MAP, GLB_RESET_MAP_SW_MAP,
   GLB_RESET_MAP_EFF_MAP, GLB_LAST_RESET_SOURCE, GLB_LAST_RESET_LEVEL, GLB_LAST_RESET_TIME_TIME,
   GLB_BOOT_STATUS_RECOVERY, GLB_BOOT_STATUS_CFG_SLOT, GLB_BOOT_STATUS_FW_SLOT, GLB_BOOT_STATUS_STAGE,
   GLB_BOOT_STATUS_FAIL_CODE, GLB_BOOT_STATUS_CFG_SKIPPED, GLB_FAILED_START_LIMIT, GLB_FAILED_START_COUNT,
   GLB_WDOG_PERIOD_MS, GLB_ESCALATE_EN, GLB_ESCALATE_HOLD_MS, GLB_PIN_EN_GROUPS, GLB_NOR_CMD_OP,
   GLB_NOR_CMD_SLOT, GLB_NOR_ARG_LEN, GLB_NOR_ARG_NOR_OFF, GLB_NOR_STATUS_DONE, GLB_NOR_STATUS_CODE,
   GLB_SVN_RUN_SVN, GLB_SVN_FUSE_SVN, GLB_PART_ID_DEVICE, GLB_PART_ID_STEPPING, GLB_NODE_ID_NODE, GLB_CAP_TILES,
   GLB_CAP_PORTS, GLB_CAP_STACKS, GLB_CAP_NAND_CH, GLB_FW_VERSION_VERSION, GLB_INT_NEXT_PAGE,
   GLB_FATAL_NEXT_PAGE, GLB_FMW_BASE_BASE, GLB_MGMT_MAC_MAC, GLB_MGMT_IP_IP, GLB_MGMT_UDP_PORT,
   GLB_ABSENT_CNT_OVF, GLB_ABSENT_CNT, GLB_MGMT_REQ_CNT_OVF, GLB_MGMT_REQ_CNT, GLB_MGMT_BAD_CNT_OVF,
   GLB_MGMT_BAD_CNT, GLB_FMW_REQ_CNT_OVF, GLB_FMW_REQ_CNT]

-- pwr: registers of 16_reset_boot_power_states.md, Table 16.14
def PWR_STATE_STATE : Fld := ⟨.pwr, 0x40*8+30, 2, 2, .ro⟩
def PWR_STATE_TILES_GATED : Fld := ⟨.pwr, 0x40*8+0, 7, 0, .ro⟩
def PWR_CFG_RUN_STATE : Fld := ⟨.pwr, 0x40*8+62, 2, 2, .rw⟩
def PWR_CFG_GATE_IDLE_US : Fld := ⟨.pwr, 0x40*8+32, 16, 0x32, .rw⟩
def PWR_CMD_OP : Fld := ⟨.pwr, 0x48*8+28, 4, 0, .wo⟩
def PWR_CMD_STATUS_DONE : Fld := ⟨.pwr, 0x48*8+63, 1, 1, .ro⟩
def PWR_CMD_STATUS_CODE : Fld := ⟨.pwr, 0x48*8+32, 4, 0, .ro⟩
def PWR_TILE_FORCE_LO_MASK : Fld := ⟨.pwr, 0x50*8+0, 64, 0, .rw⟩
def PWR_TILE_FORCE_HI_MASK : Fld := ⟨.pwr, 0x58*8+0, 32, 0, .rw⟩
def PWR_VCORE_TARGET_MV : Fld := ⟨.pwr, 0x60*8+22, 10, 0x2ee, .rw⟩
def PWR_VCORE_STEP_MV : Fld := ⟨.pwr, 0x60*8+17, 5, 0xa, .rw⟩
def PWR_VCORE_VMIN_MV : Fld := ⟨.pwr, 0x60*8+7, 10, 0x28a, .rw⟩
def PWR_VCORE_STATUS_VCORE_MV : Fld := ⟨.pwr, 0x60*8+54, 10, 0, .ro⟩
def PWR_VCORE_STATUS_CURRENT_A : Fld := ⟨.pwr, 0x60*8+32, 12, 0, .ro⟩
def PWR_CAP_CORE_CAP_W : Fld := ⟨.pwr, 0x68*8+20, 12, 0, .rw⟩
def PWR_CAP_HYST_W : Fld := ⟨.pwr, 0x68*8+12, 8, 0x14, .rw⟩
def PWR_THERM_TJ_C : Fld := ⟨.pwr, 0x68*8+56, 8, 0, .ro⟩
def PWR_THERM_WARN_C : Fld := ⟨.pwr, 0x68*8+48, 8, 0x64, .rw⟩
def PWR_THERM_TRIP_C : Fld := ⟨.pwr, 0x68*8+40, 8, 0x73, .ro⟩
def PWR_WAKE_TIME_SECONDS : Fld := ⟨.pwr, 0x70*8+0, 64, 0, .rw⟩
def PWR_GATE_CNT_OVF : Fld := ⟨.pwr, 0x78*8+63, 1, 0, .w1c⟩
def PWR_GATE_CNT : Fld := ⟨.pwr, 0x78*8+0, 48, 0, .ro⟩
def PWR_CAP_ACT_CNT_OVF : Fld := ⟨.pwr, 0x80*8+63, 1, 0, .w1c⟩
def PWR_CAP_ACT_CNT : Fld := ⟨.pwr, 0x80*8+0, 48, 0, .ro⟩
def PWR_WARN_CNT_OVF : Fld := ⟨.pwr, 0x88*8+63, 1, 0, .w1c⟩
def PWR_WARN_CNT : Fld := ⟨.pwr, 0x88*8+0, 48, 0, .ro⟩
def pwrAll0 : List Fld :=
  [PWR_STATE_STATE, PWR_STATE_TILES_GATED, PWR_CFG_RUN_STATE, PWR_CFG_GATE_IDLE_US, PWR_CMD_OP,
   PWR_CMD_STATUS_DONE, PWR_CMD_STATUS_CODE, PWR_TILE_FORCE_LO_MASK, PWR_TILE_FORCE_HI_MASK, PWR_VCORE_TARGET_MV,
   PWR_VCORE_STEP_MV, PWR_VCORE_VMIN_MV, PWR_VCORE_STATUS_VCORE_MV, PWR_VCORE_STATUS_CURRENT_A,
   PWR_CAP_CORE_CAP_W, PWR_CAP_HYST_W, PWR_THERM_TJ_C, PWR_THERM_WARN_C, PWR_THERM_TRIP_C, PWR_WAKE_TIME_SECONDS,
   PWR_GATE_CNT_OVF, PWR_GATE_CNT, PWR_CAP_ACT_CNT_OVF, PWR_CAP_ACT_CNT, PWR_WARN_CNT_OVF, PWR_WARN_CNT]

-- sec: registers of 17_security_debug_matrix.md, Table 17.9
def SEC_LC_LC : Fld := ⟨.sec, 0x40*8+30, 2, 0, .ro⟩
def SEC_LC_OWNER_SET : Fld := ⟨.sec, 0x40*8+29, 1, 0, .ro⟩
def SEC_LC_DBG_KEY_SET : Fld := ⟨.sec, 0x40*8+28, 1, 0, .ro⟩
def SEC_CMD_OP : Fld := ⟨.sec, 0x40*8+60, 4, 0, .wo⟩
def SEC_CMD_KEY : Fld := ⟨.sec, 0x40*8+48, 8, 0, .wo⟩
def SEC_CMD_STATUS_DONE : Fld := ⟨.sec, 0x48*8+31, 1, 1, .ro⟩
def SEC_CMD_STATUS_CODE : Fld := ⟨.sec, 0x48*8+0, 4, 0, .ro⟩
def SEC_SERIAL_SERIAL : Fld := ⟨.sec, 0x50*8+0, 64, 0, .ro⟩
def SEC_IANA_IANA : Fld := ⟨.sec, 0x58*8+0, 32, 0, .ro⟩
def SEC_FM_EN : Fld := ⟨.sec, 0x58*8+63, 1, 0, .rw⟩
def SEC_FM_NODE : Fld := ⟨.sec, 0x58*8+32, 16, 0, .rw⟩
def SEC_KEY_GEN_GEN : Fld := ⟨.sec, 0x60*8+0, 32, 0, .rw⟩
def SEC_OTS_NEXT : Fld := ⟨.sec, 0x68*8+0, 41, 0, .ro⟩
def SEC_LOAD_DENIED_CNT_OVF : Fld := ⟨.sec, 0x70*8+63, 1, 0, .w1c⟩
def SEC_LOAD_DENIED_CNT : Fld := ⟨.sec, 0x70*8+0, 48, 0, .ro⟩
def SEC_ATTEST_CNT_OVF : Fld := ⟨.sec, 0x78*8+63, 1, 0, .w1c⟩
def SEC_ATTEST_CNT : Fld := ⟨.sec, 0x78*8+0, 48, 0, .ro⟩
def SEC_KEY_STAGE_WRAPPED : Fld := ⟨.sec, 0x100*8+0, 576, 0, .wo⟩
def SEC_OWNER_STAGE_SEED : Fld := ⟨.sec, 0x180*8+0, 256, 0, .wo⟩
def SEC_DBGKEY_STAGE_HASH : Fld := ⟨.sec, 0x1a0*8+0, 256, 0, .wo⟩
def SEC_ATTEST_NONCE_NONCE : Fld := ⟨.sec, 0x1c0*8+0, 256, 0, .rw⟩
def secAll0 : List Fld :=
  [SEC_LC_LC, SEC_LC_OWNER_SET, SEC_LC_DBG_KEY_SET, SEC_CMD_OP, SEC_CMD_KEY, SEC_CMD_STATUS_DONE,
   SEC_CMD_STATUS_CODE, SEC_SERIAL_SERIAL, SEC_IANA_IANA, SEC_FM_EN, SEC_FM_NODE, SEC_KEY_GEN_GEN, SEC_OTS_NEXT,
   SEC_LOAD_DENIED_CNT_OVF, SEC_LOAD_DENIED_CNT, SEC_ATTEST_CNT_OVF, SEC_ATTEST_CNT, SEC_KEY_STAGE_WRAPPED,
   SEC_OWNER_STAGE_SEED, SEC_DBGKEY_STAGE_HASH, SEC_ATTEST_NONCE_NONCE]

-- dbg: registers of 17_security_debug_matrix.md, Table 17.10
def DBG_CMD_OP : Fld := ⟨.dbg, 0x40*8+28, 4, 0, .wo⟩
def DBG_CMD_TILE : Fld := ⟨.dbg, 0x40*8+0, 7, 0, .wo⟩
def DBG_CMD_STATUS_DONE : Fld := ⟨.dbg, 0x40*8+63, 1, 1, .ro⟩
def DBG_CMD_STATUS_CODE : Fld := ⟨.dbg, 0x40*8+32, 4, 0, .ro⟩
def DBG_STATE_LEVEL : Fld := ⟨.dbg, 0x48*8+30, 2, 0, .ro⟩
def DBG_STATE_TENANT_DATA : Fld := ⟨.dbg, 0x48*8+29, 1, 0, .ro⟩
def DBG_STATE_SESSION : Fld := ⟨.dbg, 0x48*8+0, 16, 0, .ro⟩
def DBG_EXPIRY_TIME : Fld := ⟨.dbg, 0x50*8+0, 64, 0, .ro⟩
def DBG_PEEK_ADDR_TILE : Fld := ⟨.dbg, 0x58*8+32, 8, 0, .rw⟩
def DBG_PEEK_ADDR_SPACE : Fld := ⟨.dbg, 0x58*8+31, 1, 0, .rw⟩
def DBG_PEEK_ADDR_OFFSET : Fld := ⟨.dbg, 0x58*8+0, 21, 0, .rw⟩
def DBG_POKE_ADDR_OFFSET : Fld := ⟨.dbg, 0x60*8+0, 26, 0, .rw⟩
def DBG_DATA_DATA : Fld := ⟨.dbg, 0x68*8+0, 64, 0, .rw⟩
def DBG_CHALLENGE_NONCE : Fld := ⟨.dbg, 0x80*8+0, 256, 0, .ro⟩
def DBG_UNLOCK_CNT_OVF : Fld := ⟨.dbg, 0xa0*8+63, 1, 0, .w1c⟩
def DBG_UNLOCK_CNT : Fld := ⟨.dbg, 0xa0*8+0, 48, 0, .ro⟩
def DBG_DENY_CNT_OVF : Fld := ⟨.dbg, 0xa8*8+63, 1, 0, .w1c⟩
def DBG_DENY_CNT : Fld := ⟨.dbg, 0xa8*8+0, 48, 0, .ro⟩
def dbgAll0 : List Fld :=
  [DBG_CMD_OP, DBG_CMD_TILE, DBG_CMD_STATUS_DONE, DBG_CMD_STATUS_CODE, DBG_STATE_LEVEL, DBG_STATE_TENANT_DATA,
   DBG_STATE_SESSION, DBG_EXPIRY_TIME, DBG_PEEK_ADDR_TILE, DBG_PEEK_ADDR_SPACE, DBG_PEEK_ADDR_OFFSET,
   DBG_POKE_ADDR_OFFSET, DBG_DATA_DATA, DBG_CHALLENGE_NONCE, DBG_UNLOCK_CNT_OVF, DBG_UNLOCK_CNT,
   DBG_DENY_CNT_OVF, DBG_DENY_CNT]

-- time: registers of 18_time_errors_health.md, Table 18.13
def TIME_NS_NS : Fld := ⟨.time, 0x40*8+0, 64, 0, .ro⟩
def TIME_FRAC_FRAC : Fld := ⟨.time, 0x48*8+0, 32, 0, .ro⟩
def TIME_CTRL_PTP_EN : Fld := ⟨.time, 0x48*8+63, 1, 0, .rw⟩
def TIME_CTRL_PPS_IN_EN : Fld := ⟨.time, 0x48*8+62, 1, 0, .rw⟩
def TIME_CTRL_PPS_OUT_EN : Fld := ⟨.time, 0x48*8+61, 1, 0, .rw⟩
def TIME_CTRL_DOMAIN : Fld := ⟨.time, 0x48*8+48, 8, 0, .rw⟩
def TIME_CTRL_TRANSPORT : Fld := ⟨.time, 0x48*8+47, 1, 0, .rw⟩
def TIME_CTRL_DELAY : Fld := ⟨.time, 0x48*8+46, 1, 0, .rw⟩
def TIME_STATUS_STATE : Fld := ⟨.time, 0x50*8+30, 2, 0, .ro⟩
def TIME_STATUS_STEPPED : Fld := ⟨.time, 0x50*8+29, 1, 0, .ro⟩
def TIME_LOCK_UNLOCK_NS : Fld := ⟨.time, 0x50*8+48, 16, 0xc8, .rw⟩
def TIME_LOCK_LOCK_NS : Fld := ⟨.time, 0x50*8+32, 16, 0x32, .rw⟩
def TIME_OFFSET_OFFSET_NS : Fld := ⟨.time, 0x58*8+0, 32, 0, .ro⟩
def TIME_ADJ_ADJ : Fld := ⟨.time, 0x58*8+32, 32, 0, .ro⟩
def TIME_SERVO_SLEW_PPM : Fld := ⟨.time, 0x60*8+16, 16, 0x1f4, .rw⟩
def TIME_SERVO_HOLDOVER_S : Fld := ⟨.time, 0x60*8+0, 16, 0xe10, .rw⟩
def TIME_STEP_THRESH_NS : Fld := ⟨.time, 0x60*8+32, 32, 0xf4240, .rw⟩
def TIME_CMD_OP : Fld := ⟨.time, 0x68*8+28, 4, 0, .wo⟩
def TIME_CMD_STATUS_DONE : Fld := ⟨.time, 0x68*8+63, 1, 1, .ro⟩
def TIME_CMD_STATUS_CODE : Fld := ⟨.time, 0x68*8+32, 4, 0, .ro⟩
def TIME_CMD_ARG_NS : Fld := ⟨.time, 0x70*8+0, 64, 0, .rw⟩
def TIME_PPS_IN_TS_NS : Fld := ⟨.time, 0x78*8+0, 64, 0, .ro⟩
def TIME_MASTER_ID : Fld := ⟨.time, 0x80*8+0, 64, 0, .ro⟩
def TIME_SYNC_CNT_OVF : Fld := ⟨.time, 0x88*8+63, 1, 0, .w1c⟩
def TIME_SYNC_CNT : Fld := ⟨.time, 0x88*8+0, 48, 0, .ro⟩
def TIME_LOCK_LOSS_CNT_OVF : Fld := ⟨.time, 0x90*8+63, 1, 0, .w1c⟩
def TIME_LOCK_LOSS_CNT : Fld := ⟨.time, 0x90*8+0, 48, 0, .ro⟩
def TIME_PPS_IN_CNT_OVF : Fld := ⟨.time, 0x98*8+63, 1, 0, .w1c⟩
def TIME_PPS_IN_CNT : Fld := ⟨.time, 0x98*8+0, 48, 0, .ro⟩
def timeAll0 : List Fld :=
  [TIME_NS_NS, TIME_FRAC_FRAC, TIME_CTRL_PTP_EN, TIME_CTRL_PPS_IN_EN, TIME_CTRL_PPS_OUT_EN, TIME_CTRL_DOMAIN,
   TIME_CTRL_TRANSPORT, TIME_CTRL_DELAY, TIME_STATUS_STATE, TIME_STATUS_STEPPED, TIME_LOCK_UNLOCK_NS,
   TIME_LOCK_LOCK_NS, TIME_OFFSET_OFFSET_NS, TIME_ADJ_ADJ, TIME_SERVO_SLEW_PPM, TIME_SERVO_HOLDOVER_S,
   TIME_STEP_THRESH_NS, TIME_CMD_OP, TIME_CMD_STATUS_DONE, TIME_CMD_STATUS_CODE, TIME_CMD_ARG_NS,
   TIME_PPS_IN_TS_NS, TIME_MASTER_ID, TIME_SYNC_CNT_OVF, TIME_SYNC_CNT, TIME_LOCK_LOSS_CNT_OVF,
   TIME_LOCK_LOSS_CNT, TIME_PPS_IN_CNT_OVF, TIME_PPS_IN_CNT]

-- mgmt: registers of 18_time_errors_health.md, Table 18.14
def MGMT_CMD_OP : Fld := ⟨.mgmt, 0x40*8+28, 4, 0, .wo⟩
def MGMT_CMD_TILE : Fld := ⟨.mgmt, 0x40*8+0, 7, 0, .wo⟩
def MGMT_CMD_STATUS_DONE : Fld := ⟨.mgmt, 0x40*8+63, 1, 1, .ro⟩
def MGMT_CMD_STATUS_CODE : Fld := ⟨.mgmt, 0x40*8+32, 4, 0, .ro⟩
def MGMT_BEACON_ADDR : Fld := ⟨.mgmt, 0x48*8+6, 47, 0, .rw⟩
def MGMT_BEACON_CFG_EN : Fld := ⟨.mgmt, 0x50*8+31, 1, 0, .rw⟩
def MGMT_BEACON_CFG_SELF_FENCE : Fld := ⟨.mgmt, 0x50*8+20, 4, 0, .rw⟩
def MGMT_BEACON_CFG_PERIOD_US : Fld := ⟨.mgmt, 0x50*8+0, 20, 0x64, .rw⟩
def MGMT_SELFTEST_CFG_SLICE_S : Fld := ⟨.mgmt, 0x50*8+48, 16, 0x3c, .rw⟩
def MGMT_SELFTEST_CFG_DRAIN_MAX_MS : Fld := ⟨.mgmt, 0x50*8+32, 16, 0x32, .rw⟩
def MGMT_CANARY_CFG_CANARY_MS : Fld := ⟨.mgmt, 0x58*8+16, 16, 0x3e8, .rw⟩
def MGMT_CANARY_CFG_TEMP_BAND_C : Fld := ⟨.mgmt, 0x58*8+8, 8, 0xa, .rw⟩
def MGMT_CANARY_CFG_MIN_TILES : Fld := ⟨.mgmt, 0x58*8+0, 8, 0x50, .rw⟩
def MGMT_TILES_RUN : Fld := ⟨.mgmt, 0x60*8+24, 8, 0, .ro⟩
def MGMT_TILES_RETIRED : Fld := ⟨.mgmt, 0x60*8+16, 8, 0, .ro⟩
def MGMT_BEACON_CNT_OVF : Fld := ⟨.mgmt, 0x68*8+63, 1, 0, .w1c⟩
def MGMT_BEACON_CNT : Fld := ⟨.mgmt, 0x68*8+0, 48, 0, .ro⟩
def MGMT_BEACON_MISS_CNT_OVF : Fld := ⟨.mgmt, 0x70*8+63, 1, 0, .w1c⟩
def MGMT_BEACON_MISS_CNT : Fld := ⟨.mgmt, 0x70*8+0, 48, 0, .ro⟩
def MGMT_SLICE_CNT_OVF : Fld := ⟨.mgmt, 0x78*8+63, 1, 0, .w1c⟩
def MGMT_SLICE_CNT : Fld := ⟨.mgmt, 0x78*8+0, 48, 0, .ro⟩
def MGMT_SLICE_ABANDON_CNT_OVF : Fld := ⟨.mgmt, 0x80*8+63, 1, 0, .w1c⟩
def MGMT_SLICE_ABANDON_CNT : Fld := ⟨.mgmt, 0x80*8+0, 48, 0, .ro⟩
def MGMT_CANARY_CNT_OVF : Fld := ⟨.mgmt, 0x88*8+63, 1, 0, .w1c⟩
def MGMT_CANARY_CNT : Fld := ⟨.mgmt, 0x88*8+0, 48, 0, .ro⟩
def MGMT_CANARY_FAIL_CNT_OVF : Fld := ⟨.mgmt, 0x90*8+63, 1, 0, .w1c⟩
def MGMT_CANARY_FAIL_CNT : Fld := ⟨.mgmt, 0x90*8+0, 48, 0, .ro⟩
def mgmtAll0 : List Fld :=
  [MGMT_CMD_OP, MGMT_CMD_TILE, MGMT_CMD_STATUS_DONE, MGMT_CMD_STATUS_CODE, MGMT_BEACON_ADDR, MGMT_BEACON_CFG_EN,
   MGMT_BEACON_CFG_SELF_FENCE, MGMT_BEACON_CFG_PERIOD_US, MGMT_SELFTEST_CFG_SLICE_S,
   MGMT_SELFTEST_CFG_DRAIN_MAX_MS, MGMT_CANARY_CFG_CANARY_MS, MGMT_CANARY_CFG_TEMP_BAND_C,
   MGMT_CANARY_CFG_MIN_TILES, MGMT_TILES_RUN, MGMT_TILES_RETIRED, MGMT_BEACON_CNT_OVF, MGMT_BEACON_CNT,
   MGMT_BEACON_MISS_CNT_OVF, MGMT_BEACON_MISS_CNT, MGMT_SLICE_CNT_OVF, MGMT_SLICE_CNT,
   MGMT_SLICE_ABANDON_CNT_OVF, MGMT_SLICE_ABANDON_CNT, MGMT_CANARY_CNT_OVF, MGMT_CANARY_CNT,
   MGMT_CANARY_FAIL_CNT_OVF, MGMT_CANARY_FAIL_CNT]

-- hdr: registers of 19_register_pages.md, Table 19.2
def PAGE_ID_BLOCK_TYPE : Fld := ⟨.hdr, 0x0*8+16, 16, 0, .ro⟩
def PAGE_ID_INSTANCE : Fld := ⟨.hdr, 0x0*8+8, 8, 0, .ro⟩
def PAGE_ID_PAGE_REV : Fld := ⟨.hdr, 0x0*8+0, 8, 1, .ro⟩
def PAGE_CAP_ERR_BITS : Fld := ⟨.hdr, 0x0*8+56, 8, 0, .ro⟩
def PAGE_CAP_TABLES : Fld := ⟨.hdr, 0x0*8+52, 4, 0, .ro⟩
def PAGE_CAP_CMD : Fld := ⟨.hdr, 0x0*8+51, 1, 0, .ro⟩
def PAGE_CAP_LOCKABLE : Fld := ⟨.hdr, 0x0*8+50, 1, 0, .ro⟩
def PAGE_CTRL_INJECT : Fld := ⟨.hdr, 0x8*8+31, 1, 0, .wo⟩
def PAGE_CTRL_INJECT_BIT : Fld := ⟨.hdr, 0x8*8+0, 5, 0, .wo⟩
def PAGE_STATUS_READY : Fld := ⟨.hdr, 0x8*8+63, 1, 0, .ro⟩
def PAGE_STATUS_QUIESCED : Fld := ⟨.hdr, 0x8*8+62, 1, 0, .ro⟩
def PAGE_STATUS_BUSY : Fld := ⟨.hdr, 0x8*8+61, 1, 0, .ro⟩
def PAGE_STATUS_FENCED : Fld := ⟨.hdr, 0x8*8+60, 1, 0, .ro⟩
def ERR_STICKY_ERR : Fld := ⟨.hdr, 0x10*8+0, 32, 0, .w1c⟩
def ERR_MASK_MASK : Fld := ⟨.hdr, 0x10*8+32, 32, 0, .rw⟩
def ERR_SEVERITY_CLASS : Fld := ⟨.hdr, 0x18*8+0, 64, 0, .rw⟩
def ERR_FIRST_INFO : Fld := ⟨.hdr, 0x20*8+32, 32, 0, .ro⟩
def ERR_FIRST_VALID : Fld := ⟨.hdr, 0x20*8+15, 1, 0, .ro⟩
def ERR_FIRST_CLASS : Fld := ⟨.hdr, 0x20*8+5, 2, 0, .ro⟩
def ERR_FIRST_BIT : Fld := ⟨.hdr, 0x20*8+0, 5, 0, .ro⟩
def ERR_FIRST_TIME_TIME : Fld := ⟨.hdr, 0x28*8+0, 64, 0, .ro⟩
def ERR_COUNT_SAT : Fld := ⟨.hdr, 0x30*8+31, 1, 0, .w1c⟩
def ERR_COUNT_COUNT : Fld := ⟨.hdr, 0x30*8+0, 16, 0, .ro⟩
def INT_ENABLE_CMD_DONE : Fld := ⟨.hdr, 0x30*8+63, 1, 0, .rw⟩
def INT_ENABLE_BLOCK : Fld := ⟨.hdr, 0x30*8+33, 30, 0, .rw⟩
def INT_ENABLE_ERR : Fld := ⟨.hdr, 0x30*8+32, 1, 0, .rw⟩
def INT_STATUS_CMD_DONE : Fld := ⟨.hdr, 0x38*8+31, 1, 0, .w1c⟩
def INT_STATUS_BLOCK : Fld := ⟨.hdr, 0x38*8+1, 30, 0, .w1c⟩
def INT_STATUS_ERR : Fld := ⟨.hdr, 0x38*8+0, 1, 0, .w1c⟩
def PAGE_LOCK_MASK_LOCK : Fld := ⟨.hdr, 0x38*8+33, 1, 0, .w1s⟩
def PAGE_LOCK_LOCK : Fld := ⟨.hdr, 0x38*8+32, 1, 0, .w1s⟩
def hdrAll0 : List Fld :=
  [PAGE_ID_BLOCK_TYPE, PAGE_ID_INSTANCE, PAGE_ID_PAGE_REV, PAGE_CAP_ERR_BITS, PAGE_CAP_TABLES, PAGE_CAP_CMD,
   PAGE_CAP_LOCKABLE, PAGE_CTRL_INJECT, PAGE_CTRL_INJECT_BIT, PAGE_STATUS_READY, PAGE_STATUS_QUIESCED,
   PAGE_STATUS_BUSY, PAGE_STATUS_FENCED, ERR_STICKY_ERR, ERR_MASK_MASK, ERR_SEVERITY_CLASS, ERR_FIRST_INFO,
   ERR_FIRST_VALID, ERR_FIRST_CLASS, ERR_FIRST_BIT, ERR_FIRST_TIME_TIME, ERR_COUNT_SAT, ERR_COUNT_COUNT,
   INT_ENABLE_CMD_DONE, INT_ENABLE_BLOCK, INT_ENABLE_ERR, INT_STATUS_CMD_DONE, INT_STATUS_BLOCK, INT_STATUS_ERR,
   PAGE_LOCK_MASK_LOCK, PAGE_LOCK_LOCK]

-- tbl: registers of 19_register_pages.md, Table 19.4
def TABLE_DATA_DATA : Fld := ⟨.tbl, 0xe00*8+0, 2048, 0, .rw⟩
def TABLE_SEL_SEL : Fld := ⟨.tbl, 0xf00*8+0, 8, 0, .rw⟩
def TABLE_INFO_ENTRY_BYTES : Fld := ⟨.tbl, 0xf00*8+48, 16, 0, .ro⟩
def TABLE_INFO_ACCESS : Fld := ⟨.tbl, 0xf00*8+32, 2, 0, .ro⟩
def TABLE_ENTRIES_COUNT : Fld := ⟨.tbl, 0xf08*8+0, 64, 0, .ro⟩
def TABLE_INDEX_INDEX : Fld := ⟨.tbl, 0xf10*8+0, 40, 0, .rw⟩
def TABLE_CMD_OP : Fld := ⟨.tbl, 0xf18*8+28, 4, 0, .wo⟩
def TABLE_CMD_INC : Fld := ⟨.tbl, 0xf18*8+27, 1, 0, .wo⟩
def TABLE_STATUS_DONE : Fld := ⟨.tbl, 0xf18*8+63, 1, 1, .ro⟩
def TABLE_STATUS_CODE : Fld := ⟨.tbl, 0xf18*8+32, 4, 0, .ro⟩
def tblAll0 : List Fld :=
  [TABLE_DATA_DATA, TABLE_SEL_SEL, TABLE_INFO_ENTRY_BYTES, TABLE_INFO_ACCESS, TABLE_ENTRIES_COUNT,
   TABLE_INDEX_INDEX, TABLE_CMD_OP, TABLE_CMD_INC, TABLE_STATUS_DONE, TABLE_STATUS_CODE]

-- xlt_entry: Translation entry, 8 bytes (XLT table `xlt_entry`)
def xlt_entry_V : Fld := ⟨.t_xlt_entry, 63, 1, 0, .rw⟩
def xlt_entry_SIZE : Fld := ⟨.t_xlt_entry, 62, 1, 0, .rw⟩
def xlt_entry_RD : Fld := ⟨.t_xlt_entry, 61, 1, 0, .rw⟩
def xlt_entry_WR : Fld := ⟨.t_xlt_entry, 60, 1, 0, .rw⟩
def xlt_entry_AT : Fld := ⟨.t_xlt_entry, 59, 1, 0, .rw⟩
def xlt_entry_TENANT : Fld := ⟨.t_xlt_entry, 32, 12, 0, .rw⟩
def xlt_entry_PPN : Fld := ⟨.t_xlt_entry, 0, 27, 0, .rw⟩
def t_xlt_entryAll0 : List Fld :=
  [xlt_entry_V, xlt_entry_SIZE, xlt_entry_RD, xlt_entry_WR, xlt_entry_AT, xlt_entry_TENANT, xlt_entry_PPN]

-- tenant_ctx: Tenant translation context, 32 bytes (XLT table `tenant_ctx`, index = tenant ID)
def tenant_ctx_COMP_EPOCH : Fld := ⟨.t_tenant_ctx, 32, 32, 0, .rw⟩
def tenant_ctx_EN : Fld := ⟨.t_tenant_ctx, 0, 1, 0, .rw⟩
def tenant_ctx_LG_VA_BASE : Fld := ⟨.t_tenant_ctx, 8*8+39, 25, 0, .rw⟩
def tenant_ctx_LG_COUNT : Fld := ⟨.t_tenant_ctx, 8*8+16, 17, 0, .rw⟩
def tenant_ctx_LG_FIRST : Fld := ⟨.t_tenant_ctx, 8*8+0, 16, 0, .rw⟩
def tenant_ctx_SM_VA_BASE : Fld := ⟨.t_tenant_ctx, 16*8+34, 30, 0, .rw⟩
def tenant_ctx_SM_COUNT : Fld := ⟨.t_tenant_ctx, 16*8+16, 17, 0, .rw⟩
def tenant_ctx_SM_FIRST : Fld := ⟨.t_tenant_ctx, 16*8+0, 16, 0, .rw⟩
def t_tenant_ctxAll0 : List Fld :=
  [tenant_ctx_COMP_EPOCH, tenant_ctx_EN, tenant_ctx_LG_VA_BASE, tenant_ctx_LG_COUNT, tenant_ctx_LG_FIRST,
   tenant_ctx_SM_VA_BASE, tenant_ctx_SM_COUNT, tenant_ctx_SM_FIRST]

-- window: Window entry, 32 bytes (WIN table `window`, index 0–4,095)
def window_STATE : Fld := ⟨.t_window, 62, 2, 0, .ro⟩
def window_RD : Fld := ⟨.t_window, 61, 1, 0, .rw⟩
def window_WR : Fld := ⟨.t_window, 60, 1, 0, .rw⟩
def window_AT : Fld := ⟨.t_window, 59, 1, 0, .rw⟩
def window_RELAXED : Fld := ⟨.t_window, 58, 1, 0, .rw⟩
def window_REDIRECT_V : Fld := ⟨.t_window, 57, 1, 0, .rw⟩
def window_REDIRECT_PART : Fld := ⟨.t_window, 51, 6, 0, .rw⟩
def window_TENANT : Fld := ⟨.t_window, 32, 12, 0, .rw⟩
def window_SRC_HI : Fld := ⟨.t_window, 16, 16, 0, .rw⟩
def window_SRC_LO : Fld := ⟨.t_window, 0, 16, 0, .rw⟩
def window_IN_BASE : Fld := ⟨.t_window, 8*8+43, 21, 0, .rw⟩
def window_LOCAL_BASE : Fld := ⟨.t_window, 8*8+22, 21, 0, .rw⟩
def window_SIZE : Fld := ⟨.t_window, 8*8+0, 22, 0, .rw⟩
def window_EPOCH : Fld := ⟨.t_window, 16*8+32, 32, 0, .rw⟩
def window_DRAIN_DEADLINE : Fld := ⟨.t_window, 16*8+0, 20, 0, .ro⟩
def window_INFLIGHT : Fld := ⟨.t_window, 24*8+0, 32, 0, .ro⟩
def t_windowAll0 : List Fld :=
  [window_STATE, window_RD, window_WR, window_AT, window_RELAXED, window_REDIRECT_V, window_REDIRECT_PART,
   window_TENANT, window_SRC_HI, window_SRC_LO, window_IN_BASE, window_LOCAL_BASE, window_SIZE, window_EPOCH,
   window_DRAIN_DEADLINE, window_INFLIGHT]

-- route: Route entry, 8 bytes (SWC table `route`, index = node ID)
def route_V : Fld := ⟨.t_route, 63, 1, 0, .rw⟩
def route_LOCAL : Fld := ⟨.t_route, 62, 1, 0, .rw⟩
def route_DEAD : Fld := ⟨.t_route, 61, 1, 0, .rw⟩
def route_NCAND : Fld := ⟨.t_route, 58, 3, 0, .rw⟩
def route_PORT3 : Fld := ⟨.t_route, 15, 5, 0, .rw⟩
def route_PORT2 : Fld := ⟨.t_route, 10, 5, 0, .rw⟩
def route_PORT1 : Fld := ⟨.t_route, 5, 5, 0, .rw⟩
def route_PORT0 : Fld := ⟨.t_route, 0, 5, 0, .rw⟩
def t_routeAll0 : List Fld :=
  [route_V, route_LOCAL, route_DEAD, route_NCAND, route_PORT3, route_PORT2, route_PORT1, route_PORT0]

-- mcast: Multicast group entry, 8 bytes (SWC table `mcast`, index = group)
def mcast_V : Fld := ⟨.t_mcast, 63, 1, 0, .rw⟩
def mcast_ORIGIN : Fld := ⟨.t_mcast, 24, 16, 0, .rw⟩
def mcast_PORT_MASK : Fld := ⟨.t_mcast, 0, 24, 0, .rw⟩
def t_mcastAll0 : List Fld :=
  [mcast_V, mcast_ORIGIN, mcast_PORT_MASK]

-- dir: Directory entry, 32 bytes (FEN table `dir`)
def dir_SHARERS : Fld := ⟨.t_dir, 0, 64, 0, .ro⟩
def dir_V : Fld := ⟨.t_dir, 8*8+63, 1, 0, .ro⟩
def dir_STATE : Fld := ⟨.t_dir, 8*8+59, 4, 0, .ro⟩
def dir_OWNER : Fld := ⟨.t_dir, 8*8+53, 6, 0, .ro⟩
def dir_OWNER_V : Fld := ⟨.t_dir, 8*8+52, 1, 0, .ro⟩
def dir_ALLOC_RANK : Fld := ⟨.t_dir, 8*8+48, 4, 0, .ro⟩
def dir_ACKS_DUE : Fld := ⟨.t_dir, 8*8+41, 7, 0, .ro⟩
def dir_ACK_TIME : Fld := ⟨.t_dir, 8*8+0, 32, 0, .ro⟩
def dir_TENANT : Fld := ⟨.t_dir, 16*8+52, 12, 0, .ro⟩
def dir_LINE : Fld := ⟨.t_dir, 16*8+0, 41, 0, .ro⟩
def dir_IN_LINE : Fld := ⟨.t_dir, 24*8+0, 41, 0, .ro⟩
def t_dirAll0 : List Fld :=
  [dir_SHARERS, dir_V, dir_STATE, dir_OWNER, dir_OWNER_V, dir_ALLOC_RANK, dir_ACKS_DUE, dir_ACK_TIME, dir_TENANT,
   dir_LINE, dir_IN_LINE]

-- monitor: Monitor entry, 32 bytes (SYNC table `monitor`, index 0–65,535)
def monitor_STATE : Fld := ⟨.t_monitor, 62, 2, 0, .ro⟩
def monitor_COND : Fld := ⟨.t_monitor, 60, 2, 0, .ro⟩
def monitor_ACTION : Fld := ⟨.t_monitor, 59, 1, 0, .ro⟩
def monitor_TENANT : Fld := ⟨.t_monitor, 44, 12, 0, .ro⟩
def monitor_WORD : Fld := ⟨.t_monitor, 0, 44, 0, .ro⟩
def monitor_VALUE : Fld := ⟨.t_monitor, 8*8+0, 64, 0, .ro⟩
def monitor_MASK : Fld := ⟨.t_monitor, 16*8+0, 64, 0, .ro⟩
def monitor_QUEUE : Fld := ⟨.t_monitor, 24*8+20, 20, 0, .ro⟩
def monitor_TILE : Fld := ⟨.t_monitor, 24*8+4, 7, 0, .ro⟩
def monitor_THREAD : Fld := ⟨.t_monitor, 24*8+0, 4, 0, .ro⟩
def t_monitorAll0 : List Fld :=
  [monitor_STATE, monitor_COND, monitor_ACTION, monitor_TENANT, monitor_WORD, monitor_VALUE, monitor_MASK,
   monitor_QUEUE, monitor_TILE, monitor_THREAD]

-- dbg_log: Debug log entry, 32 bytes (SYNC table `dbg_log`)
def dbg_log_TIME : Fld := ⟨.t_dbg_log, 0, 64, 0, .ro⟩
def dbg_log_OP : Fld := ⟨.t_dbg_log, 8*8+60, 4, 0, .ro⟩
def dbg_log_SESSION : Fld := ⟨.t_dbg_log, 8*8+44, 16, 0, .ro⟩
def dbg_log_TARGET : Fld := ⟨.t_dbg_log, 8*8+0, 44, 0, .ro⟩
def dbg_log_OLD : Fld := ⟨.t_dbg_log, 16*8+0, 64, 0, .ro⟩
def dbg_log_NEW : Fld := ⟨.t_dbg_log, 24*8+0, 64, 0, .ro⟩
def t_dbg_logAll0 : List Fld :=
  [dbg_log_TIME, dbg_log_OP, dbg_log_SESSION, dbg_log_TARGET, dbg_log_OLD, dbg_log_NEW]

-- region: Protection region entry, 32 bytes (PROT table `region`, index 0–255)
def region_STATE : Fld := ⟨.t_region, 62, 2, 0, .ro⟩
def region_MODE : Fld := ⟨.t_region, 60, 2, 0, .rw⟩
def region_OWNER : Fld := ⟨.t_region, 59, 1, 0, .rw⟩
def region_MEMBER_IDX : Fld := ⟨.t_region, 56, 3, 0, .rw⟩
def region_K : Fld := ⟨.t_region, 52, 4, 0, .rw⟩
def region_PARTNER : Fld := ⟨.t_region, 46, 6, 0, .rw⟩
def region_TENANT : Fld := ⟨.t_region, 34, 12, 0, .rw⟩
def region_LOCAL_BASE : Fld := ⟨.t_region, 8*8+43, 21, 0, .rw⟩
def region_SIZE : Fld := ⟨.t_region, 8*8+0, 22, 0, .rw⟩
def region_REMOTE_BASE : Fld := ⟨.t_region, 16*8+43, 21, 0, .rw⟩
def region_MEMBERS : Fld := ⟨.t_region, 24*8+0, 48, 0, .rw⟩
def t_regionAll0 : List Fld :=
  [region_STATE, region_MODE, region_OWNER, region_MEMBER_IDX, region_K, region_PARTNER, region_TENANT,
   region_LOCAL_BASE, region_SIZE, region_REMOTE_BASE, region_MEMBERS]

-- place: Placement descriptor, 32 bytes (TIER table `place`, index 0–4,095)
def place_STATE : Fld := ⟨.t_place, 62, 2, 0, .ro⟩
def place_CLASS : Fld := ⟨.t_place, 60, 2, 0, .rw⟩
def place_HIWYN : Fld := ⟨.t_place, 59, 1, 0, .rw⟩
def place_FRESH : Fld := ⟨.t_place, 58, 1, 0, .rw⟩
def place_TENANT : Fld := ⟨.t_place, 32, 12, 0, .rw⟩
def place_LOCAL_BASE : Fld := ⟨.t_place, 8*8+43, 21, 0, .rw⟩
def place_SIZE : Fld := ⟨.t_place, 8*8+0, 22, 0, .rw⟩
def place_LOWER_BASE : Fld := ⟨.t_place, 16*8+0, 64, 0, .rw⟩
def place_TRL_BASE : Fld := ⟨.t_place, 24*8+0, 64, 0, .rw⟩
def t_placeAll0 : List Fld :=
  [place_STATE, place_CLASS, place_HIWYN, place_FRESH, place_TENANT, place_LOCAL_BASE, place_SIZE,
   place_LOWER_BASE, place_TRL_BASE]

-- map: Block map entry, 8 bytes (TIER table `map`, index = local offset bits [46:16]; read-only)
def map_BSTATE : Fld := ⟨.t_map, 61, 3, 0, .ro⟩
def map_DIRTY : Fld := ⟨.t_map, 60, 1, 0, .ro⟩
def map_STORED : Fld := ⟨.t_map, 59, 1, 0, .ro⟩
def map_HEAT : Fld := ⟨.t_map, 51, 8, 0, .ro⟩
def map_HEAT_EPOCH : Fld := ⟨.t_map, 35, 16, 0, .ro⟩
def map_FRAME : Fld := ⟨.t_map, 0, 25, 0, .ro⟩
def t_mapAll0 : List Fld :=
  [map_BSTATE, map_DIRTY, map_STORED, map_HEAT, map_HEAT_EPOCH, map_FRAME]

-- frame: Frame table entry, 16 bytes (TIER table `frame`, index = frame number; read-only)
def frame_STAMP : Fld := ⟨.t_frame, 12, 52, 0, .ro⟩
def frame_TOUCHED_DURING : Fld := ⟨.t_frame, 11, 1, 0, .ro⟩
def frame_SYS : Fld := ⟨.t_frame, 10, 1, 0, .ro⟩
def frame_USED : Fld := ⟨.t_frame, 9, 1, 0, .ro⟩
def frame_TENANT : Fld := ⟨.t_frame, 8*8+52, 12, 0, .ro⟩
def frame_BLOCK : Fld := ⟨.t_frame, 8*8+0, 31, 0, .ro⟩
def t_frameAll0 : List Fld :=
  [frame_STAMP, frame_TOUCHED_DURING, frame_SYS, frame_USED, frame_TENANT, frame_BLOCK]

-- lmap: Map entry, 8 bytes (PEAT table `lmap`, index = LBN; read-only)
def lmap_V : Fld := ⟨.t_lmap, 63, 1, 0, .ro⟩
def lmap_GROUP : Fld := ⟨.t_lmap, 58, 5, 0, .ro⟩
def lmap_SB : Fld := ⟨.t_lmap, 44, 14, 0, .ro⟩
def lmap_ROW : Fld := ⟨.t_lmap, 31, 13, 0, .ro⟩
def lmap_POS : Fld := ⟨.t_lmap, 27, 4, 0, .ro⟩
def t_lmapAll0 : List Fld :=
  [lmap_V, lmap_GROUP, lmap_SB, lmap_ROW, lmap_POS]

-- qctx: Queue context, 32 bytes
def qctx_STATE : Fld := ⟨.t_qctx, 61, 3, 0, .ro⟩
def qctx_RING_LOG2 : Fld := ⟨.t_qctx, 56, 5, 0, .rw⟩
def qctx_STOP_ON_ERR : Fld := ⟨.t_qctx, 55, 1, 0, .rw⟩
def qctx_PRIO : Fld := ⟨.t_qctx, 52, 2, 0, .rw⟩
def qctx_TENANT : Fld := ⟨.t_qctx, 32, 12, 0, .rw⟩
def qctx_TAIL : Fld := ⟨.t_qctx, 0, 32, 0, .ro⟩
def qctx_HEAD : Fld := ⟨.t_qctx, 8*8+32, 32, 0, .ro⟩
def qctx_FUNC : Fld := ⟨.t_qctx, 8*8+25, 7, 0, .rw⟩
def qctx_NOTIFY_EN : Fld := ⟨.t_qctx, 8*8+24, 1, 0, .rw⟩
def qctx_VECTOR : Fld := ⟨.t_qctx, 8*8+0, 12, 0, .rw⟩
def qctx_RING_VA : Fld := ⟨.t_qctx, 16*8+18, 46, 0, .rw⟩
def qctx_CQ_VA : Fld := ⟨.t_qctx, 24*8+16, 48, 0, .rw⟩
def qctx_LAST_ERR : Fld := ⟨.t_qctx, 24*8+0, 8, 0, .rw⟩
def t_qctxAll0 : List Fld :=
  [qctx_STATE, qctx_RING_LOG2, qctx_STOP_ON_ERR, qctx_PRIO, qctx_TENANT, qctx_TAIL, qctx_HEAD, qctx_FUNC,
   qctx_NOTIFY_EN, qctx_VECTOR, qctx_RING_VA, qctx_CQ_VA, qctx_LAST_ERR]

-- table: Table entry, 128 bytes (EMB table `table`, index = TABLE_ID)
def table_STATE : Fld := ⟨.t_table, 62, 2, 0, .ro⟩
def table_FORMAT : Fld := ⟨.t_table, 58, 4, 0, .rw⟩
def table_SHARD : Fld := ⟨.t_table, 57, 1, 0, .rw⟩
def table_STRIDE_LOG2 : Fld := ⟨.t_table, 53, 4, 0, .rw⟩
def table_OPT_STRIDE_LOG2 : Fld := ⟨.t_table, 49, 4, 0, .rw⟩
def table_TENANT : Fld := ⟨.t_table, 32, 12, 0, .rw⟩
def table_DIM : Fld := ⟨.t_table, 0, 15, 0, .rw⟩
def table_VERSION_VA : Fld := ⟨.t_table, 8*8+0, 56, 0, .rw⟩
def table_NOWN : Fld := ⟨.t_table, 16*8+57, 7, 0, .rw⟩
def table_DIR_LOG2 : Fld := ⟨.t_table, 16*8+52, 5, 0, .rw⟩
def table_SHARD_LOG2 : Fld := ⟨.t_table, 16*8+46, 6, 0, .rw⟩
def table_ROWS : Fld := ⟨.t_table, 16*8+0, 40, 0, .rw⟩
def table_SSTATE_A : Fld := ⟨.t_table, 24*8+62, 2, 0, .ro⟩
def table_VERSION_A : Fld := ⟨.t_table, 24*8+0, 48, 0, .rw⟩
def table_VA_BASE_A : Fld := ⟨.t_table, 32*8+0, 56, 0, .rw⟩
def table_OPT_VA_A : Fld := ⟨.t_table, 40*8+0, 56, 0, .rw⟩
def table_SSTATE_B : Fld := ⟨.t_table, 48*8+62, 2, 0, .ro⟩
def table_VERSION_B : Fld := ⟨.t_table, 48*8+0, 48, 0, .rw⟩
def table_VA_BASE_B : Fld := ⟨.t_table, 56*8+0, 56, 0, .rw⟩
def table_OPT_VA_B : Fld := ⟨.t_table, 64*8+0, 56, 0, .rw⟩
def table_PINS_B : Fld := ⟨.t_table, 72*8+32, 32, 0, .ro⟩
def table_PINS_A : Fld := ⟨.t_table, 72*8+0, 32, 0, .ro⟩
def table_OVF : Fld := ⟨.t_table, 80*8+63, 1, 0, .w1c⟩
def table_DROP_CNT : Fld := ⟨.t_table, 80*8+0, 48, 0, .ro⟩
def table_NEWEST : Fld := ⟨.t_table, 88*8+0, 48, 0, .ro⟩
def t_tableAll0 : List Fld :=
  [table_STATE, table_FORMAT, table_SHARD, table_STRIDE_LOG2, table_OPT_STRIDE_LOG2, table_TENANT, table_DIM,
   table_VERSION_VA, table_NOWN, table_DIR_LOG2, table_SHARD_LOG2, table_ROWS, table_SSTATE_A, table_VERSION_A,
   table_VA_BASE_A, table_OPT_VA_A, table_SSTATE_B, table_VERSION_B, table_VA_BASE_B, table_OPT_VA_B,
   table_PINS_B, table_PINS_A, table_OVF, table_DROP_CNT, table_NEWEST]

-- index: Index entry, 128 bytes (VSE table `index`, index = INDEX_ID)
def index_STATE : Fld := ⟨.t_index, 62, 2, 0, .ro⟩
def index_METRIC : Fld := ⟨.t_index, 61, 1, 0, .rw⟩
def index_CODE4 : Fld := ⟨.t_index, 60, 1, 0, .rw⟩
def index_MSEL : Fld := ⟨.t_index, 57, 3, 0, .rw⟩
def index_CENT_FORMAT : Fld := ⟨.t_index, 53, 4, 0, .rw⟩
def index_ORIG_STRIDE_LOG2 : Fld := ⟨.t_index, 44, 4, 0, .rw⟩
def index_TENANT : Fld := ⟨.t_index, 32, 12, 0, .rw⟩
def index_DIM : Fld := ⟨.t_index, 0, 13, 0, .rw⟩
def index_NSHARD : Fld := ⟨.t_index, 8*8+57, 7, 0, .rw⟩
def index_OWN_SHARD : Fld := ⟨.t_index, 8*8+50, 7, 0, .rw⟩
def index_SHARD_LOG2 : Fld := ⟨.t_index, 8*8+44, 6, 0, .rw⟩
def index_SIDE_LOG2 : Fld := ⟨.t_index, 8*8+39, 5, 0, .rw⟩
def index_NLIST : Fld := ⟨.t_index, 8*8+0, 23, 0, .rw⟩
def index_CENT_VA : Fld := ⟨.t_index, 16*8+0, 56, 0, .rw⟩
def index_CB_VA : Fld := ⟨.t_index, 24*8+0, 56, 0, .rw⟩
def index_ORIG_VA : Fld := ⟨.t_index, 32*8+0, 56, 0, .rw⟩
def index_SIDE_VA : Fld := ⟨.t_index, 40*8+0, 56, 0, .rw⟩
def index_VERSION_VA : Fld := ⟨.t_index, 48*8+0, 56, 0, .rw⟩
def index_SEQ_VA : Fld := ⟨.t_index, 56*8+0, 56, 0, .rw⟩
def index_SSTATE_A : Fld := ⟨.t_index, 64*8+62, 2, 0, .ro⟩
def index_VERSION_A : Fld := ⟨.t_index, 64*8+0, 48, 0, .rw⟩
def index_BASE_SEQ_A : Fld := ⟨.t_index, 72*8+0, 64, 0, .rw⟩
def index_LIST_VA_A : Fld := ⟨.t_index, 80*8+0, 56, 0, .rw⟩
def index_SSTATE_B : Fld := ⟨.t_index, 88*8+62, 2, 0, .ro⟩
def index_VERSION_B : Fld := ⟨.t_index, 88*8+0, 48, 0, .rw⟩
def index_BASE_SEQ_B : Fld := ⟨.t_index, 96*8+0, 64, 0, .rw⟩
def index_LIST_VA_B : Fld := ⟨.t_index, 104*8+0, 56, 0, .rw⟩
def index_PINS_B : Fld := ⟨.t_index, 112*8+40, 24, 0, .ro⟩
def index_PINS_A : Fld := ⟨.t_index, 112*8+16, 24, 0, .ro⟩
def index_NEWEST : Fld := ⟨.t_index, 120*8+0, 48, 0, .ro⟩
def t_indexAll0 : List Fld :=
  [index_STATE, index_METRIC, index_CODE4, index_MSEL, index_CENT_FORMAT, index_ORIG_STRIDE_LOG2, index_TENANT,
   index_DIM, index_NSHARD, index_OWN_SHARD, index_SHARD_LOG2, index_SIDE_LOG2, index_NLIST, index_CENT_VA,
   index_CB_VA, index_ORIG_VA, index_SIDE_VA, index_VERSION_VA, index_SEQ_VA, index_SSTATE_A, index_VERSION_A,
   index_BASE_SEQ_A, index_LIST_VA_A, index_SSTATE_B, index_VERSION_B, index_BASE_SEQ_B, index_LIST_VA_B,
   index_PINS_B, index_PINS_A, index_NEWEST]

-- stream: Stream entry, 32 bytes (WST table `stream`)
def stream_STATE : Fld := ⟨.t_stream, 62, 2, 0, .ro⟩
def stream_QUEUE : Fld := ⟨.t_stream, 32, 20, 0, .ro⟩
def stream_GROUP : Fld := ⟨.t_stream, 20, 12, 0, .ro⟩
def stream_TENANT : Fld := ⟨.t_stream, 0, 12, 0, .ro⟩
def stream_NEXT_START : Fld := ⟨.t_stream, 8*8+32, 32, 0, .ro⟩
def stream_LOW_OPEN : Fld := ⟨.t_stream, 8*8+0, 32, 0, .ro⟩
def stream_CHUNKS : Fld := ⟨.t_stream, 16*8+32, 32, 0, .ro⟩
def stream_RESENDS : Fld := ⟨.t_stream, 16*8+24, 8, 0, .ro⟩
def stream_MISSING : Fld := ⟨.t_stream, 24*8+0, 64, 0, .ro⟩
def t_streamAll0 : List Fld :=
  [stream_STATE, stream_QUEUE, stream_GROUP, stream_TENANT, stream_NEXT_START, stream_LOW_OPEN, stream_CHUNKS,
   stream_RESENDS, stream_MISSING]

-- qmark: Marker entry, 16 bytes (MGMT table `qmark`, index = queue; read-only)
def qmark_LAST_TIME : Fld := ⟨.t_qmark, 0, 64, 0, .ro⟩
def qmark_V : Fld := ⟨.t_qmark, 8*8+31, 1, 0, .ro⟩
def qmark_STEP : Fld := ⟨.t_qmark, 8*8+0, 31, 0, .ro⟩
def qmark_LAST_US : Fld := ⟨.t_qmark, 8*8+32, 32, 0, .ro⟩
def t_qmarkAll0 : List Fld :=
  [qmark_LAST_TIME, qmark_V, qmark_STEP, qmark_LAST_US]

-- retire_log: Retirement log entry, 32 bytes (MGMT table `retire_log`, 16 entries, ring; read-only; cleared by L1 and L0)
def retire_log_FAIL_TIME : Fld := ⟨.t_retire_log, 0, 64, 0, .ro⟩
def retire_log_LAST_PASS : Fld := ⟨.t_retire_log, 8*8+0, 64, 0, .ro⟩
def retire_log_TILE : Fld := ⟨.t_retire_log, 16*8+0, 8, 0, .ro⟩
def retire_log_CAUSE : Fld := ⟨.t_retire_log, 16*8+8, 8, 0, .ro⟩
def retire_log_CANARY_ID : Fld := ⟨.t_retire_log, 16*8+16, 16, 0, .ro⟩
def retire_log_VCORE_MV : Fld := ⟨.t_retire_log, 16*8+32, 16, 0, .ro⟩
def retire_log_TJ_C : Fld := ⟨.t_retire_log, 16*8+48, 8, 0, .ro⟩
def t_retire_logAll0 : List Fld :=
  [retire_log_FAIL_TIME, retire_log_LAST_PASS, retire_log_TILE, retire_log_CAUSE, retire_log_CANARY_ID,
   retire_log_VCORE_MV, retire_log_TJ_C]

-- ue_log: Uncorrectable-line log entry, 16 bytes (HBM table `ue_log`, ring of 32)
def ue_log_TIME : Fld := ⟨.t_ue_log, 0, 64, 0, .ro⟩
def ue_log_SOURCE : Fld := ⟨.t_ue_log, 8*8+62, 2, 0, .ro⟩
def ue_log_RA : Fld := ⟨.t_ue_log, 8*8+0, 41, 0, .ro⟩
def t_ue_logAll0 : List Fld :=
  [ue_log_TIME, ue_log_SOURCE, ue_log_RA]

-- pred: FEN predictor entry (ch. 05)
def pred_V : Fld := ⟨.t_pred, 63, 1, 0, .ro⟩
def pred_FAR : Fld := ⟨.t_pred, 62, 1, 0, .ro⟩
def pred_CNT : Fld := ⟨.t_pred, 58, 4, 0, .ro⟩
def pred_LAST : Fld := ⟨.t_pred, 52, 6, 0, .ro⟩
def pred_LAST_V : Fld := ⟨.t_pred, 51, 1, 0, .ro⟩
def pred_TENANT : Fld := ⟨.t_pred, 39, 12, 0, .ro⟩
def pred_REGION : Fld := ⟨.t_pred, 0, 35, 0, .ro⟩
def t_predAll0 : List Fld :=
  [pred_V, pred_FAR, pred_CNT, pred_LAST, pred_LAST_V, pred_TENANT, pred_REGION]

-- member: FEN member entry (ch. 05)
def member_V : Fld := ⟨.t_member, 31, 1, 0, .ro⟩
def member_NEAR_OK : Fld := ⟨.t_member, 30, 1, 0, .ro⟩
def member_NODE : Fld := ⟨.t_member, 0, 16, 0, .ro⟩
def t_memberAll0 : List Fld :=
  [member_V, member_NEAR_OK, member_NODE]

-- slot: key slot entry (ch. 07)
def slot_LOADED : Fld := ⟨.t_slot, 31, 1, 0, .ro⟩
def t_slotAll0 : List Fld :=
  [slot_LOADED]

-- pin: pin entry (ch. 08)
def pin_LIMIT : Fld := ⟨.t_pin, 32, 25, 0, .rw⟩
def pin_USED : Fld := ⟨.t_pin, 0, 25, 0, .ro⟩
def t_pinAll0 : List Fld :=
  [pin_LIMIT, pin_USED]

-- sb: super-block entry (Table 9.8)
def sb_SSTATE : Fld := ⟨.t_sb, 61, 3, 0, .ro⟩
def sb_PE : Fld := ⟨.t_sb, 45, 16, 0, .ro⟩
def sb_VALID : Fld := ⟨.t_sb, 29, 16, 0, .ro⟩
def sb_GOOD : Fld := ⟨.t_sb, 24, 5, 0, .ro⟩
def sb_PROG_TIME : Fld := ⟨.t_sb, 8*8+32, 32, 0, .ro⟩
def sb_SCRUB_BITS : Fld := ⟨.t_sb, 8*8+24, 8, 0, .ro⟩
def t_sbAll0 : List Fld :=
  [sb_SSTATE, sb_PE, sb_VALID, sb_GOOD, sb_PROG_TIME, sb_SCRUB_BITS]

-- blk: block entry (Table 9.8)
def blk_KIND : Fld := ⟨.t_blk, 62, 2, 0, .ro⟩
def blk_READS : Fld := ⟨.t_blk, 0, 32, 0, .ro⟩
def t_blkAll0 : List Fld :=
  [blk_KIND, blk_READS]

-- func: function entry (ch. 15)
def func_BAR4_EN : Fld := ⟨.t_func, 63, 1, 0, .rw⟩
def func_TENANT : Fld := ⟨.t_func, 0, 12, 0, .rw⟩
def t_funcAll0 : List Fld :=
  [func_BAR4_EN, func_TENANT]

-- seg: BAR4 segment entry (ch. 15)
def seg_V : Fld := ⟨.t_seg, 63, 1, 0, .rw⟩
def seg_FINAL : Fld := ⟨.t_seg, 62, 1, 0, .rw⟩
def seg_RTYPE : Fld := ⟨.t_seg, 60, 2, 0, .rw⟩
def seg_FPA_PAGE : Fld := ⟨.t_seg, 0, 27, 0, .rw⟩
def t_segAll0 : List Fld :=
  [seg_V, seg_FINAL, seg_RTYPE, seg_FPA_PAGE]

-- crash: crash entry (ch. 16)
def crash_TIME : Fld := ⟨.t_crash, 0, 64, 0, .ro⟩
def crash_SOURCE : Fld := ⟨.t_crash, 8*8+0, 8, 0, .ro⟩
def crash_LEVEL : Fld := ⟨.t_crash, 8*8+8, 8, 0, .ro⟩
def crash_STAGE : Fld := ⟨.t_crash, 8*8+16, 8, 0, .ro⟩
def crash_FW_SLOT : Fld := ⟨.t_crash, 8*8+24, 1, 0, .ro⟩
def crash_RECOVERY : Fld := ⟨.t_crash, 8*8+25, 1, 0, .ro⟩
def crash_FIRST_PAGE : Fld := ⟨.t_crash, 8*8+32, 16, 0, .ro⟩
def crash_FAIL_CODE : Fld := ⟨.t_crash, 8*8+48, 8, 0, .ro⟩
def t_crashAll0 : List Fld :=
  [crash_TIME, crash_SOURCE, crash_LEVEL, crash_STAGE, crash_FW_SLOT, crash_RECOVERY, crash_FIRST_PAGE,
   crash_FAIL_CODE]

-- log: debug log entry (R519)
def log_TIME : Fld := ⟨.t_log, 0, 64, 0, .ro⟩
def log_OP : Fld := ⟨.t_log, 8*8+0, 8, 0, .ro⟩
def log_CODE : Fld := ⟨.t_log, 8*8+8, 8, 0, .ro⟩
def log_LEVEL : Fld := ⟨.t_log, 8*8+16, 8, 0, .ro⟩
def log_TILE : Fld := ⟨.t_log, 8*8+24, 8, 0, .ro⟩
def log_SESSION : Fld := ⟨.t_log, 8*8+32, 16, 0, .ro⟩
def t_logAll0 : List Fld :=
  [log_TIME, log_OP, log_CODE, log_LEVEL, log_TILE, log_SESSION]

-- hist: histogram entry (R544)
def hist_V : Fld := ⟨.t_hist, 63, 1, 0, .rw⟩
def hist_QUEUE : Fld := ⟨.t_hist, 20, 20, 0, .rw⟩
def hist_BASE_US : Fld := ⟨.t_hist, 0, 20, 0, .rw⟩
def hist_BIN0 : Fld := ⟨.t_hist, 8*8+0, 32, 0, .ro⟩
def hist_BIN1 : Fld := ⟨.t_hist, 8*8+32, 32, 0, .ro⟩
def hist_BIN2 : Fld := ⟨.t_hist, 16*8+0, 32, 0, .ro⟩
def hist_BIN3 : Fld := ⟨.t_hist, 16*8+32, 32, 0, .ro⟩
def hist_BIN4 : Fld := ⟨.t_hist, 24*8+0, 32, 0, .ro⟩
def hist_BIN5 : Fld := ⟨.t_hist, 24*8+32, 32, 0, .ro⟩
def hist_BIN6 : Fld := ⟨.t_hist, 32*8+0, 32, 0, .ro⟩
def hist_BIN7 : Fld := ⟨.t_hist, 32*8+32, 32, 0, .ro⟩
def hist_BIN8 : Fld := ⟨.t_hist, 40*8+0, 32, 0, .ro⟩
def hist_BIN9 : Fld := ⟨.t_hist, 40*8+32, 32, 0, .ro⟩
def hist_BIN10 : Fld := ⟨.t_hist, 48*8+0, 32, 0, .ro⟩
def hist_BIN11 : Fld := ⟨.t_hist, 48*8+32, 32, 0, .ro⟩
def hist_BIN12 : Fld := ⟨.t_hist, 56*8+0, 32, 0, .ro⟩
def hist_BIN13 : Fld := ⟨.t_hist, 56*8+32, 32, 0, .ro⟩
def hist_BIN14 : Fld := ⟨.t_hist, 64*8+0, 32, 0, .ro⟩
def hist_BIN15 : Fld := ⟨.t_hist, 64*8+32, 32, 0, .ro⟩
def t_histAll0 : List Fld :=
  [hist_V, hist_QUEUE, hist_BASE_US, hist_BIN0, hist_BIN1, hist_BIN2, hist_BIN3, hist_BIN4, hist_BIN5, hist_BIN6,
   hist_BIN7, hist_BIN8, hist_BIN9, hist_BIN10, hist_BIN11, hist_BIN12, hist_BIN13, hist_BIN14, hist_BIN15]

-- members: member list entry (R434)
def members_V : Fld := ⟨.t_members, 63, 1, 0, .rw⟩
def members_COUNT : Fld := ⟨.t_members, 0, 7, 0, .rw⟩
def members_NODE0 : Fld := ⟨.t_members, 8*8+0, 16, 0, .rw⟩
def members_NODE1 : Fld := ⟨.t_members, 8*8+16, 16, 0, .rw⟩
def members_NODE2 : Fld := ⟨.t_members, 8*8+32, 16, 0, .rw⟩
def members_NODE3 : Fld := ⟨.t_members, 8*8+48, 16, 0, .rw⟩
def members_NODE4 : Fld := ⟨.t_members, 16*8+0, 16, 0, .rw⟩
def members_NODE5 : Fld := ⟨.t_members, 16*8+16, 16, 0, .rw⟩
def members_NODE6 : Fld := ⟨.t_members, 16*8+32, 16, 0, .rw⟩
def members_NODE7 : Fld := ⟨.t_members, 16*8+48, 16, 0, .rw⟩
def members_NODE8 : Fld := ⟨.t_members, 24*8+0, 16, 0, .rw⟩
def members_NODE9 : Fld := ⟨.t_members, 24*8+16, 16, 0, .rw⟩
def members_NODE10 : Fld := ⟨.t_members, 24*8+32, 16, 0, .rw⟩
def members_NODE11 : Fld := ⟨.t_members, 24*8+48, 16, 0, .rw⟩
def members_NODE12 : Fld := ⟨.t_members, 32*8+0, 16, 0, .rw⟩
def members_NODE13 : Fld := ⟨.t_members, 32*8+16, 16, 0, .rw⟩
def members_NODE14 : Fld := ⟨.t_members, 32*8+32, 16, 0, .rw⟩
def members_NODE15 : Fld := ⟨.t_members, 32*8+48, 16, 0, .rw⟩
def members_NODE16 : Fld := ⟨.t_members, 40*8+0, 16, 0, .rw⟩
def members_NODE17 : Fld := ⟨.t_members, 40*8+16, 16, 0, .rw⟩
def members_NODE18 : Fld := ⟨.t_members, 40*8+32, 16, 0, .rw⟩
def members_NODE19 : Fld := ⟨.t_members, 40*8+48, 16, 0, .rw⟩
def members_NODE20 : Fld := ⟨.t_members, 48*8+0, 16, 0, .rw⟩
def members_NODE21 : Fld := ⟨.t_members, 48*8+16, 16, 0, .rw⟩
def members_NODE22 : Fld := ⟨.t_members, 48*8+32, 16, 0, .rw⟩
def members_NODE23 : Fld := ⟨.t_members, 48*8+48, 16, 0, .rw⟩
def members_NODE24 : Fld := ⟨.t_members, 56*8+0, 16, 0, .rw⟩
def members_NODE25 : Fld := ⟨.t_members, 56*8+16, 16, 0, .rw⟩
def members_NODE26 : Fld := ⟨.t_members, 56*8+32, 16, 0, .rw⟩
def members_NODE27 : Fld := ⟨.t_members, 56*8+48, 16, 0, .rw⟩
def members_NODE28 : Fld := ⟨.t_members, 64*8+0, 16, 0, .rw⟩
def members_NODE29 : Fld := ⟨.t_members, 64*8+16, 16, 0, .rw⟩
def members_NODE30 : Fld := ⟨.t_members, 64*8+32, 16, 0, .rw⟩
def members_NODE31 : Fld := ⟨.t_members, 64*8+48, 16, 0, .rw⟩
def members_NODE32 : Fld := ⟨.t_members, 72*8+0, 16, 0, .rw⟩
def members_NODE33 : Fld := ⟨.t_members, 72*8+16, 16, 0, .rw⟩
def members_NODE34 : Fld := ⟨.t_members, 72*8+32, 16, 0, .rw⟩
def members_NODE35 : Fld := ⟨.t_members, 72*8+48, 16, 0, .rw⟩
def members_NODE36 : Fld := ⟨.t_members, 80*8+0, 16, 0, .rw⟩
def members_NODE37 : Fld := ⟨.t_members, 80*8+16, 16, 0, .rw⟩
def members_NODE38 : Fld := ⟨.t_members, 80*8+32, 16, 0, .rw⟩
def members_NODE39 : Fld := ⟨.t_members, 80*8+48, 16, 0, .rw⟩
def members_NODE40 : Fld := ⟨.t_members, 88*8+0, 16, 0, .rw⟩
def members_NODE41 : Fld := ⟨.t_members, 88*8+16, 16, 0, .rw⟩
def members_NODE42 : Fld := ⟨.t_members, 88*8+32, 16, 0, .rw⟩
def members_NODE43 : Fld := ⟨.t_members, 88*8+48, 16, 0, .rw⟩
def members_NODE44 : Fld := ⟨.t_members, 96*8+0, 16, 0, .rw⟩
def members_NODE45 : Fld := ⟨.t_members, 96*8+16, 16, 0, .rw⟩
def members_NODE46 : Fld := ⟨.t_members, 96*8+32, 16, 0, .rw⟩
def members_NODE47 : Fld := ⟨.t_members, 96*8+48, 16, 0, .rw⟩
def members_NODE48 : Fld := ⟨.t_members, 104*8+0, 16, 0, .rw⟩
def members_NODE49 : Fld := ⟨.t_members, 104*8+16, 16, 0, .rw⟩
def members_NODE50 : Fld := ⟨.t_members, 104*8+32, 16, 0, .rw⟩
def members_NODE51 : Fld := ⟨.t_members, 104*8+48, 16, 0, .rw⟩
def members_NODE52 : Fld := ⟨.t_members, 112*8+0, 16, 0, .rw⟩
def members_NODE53 : Fld := ⟨.t_members, 112*8+16, 16, 0, .rw⟩
def members_NODE54 : Fld := ⟨.t_members, 112*8+32, 16, 0, .rw⟩
def members_NODE55 : Fld := ⟨.t_members, 112*8+48, 16, 0, .rw⟩
def members_NODE56 : Fld := ⟨.t_members, 120*8+0, 16, 0, .rw⟩
def members_NODE57 : Fld := ⟨.t_members, 120*8+16, 16, 0, .rw⟩
def members_NODE58 : Fld := ⟨.t_members, 120*8+32, 16, 0, .rw⟩
def members_NODE59 : Fld := ⟨.t_members, 120*8+48, 16, 0, .rw⟩
def members_NODE60 : Fld := ⟨.t_members, 128*8+0, 16, 0, .rw⟩
def members_NODE61 : Fld := ⟨.t_members, 128*8+16, 16, 0, .rw⟩
def members_NODE62 : Fld := ⟨.t_members, 128*8+32, 16, 0, .rw⟩
def members_NODE63 : Fld := ⟨.t_members, 128*8+48, 16, 0, .rw⟩
def t_membersAll0 : List Fld :=
  [members_V, members_COUNT, members_NODE0, members_NODE1, members_NODE2, members_NODE3, members_NODE4,
   members_NODE5, members_NODE6, members_NODE7, members_NODE8, members_NODE9, members_NODE10, members_NODE11,
   members_NODE12, members_NODE13, members_NODE14, members_NODE15, members_NODE16, members_NODE17,
   members_NODE18, members_NODE19, members_NODE20, members_NODE21, members_NODE22, members_NODE23,
   members_NODE24, members_NODE25, members_NODE26, members_NODE27, members_NODE28, members_NODE29,
   members_NODE30, members_NODE31, members_NODE32, members_NODE33, members_NODE34, members_NODE35,
   members_NODE36, members_NODE37, members_NODE38, members_NODE39, members_NODE40, members_NODE41,
   members_NODE42, members_NODE43, members_NODE44, members_NODE45, members_NODE46, members_NODE47,
   members_NODE48, members_NODE49, members_NODE50, members_NODE51, members_NODE52, members_NODE53,
   members_NODE54, members_NODE55, members_NODE56, members_NODE57]
def t_membersAll1 : List Fld :=
  [members_NODE58, members_NODE59, members_NODE60, members_NODE61, members_NODE62, members_NODE63]

-- nor_stage: NOR staging word (R488)
def nor_stage_DATA : Fld := ⟨.t_nor_stage, 0, 64, 0, .rw⟩
def t_nor_stageAll0 : List Fld :=
  [nor_stage_DATA]

-- report: attestation report bytes (R513)
def report_DATA : Fld := ⟨.t_report, 0, 2048, 0, .ro⟩
def t_reportAll0 : List Fld :=
  [report_DATA]

-- attest_pub: attestation public key (R509)
def attest_pub_DATA : Fld := ⟨.t_attest_pub, 0, 480, 0, .ro⟩
def t_attest_pubAll0 : List Fld :=
  [attest_pub_DATA]

-- token_area: debug token bytes (Table 17.6)
def token_area_DATA : Fld := ⟨.t_token_area, 0, 2048, 0, .rw⟩
def t_token_areaAll0 : List Fld :=
  [token_area_DATA]

/-- Every field of a space. -/
def all : Space → List Fld
  | .xlt => xltAll0
  | .win => winAll0
  | .swc => swcAll0
  | .fqp => fqpAll0
  | .slough => sloughAll0
  | .flock => flockAll0
  | .fen => fenAll0
  | .pred => predAll0
  | .sync => syncAll0
  | .hbm => hbmAll0
  | .crypt => cryptAll0
  | .prot => protAll0
  | .tier => tierAll0
  | .peat => peatAll0
  | .pch => pchAll0
  | .qmgr => qmgrAll0
  | .tile => tileAll0
  | .cbw => cbwAll0
  | .emb => embAll0
  | .vse => vseAll0
  | .wst => wstAll0
  | .pcie => pcieAll0
  | .glb => glbAll0
  | .pwr => pwrAll0
  | .sec => secAll0
  | .dbg => dbgAll0
  | .time => timeAll0
  | .mgmt => mgmtAll0
  | .hdr => hdrAll0
  | .tbl => tblAll0
  | .t_xlt_entry => t_xlt_entryAll0
  | .t_tenant_ctx => t_tenant_ctxAll0
  | .t_window => t_windowAll0
  | .t_route => t_routeAll0
  | .t_mcast => t_mcastAll0
  | .t_dir => t_dirAll0
  | .t_monitor => t_monitorAll0
  | .t_dbg_log => t_dbg_logAll0
  | .t_region => t_regionAll0
  | .t_place => t_placeAll0
  | .t_map => t_mapAll0
  | .t_frame => t_frameAll0
  | .t_lmap => t_lmapAll0
  | .t_qctx => t_qctxAll0
  | .t_table => t_tableAll0
  | .t_index => t_indexAll0
  | .t_stream => t_streamAll0
  | .t_qmark => t_qmarkAll0
  | .t_retire_log => t_retire_logAll0
  | .t_ue_log => t_ue_logAll0
  | .t_pred => t_predAll0
  | .t_member => t_memberAll0
  | .t_slot => t_slotAll0
  | .t_pin => t_pinAll0
  | .t_sb => t_sbAll0
  | .t_blk => t_blkAll0
  | .t_func => t_funcAll0
  | .t_seg => t_segAll0
  | .t_crash => t_crashAll0
  | .t_log => t_logAll0
  | .t_hist => t_histAll0
  | .t_members => t_membersAll0 ++ t_membersAll1
  | .t_nor_stage => t_nor_stageAll0
  | .t_report => t_reportAll0
  | .t_attest_pub => t_attest_pubAll0
  | .t_token_area => t_token_areaAll0

end Reg
end Sys2Proof.Machine
end

