-- ==== Sys2Proof/Machine/Sparse.lean ====
section
/-! DEFINITION. Sparse maps in one canonical form: a list of (key, value) pairs with strictly rising keys, no
value equal to what an unlisted key reads as. Registers, tables and memories are held this way, so that equal contents
are equal data. -/
namespace Sys2Proof.Machine

variable {α : Type}

/-- The value at a key; an unlisted key reads as `d`. -/
def Sparse.get (d : α) : List (Nat × α) → Nat → α
  | [], _ => d
  | (k, v) :: m, a => if a = k then v else Sparse.get d m a

/-- Put a pair in its place. -/
def Sparse.insert (a : Nat) (v : α) : List (Nat × α) → List (Nat × α)
  | [] => [(a, v)]
  | (k, u) :: m => if a < k then (a, v) :: (k, u) :: m else if a = k then (k, v) :: m else (k, u) :: Sparse.insert a v m

/-- Put `v` at a key, keeping the form: writing what an unlisted key reads as removes the entry. -/
def Sparse.set [DecidableEq α] (d : α) (m : List (Nat × α)) (a : Nat) (v : α) : List (Nat × α) :=
  if v = d then m.filter fun e => decide (e.1 ≠ a) else Sparse.insert a v m

/-- Every key of the list is above `a`. -/
def Sparse.above (a : Nat) : List (Nat × α) → Bool
  | [] => true
  | (k, _) :: _ => decide (a < k)

/-- The canonical form holds. -/
def Sparse.wf [DecidableEq α] (d : α) : List (Nat × α) → Bool
  | [] => true
  | (k, v) :: m => decide (v ≠ d) && Sparse.above k m && Sparse.wf d m

end Sys2Proof.Machine
end

