-- ==== Sys2Proof/Machine/Work.lean ====
section
/-! DEFINITION. The work the part's threads have in hand: descriptors of queues, stages of service graphs and chunks served
for peers. A descriptor's progress is the list of its operations' outcomes: what it does next is a function of them. -/
namespace Sys2Proof.Machine

/-- Where a descriptor or chunk stands. -/
inductive Phase where
  | fetching     -- its ring read is out (R328)
  | fetched      -- read and checked (R329), not started
  | running      -- its operations are going on
  | ended        -- its work has ended: completion is to follow (R331)
  | recording    -- its record is being written
  | signalling   -- its record landed, its signal is out
  | dropped      -- a queue reset took it: its issued lines end and nothing follows (Table 10.7)
  deriving DecidableEq, Repr

/-- An operation's outcome: status and line. -/
structure Res where
  op : Nat
  status : Nat
  data : Line := 0
  deriving DecidableEq, Repr

/-- Where a chunk stands (R383 to R387): it waits for a channel, or for its turn where it is served here; its lines are out; it
has ended. -/
inductive CPhase where
  | waiting | sent | done
  deriving DecidableEq, Repr

/-- A chunk of a work. `here`: its shard is this part's own, or this part serves it for a peer; `keys`: its entries; `lines`: its
request; `epoch`: the tenant epoch it was sent under, `retry` 1 once reissued (R387); `pos`: the entry an update has come to;
`missing`, `rep`: what came back. -/
structure Chunk where
  no : Nat
  here : Bool := false
  shard : Nat := 0
  peer : Nat := 0
  chan : Nat := 0
  serial : Nat := 0
  epoch : Nat := 0
  retry : Nat := 0
  phase : CPhase := .waiting
  status : Nat := 0
  keys : List Nat := []
  lines : List Line := []
  pos : Nat := 0
  missing : Nat := 0
  rep : List (Nat × Line) := []
  deriving DecidableEq, Repr

/-- A candidate or result of a search (R404, R408). -/
structure Cand where
  id : Nat
  score : Nat
  list : Nat := 0
  deriving DecidableEq, Repr

/-- A query of a search or re-rank: the round it is in and whether that round's chunks are in, lists taken, what the finished
rounds found (R410). -/
structure Query where
  q : Nat
  round : Nat := 0
  probed : Nat := 0
  chunks : List Nat := []
  scanned : Nat := 0
  passing : Nat := 0
  best : List Cand := []
  status : Option Nat := none
  deriving DecidableEq, Repr

/-- A piece of work. `kind` 0: descriptor `index` of `queue`; 1: stage `stage` of the graph `parent`; 2: a chunk served
for a peer; 3: upkeep of the part; 4: a wait of a firmware thread (R202). `desc`: its 64 bytes. `snap`: numbers fixed when it started. `out`: operations
outstanding; `hist`: outcomes, oldest first. `watch`: the monitor it waits on; `since`: when a timer of it started; `fault`: an access made for it was
refused, and it ends INTERNAL (R312); `entries`: tracking entries its ranges hold once it has started (R192). `pins`: slots of tables (engine 0) and indexes (engine 1) it holds, as (engine, entry,
slot) (R392, R409). -/
structure Work where
  id : Nat
  kind : Nat := 0
  tenant : Nat := 0
  queue : Nat := 0
  index : Nat := 0
  tile : Nat := 0
  thread : Nat := 0
  parent : Nat := 0
  stage : Nat := 0
  desc : Nat := 0
  phase : Phase := .fetching
  snap : List Nat := []
  out : List Nat := []
  hist : List Res := []
  status : Nat := 0
  detail : Option Nat := none
  deciding : Nat := 15
  watch : Option Nat := none
  since : Nat := 0
  fault : Bool := false
  entries : Nat := 0
  pins : List (Nat × Nat × Nat) := []
  chunks : List Chunk := []
  queries : List Query := []
  deriving DecidableEq, Repr

/-- A queue bound to a thread (R327): fetches since it was bound, and whether it has stopped fetching (R328). -/
structure Bound where
  queue : Nat
  tile : Nat
  thread : Nat
  fetched : Nat := 0
  closing : Bool := false
  deriving DecidableEq, Repr

/-- A channel of an exchange aperture toward a peer (R382 to R387, R413). `eng` 0 embedding, 1 search. `req`: lines of the
peer's request chunk, `reqFinal` once its last line was taken, `serving` while it is served. `rep`: lines of the reply to the
chunk `wait` (work, chunk, serial) of this part, `trailer` once taken; `waitFrom`: when its FINAL line was acknowledged. -/
structure Chan where
  eng : Nat
  peer : Nat
  chan : Nat
  tenant : Nat := 0
  req : List (Nat × Line) := []
  reqFinal : Bool := false
  serving : Bool := false
  rep : List (Nat × Line) := []
  trailer : Option Line := none
  wait : Option (Nat × Nat × Nat) := none
  waitFrom : Option Nat := none
  deriving DecidableEq, Repr

/-- A chunk of a weight stream that has started (R440), with the window its source lines are read into (R442): `sent` once its lines went out, `acked`: members that have it, `resends`:
members it is being resent to, with which resend (R438). -/
structure SChunk where
  k : Nat
  win : Option Nat := none
  sent : Bool := false
  acked : List Nat := []
  resends : List (Nat × Nat) := []
  deriving DecidableEq, Repr

/-- An engine operation on one line or word: translated when issued; a fault ends it at once with no frame (R38). `bulk`: a line
of a Mule; `cls`: in the bulk class wherever it goes (R417). -/
structure Ask where
  op : Nat
  opc : Nat
  va : Nat
  arg : Nat := 0
  data : Line := 0
  bulk : Bool := false
  final : Bool := false
  right : Nat := 0
  cls : Bool := false
  deriving DecidableEq, Repr

/-- An access that a thread's program has reached (R309): `fr`, a frame it is sent as without translation;
`retried`: reached again under R51. -/
structure Reach where
  work : Nat
  tile : Nat
  thread : Nat
  ask : Ask
  fr : Option Frame := none
  retried : Bool := false
  deriving DecidableEq, Repr

/-- A weight stream in its slot (Table 14.6). `next`: the next chunk to start; `last`: when one of it last started. -/
structure WStream where
  slot : Nat
  work : Nat
  next : Nat
  last : Option Nat := none
  open_ : List SChunk := []
  deriving DecidableEq, Repr

/-- Bits [hi:lo] of the field at a byte of a descriptor. -/
def dfield (d byte hi lo : Nat) : Nat := (d >>> (8 * byte + lo)) % 2 ^ (hi + 1 - lo)

/-- The queue manager and the threads. `reach`: accesses that threads have reached and not issued; `turn`: the tile that
issued last, `turns`: of each tile the thread that did (R309). `sedge`: bytes of the tiles' Sedge that were written, as tile × 2^21 + offset, each held as one more
than it is; `held`: (tile, access) waiting there (R313, R316); `handover`: (tile, bank, owner) not yet in effect (R313). `waiting`: queues waiting for a thread, with when each began to; `monWork`: the work a
monitor wakes; `monSeen`: what each monitor's word was at its arming or the last commit since (R204); `stopping`: a queue command waiting for descriptors in progress (queue, operation); `tenantRst`: GLB_RST_CMD
`tenant` waiting likewise (tenant); `rstDbg`: that it came as a DBG_RST_CMD (R521); `halted`: tiles halted under R517; `updQ`: works that update a row, by table × 2^64 + key, in turn
(R390); `passed`: slots whose version NEWEST has exceeded, with since when (R394); `streams`: weight streams running,
`wstLast`, `wstTurn`: when and in which slot a chunk last started (R440, R441). -/
structure Engines where
  nextWork : Nat := 1
  works : List Work := []
  bound : List Bound := []
  waiting : List (Nat × Nat) := []
  monWork : List (Nat × Nat) := []
  monSeen : List (Nat × Nat) := []
  stopping : Option (Nat × Nat) := none
  tenantRst : Option Nat := none
  rstDbg : Bool := false
  halted : List Nat := []
  chans : List Chan := []
  updQ : List (Nat × Nat) := []
  passed : List (Nat × Nat × Nat × Nat) := []
  streams : List WStream := []
  wstLast : Option Nat := none
  wstTurn : Nat := 0
  reach : List Reach := []
  turn : Nat := 0
  turns : List (Nat × Nat) := []
  sedge : List (Nat × Nat) := []
  held : List (Nat × SedgeAcc) := []
  handover : List (Nat × Nat × Nat) := []
  deriving DecidableEq, Repr

end Sys2Proof.Machine
end

