-- ==== Sys2Proof/Machine/Chip.lean ====
section
/-! DEFINITION. The part's state but for its fuses and the queue of commands: the field store of registers and tables,
the time base and the hidden state of each block. -/
namespace Sys2Proof.Machine

/-- Who originated a request of the part itself (R103). -/
inductive Agent where
  | work (w op : Nat)            -- an engine, mover or queue thread: operation `op` of work item `w`
  | bar4 (id piece : Nat)        -- frame `piece` of a BAR4 TLP
  | mirror (req region : Nat)    -- a mirror write of a request's commit (R244)
  | parity (req region : Nat)    -- a parity atomic of a request's commit (R249)
  | repair (req region ra : Nat) -- the partner's copy for a request (R247)
  | scrub (region ra : Nat)      -- the partner's copy for scrub (R235)
  | prot (region line : Nat)     -- a PROT command's own traffic
  | beacon (k : Nat)
  deriving DecidableEq, Repr

/-- A request the part originated. `sent`: its first sending; `va`, `right`: what it was translated from, for R51 (engine
requests); `retried`: reissued under R51. `src`, `tile`: its competitor in arbitration (Table 4.8); `mule`: the Mule whose line it is; `cls`: it goes in the bulk class
wherever it goes; `mc`: a multicast
FINAL line, outstanding toward one member (R433). -/
structure Out where
  fr : Frame
  agent : Agent
  sent : Nat := 0
  va : Option (Nat × Nat) := none
  retried : Bool := false
  src : Nat := 32
  tile : Nat := 0
  mule : Option Nat := none
  cls : Bool := false
  mc : Bool := false
  deriving DecidableEq, Repr

/-- The requests the part originates. `seqs`: next SEQ by stream; `out`: outstanding; `waiting`: unsent; `quar`:
(node, TAG, since) not to be reused yet (R104); `results`: outcomes not yet taken by their agents. -/
structure Orig where
  seqs : List (Nat × Nat) := []
  out : List Out := []
  waiting : List Out := []
  quar : List (Nat × Nat × Nat) := []
  results : List (Agent × Nat × Line) := []
  deriving DecidableEq, Repr

/-- What the part gives the outside world beside frames: each command adds what it drives or sends. -/
inductive Emit where
  | mgmt (ip port op width seq offset status data : Nat)     -- an answer datagram (Table 19.8)
  | arp (ip mac : Nat)                               -- an ARP answer (R573)
  | i3c (offset data : Nat) (ok : Bool)              -- an answer on the sideband (R522)
  | mctp (data : List Nat)                           -- an answer to an MCTP control command (R522)
  | bar (offset width data : Nat)                    -- a BAR0 read completion
  | msix (func vector addr data : Nat)               -- an MSI-X message: the write of its table entry (R451)
  | cpl (func id status : Nat) (data : List Nat)     -- a BAR4 completion and the bytes it carries
  | lower (addr : Nat) (data : List Line)            -- a block, or its trailer, written to host memory (R462)
  | hostRead (addr len : Nat)                        -- a read TLP to host memory (R461)
  | peatAsk (lbn what : Nat)                         -- a block or sub-block asked of Peat
  | bar2 (func off len data : Nat)                   -- a BAR2 read completion (R450)
  | fc (func : Nat)                                  -- a TLP's flow-control credits are returned (R457)
  | crs (func : Nat)                                 -- Configuration Request Retry Status (R572)
  | pps                                              -- PPS_OUT rises (R530)
  | ppsFall                                          -- PPS_OUT falls (R530)
  | ptpDelay (p2p : Bool)                            -- a Delay_Req or Pdelay_Req message (R527)
  | avs (mv : Nat)                                   -- an AVSBus voltage command (R495)
  | ctrlFlit (port : Nat) (f : Flit)                 -- the control flit of bring-up (R70)
  | flash (op chan a b : Nat)                        -- a NAND read or erase
  | program (chan die page : Nat) (data : List Line) -- a multi-plane program: its 16 codewords of 72 lines (R280, R281)
  | beacon (line : Line)                             -- a beacon line (R538)
  | sedge (tile party data : Nat)                    -- what a read of Sedge gave a party (R311, R312)
  deriving DecidableEq, Repr

/-- The part, without fuses and queue. `fs`: registers and tables (values XOR reset, by `Fld.key`); `t`: the time counter
in 2^-32 ns; `el`: elapsed time in 2^-32 ns (R526); `held`: TCXO_IN lost (R582); `freeCtr`: draws of free values made. -/
structure Blk where
  fs : List (Nat × Nat) := []
  t : Nat := 0
  el : Nat := 0
  held : Bool := false
  freeCtr : Nat := 0
  ports : List Port := List.replicate 24 {}
  sw : Switch := {}
  home : Home := {}
  store : Store := {}
  tier : Tier := {}
  orig : Orig := {}
  eng : Engines := {}
  prot : Option ProtJob := none
  peat : Peat := {}
  pcie : Pcie := {}
  aon : Aon := {}
  emits : List Emit := []
  deriving DecidableEq, Repr

end Sys2Proof.Machine
end

