-- ==== Sys2Proof/Machine/Ops.lean ====
section
/-! DEFINITION. The operations every block shares: fields and counters, pages, time, errors and interrupts, command
registers, free values. -/
namespace Sys2Proof.Machine

/-! ### Fields -/

/-- The value of a field of instance or entry `i`. -/
def Blk.get (b : Blk) (f : Fld) (i : Nat := 0) : Nat := (Sparse.get 0 b.fs (f.key i) ^^^ f.rst) % 2 ^ f.w

/-- A one-bit field. -/
def Blk.flag (b : Blk) (f : Fld) (i : Nat := 0) : Bool := b.get f i == 1

/-- Set a field, cut to its width. -/
def Blk.put (b : Blk) (f : Fld) (v : Nat) (i : Nat := 0) : Blk :=
  { b with fs := Sparse.set 0 b.fs (f.key i) (v % 2 ^ f.w ^^^ f.rst) }

/-- Set a one-bit field. -/
def Blk.putB (b : Blk) (f : Fld) (v : Bool) (i : Nat := 0) : Blk := b.put f (b2n v) i

/-- Set the fields of one entry, in order. -/
def Blk.puts (b : Blk) (i : Nat) : List (Fld × Nat) → Blk
  | [] => b
  | (f, v) :: l => (b.put f v i).puts i l

/-- Clear every field of one entry of a space to its reset value. -/
def Blk.clearEntry (b : Blk) (sp : Space) (i : Nat) : Blk :=
  { b with fs := b.fs.filter fun e => decide (e.1 / 2 ^ 16 ≠ sp.code * 2 ^ 44 + i) }

/-- Clear every field of a space to its reset value. -/
def Blk.clearSpace (b : Blk) (sp : Space) : Blk :=
  { b with fs := b.fs.filter fun e => decide (e.1 / 2 ^ 60 ≠ sp.code) }

/-- The entries of a space that hold a value other than reset in field `f`. -/
def Blk.entriesWith (b : Blk) (f : Fld) : List Nat :=
  b.fs.filterMap fun e =>
    if e.1 / 2 ^ 60 = f.sp.code ∧ e.1 % 2 ^ 16 = f.bit then some (e.1 / 2 ^ 16 % 2 ^ 44) else none

/-! ### Time (R523, R526) -/

/-- The time counter in nanoseconds. -/
def Blk.now (b : Blk) : Nat := b.t / 2 ^ 32 % 2 ^ 64

/-- A span of elapsed time in nanoseconds. -/
def ns (n : Nat) : Nat := n * 2 ^ 32
/-- A span in microseconds. -/
def us (n : Nat) : Nat := ns (n * 1000)
/-- A span in milliseconds. -/
def ms (n : Nat) : Nat := ns (n * 1000000)
/-- A span in seconds. -/
def secs (n : Nat) : Nat := ns (n * 1000000000)

/-- A timer of length `len` started at `start` has run out. -/
def Blk.past (b : Blk) (start len : Nat) : Bool := decide (start + len ≤ b.el)

/-! ### Free values -/

/-- A value the spec leaves open, below `n`. -/
def Blk.draw (b : Blk) (n : Nat) : Nat × Blk := (Config.free b.freeCtr % n, { b with freeCtr := b.freeCtr + 1 })

/-- One element of a list, which one the spec does not say. -/
def Blk.pick {α : Type} (b : Blk) (d : α) : List α → α × Blk
  | [] => (d, b)
  | [x] => (x, b)
  | l => (nth d l (Config.free b.freeCtr % l.length), { b with freeCtr := b.freeCtr + 1 })

/-! ### Counters (R536, R537) -/

/-- One more event in a statistics counter: COUNT at bit 0, OVF at bit 63 of the same register. -/
def Blk.countN (b : Blk) (f : Fld) (n : Nat) (i : Nat := 0) : Blk :=
  let ovf : Fld := { f with bit := f.bit + 63, w := 1, acc := .w1c }
  if b.get f i + n < 2 ^ 48 then b.put f (b.get f i + n) i
  else (b.put f (2 ^ 48 - 1) i).put ovf 1 i

/-- One more event in a statistics counter. -/
def Blk.count (b : Blk) (f : Fld) (i : Nat := 0) : Blk := b.countN f 1 i

/-- A high-water mark: raise it to the present value. -/
def Blk.mark (b : Blk) (f : Fld) (v : Nat) : Blk := if b.get f < v then b.put f v else b

/-! ### Pages (Table 19.1) -/

namespace Pg
def glb : Nat := 0
def pwr : Nat := 1
def sec : Nat := 2
def time : Nat := 3
def mgmt : Nat := 4
def pcie : Nat := 8
def swc : Nat := 0x20
def flock : Nat := 0x21
def slough : Nat := 0x22
def fen : Nat := 0x30
def pred : Nat := 0x31
def xlt : Nat := 0x40
def win : Nat := 0x41
def hbm (n : Nat) : Nat := 0x50 + n
def crypt : Nat := 0x60
def prot : Nat := 0x61
def tier : Nat := 0x70
def peat : Nat := 0x71
def qmgr : Nat := 0x90
def sync : Nat := 0xA0
def emb : Nat := 0xB0
def vse : Nat := 0xB1
def wst : Nat := 0xB2
def tile (n : Nat) : Nat := 0x1000 + 16 * n
def dbg : Nat := 0x2000
/-- Pages of ports have numbers of their own: the numbers 0x20 to 0x22 name SWC, FLOCK and SLOUGH (log entry 5). -/
def fqp (n : Nat) : Nat := 0x4000 + n
/-- Pages of flash channels have numbers of their own: the number 0x90 names QMGR (log entry 5). -/
def pch (n : Nat) : Nat := 0x5000 + n
end Pg

/-- The classes the error bits of a page take at reset, lowest bit first (the error tables of the chapters). -/
def pageClasses (p : Nat) : List Nat :=
  if p = Pg.glb then [0, 0, 0, 3, 0]
  else if p = Pg.pwr then [0, 0, 3, 0]
  else if p = Pg.sec then [1, 2, 3, 1]
  else if p = Pg.time then [0, 2, 0, 0]
  else if p = Pg.mgmt then [0, 2, 3, 0, 3]
  else if p = Pg.pcie then [1, 0, 0, 1, 2]
  else if p = Pg.swc then [1, 0, 1, 1, 1]
  else if p = Pg.slough then [0, 1, 1]
  else if p = Pg.fen then [1, 1, 1, 1, 1, 0, 1, 0]
  else if p = Pg.xlt then [0, 0, 1]
  else if p = Pg.win then [0, 1, 1, 3, 0]
  else if 0x50 ≤ p ∧ p < 0x5C then [1, 3, 0]
  else if p = Pg.crypt then [1]
  else if p = Pg.prot then [1, 1]
  else if p = Pg.tier then [1, 1, 1, 0, 1, 0, 1, 0]
  else if p = Pg.peat then [1, 0, 0, 2, 1, 2, 2, 0, 2, 0]
  else if p = Pg.qmgr then [0, 1, 1, 1, 0]
  else if p = Pg.sync then [1, 0, 0, 0, 1]
  else if p = Pg.emb then [1, 1, 0, 0, 0]
  else if p = Pg.vse then [1, 1, 0, 1, 0, 1, 0, 0]
  else if p = Pg.wst then [0, 1, 1, 0]
  else if p = Pg.dbg then [0, 0, 0]
  else if 0x4000 ≤ p ∧ p < 0x4018 then [2, 0, 0, 1, 1, 1, 2, 0]
  else if 0x1000 ≤ p ∧ p < 0x1600 then [1, 2]
  else []

/-- How many error bits a page defines (PAGE_CAP.ERR_BITS). -/
def errBits (p : Nat) : Nat := (pageClasses p).length

/-- The reset value of ERR_SEVERITY of a page (R532). -/
def classWord : List Nat → Nat
  | [] => 0
  | c :: cs => c + 4 * classWord cs

/-- ERR_SEVERITY of a page. -/
def Blk.severity (b : Blk) (p : Nat) : Nat := b.get Reg.ERR_SEVERITY_CLASS p ^^^ classWord (pageClasses p)

/-- The present class of error bit n of a page (Table 18.3). -/
def Blk.classOf (b : Blk) (p n : Nat) : Nat := b.severity p / 4 ^ n % 4

/-! ### Errors (R533) and interrupts -/

/-- Record one occurrence of error `n` of page `p` with its INFO word (R533). -/
def Blk.errInfo (b : Blk) (p n info : Nat) : Blk :=
  let b := b.put Reg.ERR_STICKY_ERR (b.get Reg.ERR_STICKY_ERR p ||| 2 ^ n) p
  let b := if b.get Reg.ERR_COUNT_COUNT p < 0xFFFF then b.put Reg.ERR_COUNT_COUNT (b.get Reg.ERR_COUNT_COUNT p + 1) p
    else b.put Reg.ERR_COUNT_SAT 1 p
  let b := if b.get Reg.ERR_FIRST_VALID p = 0 ∨ b.get Reg.ERR_FIRST_CLASS p < b.classOf p n then
      b.puts p [(Reg.ERR_FIRST_INFO, info), (Reg.ERR_FIRST_VALID, 1), (Reg.ERR_FIRST_CLASS, b.classOf p n),
        (Reg.ERR_FIRST_BIT, n), (Reg.ERR_FIRST_TIME_TIME, b.now)]
    else b
  if bitAt (b.get Reg.ERR_MASK_MASK p) n then b else b.put Reg.INT_STATUS_ERR 1 p

/-- Record one occurrence of error `n` of page `p`. -/
def Blk.err (b : Blk) (p n : Nat) : Blk := b.errInfo p n 0

/-- A page holds an unmasked device-fatal sticky bit. -/
def Blk.fatalOn (b : Blk) (p : Nat) : Bool :=
  (List.range (errBits p)).any fun n =>
    bitAt (b.get Reg.ERR_STICKY_ERR p) n && !bitAt (b.get Reg.ERR_MASK_MASK p) n && b.classOf p n == 3

/-- The page numbers of Table 19.1, in ascending BAR0 order, by the pages' own numbers. -/
def allPages : List Nat :=
  [Pg.glb, Pg.pwr, Pg.sec, Pg.time, Pg.mgmt, Pg.pcie] ++ (List.range 24).map Pg.fqp ++
  [Pg.swc, Pg.flock, Pg.slough, Pg.fen, Pg.pred, Pg.xlt, Pg.win] ++ (List.range 12).map Pg.hbm ++
  [Pg.crypt, Pg.prot, Pg.tier, Pg.peat] ++ (List.range 32).map Pg.pch ++
  [Pg.qmgr, Pg.sync, Pg.emb, Pg.vse, Pg.wst] ++ (List.range 96).map Pg.tile ++ [Pg.dbg]

/-- Some page holds an unmasked device-fatal sticky bit (R535). -/
def Blk.fatalAny (b : Blk) : Bool := allPages.any b.fatalOn

/-! ### Command registers (R564) -/

/-- A command register's status: DONE, CODE and the page that owns it. -/
structure CmdReg where
  done : Fld
  code : Fld
  page : Nat
  deriving DecidableEq, Repr

/-- The code `ok`. -/
def ok : Nat := 0
def badOp : Nat := 1
def badState : Nat := 2
def badRange : Nat := 3
def overlap : Nat := 4
def busy : Nat := 5
def denied : Nat := 6

/-- A command was accepted and runs on. -/
def Blk.cmdStart (b : Blk) (c : CmdReg) : Blk := (b.put c.done 0).put Reg.PAGE_STATUS_BUSY 1 c.page

/-- The other command of a page with two command registers still runs (the GLB page: resets and NOR). -/
def Blk.otherRuns (b : Blk) (c : CmdReg) : Bool :=
  [Reg.GLB_RST_STATUS_DONE, Reg.GLB_NOR_STATUS_DONE].any fun f => c.page == Pg.glb && f != c.done && b.get f == 0

/-- A command finishes with a code; BUSY clears unless another command of the page is in progress (R564). -/
def Blk.cmdEnd (b : Blk) (c : CmdReg) (code : Nat) : Blk :=
  (((b.put c.code code).put c.done 1).put Reg.PAGE_STATUS_BUSY (if b.otherRuns c then 1 else 0) c.page).put Reg.INT_STATUS_CMD_DONE 1 c.page

/-- A command finishes with a code; a code other than `ok` sets the page's CMD_REJECTED bit `rej`. -/
def Blk.cmdEndRej (b : Blk) (c : CmdReg) (rej code : Nat) : Blk :=
  let b := b.cmdEnd c code
  if code = ok then b else b.err c.page rej

/-- Run a command unless one is in progress: then CODE reads `busy` and nothing else happens, but for the page's
CMD_REJECTED bit `rej` where it has one. -/
def Blk.cmd (b : Blk) (c : CmdReg) (rej : Option Nat) (run : Blk → Blk) : Blk :=
  if b.get c.done = 0 then
    let b := b.put c.code busy
    match rej with
    | some n => b.err c.page n
    | none => b
  else run (b.cmdStart c)

/-! ### Lists of the state -/

/-- Port n. -/
def Blk.port (b : Blk) (n : Nat) : Port := nth {} b.ports n

/-- Change port n. -/
def Blk.setPort (b : Blk) (n : Nat) (f : Port → Port) : Blk := { b with ports := modNth f n b.ports }

/-- Add to what the part drives or sends outside. -/
def Blk.emit (b : Blk) (e : Emit) : Blk := { b with emits := b.emits ++ [e] }

/-- Run an operation for each element in turn. -/
def Blk.each {α : Type} (b : Blk) (l : List α) (f : Blk → α → Blk) : Blk := l.foldl f b

end Sys2Proof.Machine
end

