-- ==== Sys2Proof/Machine/Frames.lean ====
section
/-! DEFINITION. Frames as bytes (Tables 3.5 and 3.6), flits as bytes (Table 3.3), opcodes (Tables 3.8 to 3.11, 5.4),
status codes (Table 0.5) and the frames the part makes. -/
namespace Sys2Proof.Machine

/-! ### Codes -/

namespace St
def ok : Nat := 0x00
def short : Nat := 0x01
def droppedSome : Nat := 0x02
def versionConflict : Nat := 0x03
def revoked : Nat := 0x10
def staleEpoch : Nat := 0x11
def tenantBlocked : Nat := 0x12
def rights : Nat := 0x13
def unmapped : Nat := 0x14
def fenced : Nat := 0x15
def uncorrectable : Nat := 0x20
def tierFail : Nat := 0x21
def tierTimeout : Nat := 0x22
def peerDead : Nat := 0x23
def malformed : Nat := 0x30
def unsupported : Nat := 0x31
def internal : Nat := 0x3F
end St

/-- A status a peer gives, as the part reports it: a code absent from Table 0.5 is INTERNAL (R13). -/
def asStatus (s : Nat) : Nat :=
  if s ≤ 3 ∨ (0x10 ≤ s ∧ s ≤ 0x15) ∨ (0x20 ≤ s ∧ s ≤ 0x23) ∨ s = St.malformed ∨ s = St.unsupported then s else St.internal

/-- The status of an RSP_ERR, which carries no result: a code that promises one (R12) is INTERNAL too (log entry 82). -/
def asFailure (s : Nat) : Nat := if s ≤ St.droppedSome then St.internal else asStatus s

namespace Opc
def rdLine : Nat := 0x01
def rdShared : Nat := 0x02
def rdOwn : Nat := 0x03
def rdLineNa : Nat := 0x04
def rdVol : Nat := 0x05
def wrLine : Nat := 0x10
def wrPartial : Nat := 0x11
def wrLineFinal : Nat := 0x12
def wrSignal : Nat := 0x13
def add : Nat := 0x20
def and : Nat := 0x21
def or : Nat := 0x22
def xor : Nat := 0x23
def swap : Nat := 0x24
def cas : Nat := 0x25
def minS : Nat := 0x26
def maxS : Nat := 0x27
def minU : Nat := 0x28
def maxU : Nat := 0x29
def minF32 : Nat := 0x2A
def maxF32 : Nat := 0x2B
def fadd32 : Nat := 0x2C
def faddExact : Nat := 0x2D
def snpInv : Nat := 0x40
def snpShr : Nat := 0x41
def snpPeek : Nat := 0x42
def grantE : Nat := 0x44
def wbAck : Nat := 0x45
def snpAck : Nat := 0x48
def grantAck : Nat := 0x49
def wbDirty : Nat := 0x4A
def rspData : Nat := 0x60
def rspAck : Nat := 0x61
def rspErr : Nat := 0x62
def retryRsv : Nat := 0x63
end Opc

namespace Tc
def coh : Nat := 0
def req : Nat := 1
def rsp : Nat := 2
def bulk : Nat := 3
end Tc

/-! END values of Table 3.6. -/
namespace Endc
def good : Nat := 0
def badCrc : Nat := 1
def stalled : Nat := 2
def linkDown : Nat := 3
def internal : Nat := 4
end Endc

def isRead (o : Nat) : Bool := 0x01 ≤ o && o ≤ 0x05
def isWrite (o : Nat) : Bool := 0x10 ≤ o && o ≤ 0x13
def isAtomic (o : Nat) : Bool := 0x20 ≤ o && o ≤ 0x2D
def isRequest (o : Nat) : Bool := isRead o || isWrite o || isAtomic o
def isCoherence (o : Nat) : Bool := 0x40 ≤ o && o ≤ 0x5F
def isResponse (o : Nat) : Bool := 0x60 ≤ o && o ≤ 0x63

/-! ### Frames as bytes -/

/-- The 32 header bytes as one number, byte 0 lowest (Table 3.5). -/
def Frame.header (f : Frame) : Nat :=
  f.dst.toNat + f.src.toNat <<< 16 + f.opc.toNat <<< 32 +
  ((f.tc.toNat <<< 6) + (b2n f.pl <<< 5) + (b2n f.final <<< 4) + (b2n f.mc <<< 3) + (b2n f.fence <<< 2)
    + (b2n f.redirV <<< 1) + b2n f.rsv5) <<< 40 +
  f.tag.toNat <<< 48 + f.seq.toNat <<< 64 + f.status.toNat <<< 88 + f.restart.toNat <<< 96 +
  (f.tenant.toNat + f.rsv14.toNat <<< 12) <<< 112 + f.epoch.toNat <<< 128 + f.addr.toNat <<< 160 +
  f.arg.toNat <<< 224

/-- The 8 tail bytes as one number (Table 3.6). -/
def Frame.tail (f : Frame) : Nat :=
  f.fcrc.toNat + f.endc.toNat <<< 32 + f.tailRsv.toNat <<< 40 + f.mark.toNat <<< 48

/-- A header read from its bytes (Table 3.5). -/
def Frame.ofHeader (h : Nat) : Frame where
  dst := .ofNat 16 h
  src := .ofNat 16 (h >>> 16)
  opc := .ofNat 8 (h >>> 32)
  tc := .ofNat 2 (h >>> 46)
  pl := bitAt h 45
  final := bitAt h 44
  mc := bitAt h 43
  fence := bitAt h 42
  redirV := bitAt h 41
  rsv5 := bitAt h 40
  tag := .ofNat 16 (h >>> 48)
  seq := .ofNat 24 (h >>> 64)
  status := .ofNat 8 (h >>> 88)
  restart := .ofNat 16 (h >>> 96)
  tenant := .ofNat 12 (h >>> 112)
  rsv14 := .ofNat 4 (h >>> 124)
  epoch := .ofNat 32 (h >>> 128)
  addr := .ofNat 64 (h >>> 160)
  arg := .ofNat 32 (h >>> 224)

/-- Payload and tail added to a header (R81). -/
def Frame.withRest (f : Frame) (data tail : Nat) : Frame :=
  { f with data := if f.pl then .ofNat 512 data else 0, fcrc := .ofNat 32 tail, endc := .ofNat 8 (tail >>> 32),
           tailRsv := .ofNat 8 (tail >>> 40), mark := .ofNat 16 (tail >>> 48) }

/-- Bytes of a frame: 40, or 104 with payload (R81). -/
def Frame.len (f : Frame) : Nat := if f.pl then 104 else 40

/-- Credits a frame costs (R78). -/
def Frame.cost (f : Frame) : Nat := if f.pl then 13 else 5

/-- The frame's bytes in order. -/
def Frame.bytes (f : Frame) : List Byte :=
  bytesLE 32 f.header ++ (if f.pl then bytesLE 64 f.data.toNat else []) ++ bytesLE 8 f.tail

/-- FCRC over header and payload (Table 3.6, R71). -/
def Frame.crc (f : Frame) : Nat :=
  crc32c (bytesLE 32 f.header ++ (if f.pl then bytesLE 64 f.data.toNat else []))

/-- The frame with its FCRC, as its source sends it. -/
def Frame.sealed (f : Frame) : Frame := { f with fcrc := .ofNat 32 f.crc, endc := 0, mark := 0 }

/-- FCRC passes. -/
def Frame.crcOk (f : Frame) : Bool := f.fcrc.toNat == f.crc

/-- The 252 bytes a flit's LCRC covers (Table 3.3). -/
def Flit.covered (f : Flit) : List Byte :=
  bytesLE 4 (f.lseq.toNat + f.valid.toNat <<< 16 + f.typ.toNat <<< 28) ++ bytesLE 236 f.bytes.toNat ++
  bytesLE 2 (f.ackLseq.toNat + b2n f.nak <<< 15) ++
  bytesLE 6 (f.crdCoh.toNat + f.crdReq.toNat <<< 12 + f.crdRsp.toNat <<< 24 + f.crdBulk.toNat <<< 36) ++ bytesLE 4 0

/-- A flit is good (R71). -/
def Flit.good (f : Flit) : Bool := !f.fecBad && f.lcrc.toNat == crc32c f.covered

/-! ### The part's own identity -/

/-- The part's node ID (R575). -/
def Blk.node (b : Blk) : Nat := b.get Reg.GLB_NODE_ID_NODE

/-- The host path's node ID, when it has one (R127). -/
def Blk.hostNode (b : Blk) : Option Nat :=
  if 0x40 ≤ b.get Reg.PCIE_HOST_NODE then some (b.get Reg.PCIE_HOST_NODE) else none

/-- The part is FENCED (R61). -/
def Blk.fenced (b : Blk) : Bool := b.flag Reg.PAGE_STATUS_FENCED Pg.win

/-- The restart epoch (R64). -/
def Blk.restart (b : Blk) : Nat := b.get Reg.WIN_RESTART_EPOCH_RESTART_EPOCH

/-- The next SEQ of a stream (R85), and the counter moved on. -/
def Blk.nextSeq (b : Blk) (src dst tc : Nat) : Nat × Blk :=
  let k := (src * 2 ^ 16 + dst) * 4 + tc
  let n := Sparse.get 0 b.orig.seqs k
  (n, { b with orig := { b.orig with seqs := Sparse.set 0 b.orig.seqs k ((n + 1) % 2 ^ 24) } })

/-- A response to a request (R89): its fields but SEQ and FCRC. -/
def Blk.response (b : Blk) (q : Frame) (opc status : Nat) (data : Line) : Frame :=
  { dst := q.src, src := .ofNat 16 b.node, opc := .ofNat 8 opc, tc := 2, pl := opc == Opc.rspData, tag := q.tag,
    status := .ofNat 8 status, restart := .ofNat 16 b.restart, tenant := q.tenant, epoch := q.epoch, addr := q.addr,
    data := if opc == Opc.rspData then data else 0 }

end Sys2Proof.Machine
end

