-- ==== Sys2Proof/Machine/LineCode.lean ====
section
/-! DEFINITION. The line code (R228, R229): Reed–Solomon over GF(2^8), 64 data and 8 check bytes, generator roots
α^0 to α^7. The code is linear, so decoding is a function of the error pattern alone. Byte i of the 72 is the coefficient
of x^(71 − i) (log entry 14). -/
namespace Sys2Proof.Machine

/-- Multiply by α = 0x02 modulo x^8 + x^4 + x^3 + x^2 + 1. -/
def gfDouble (a : Nat) : Nat := if a < 128 then 2 * a else (2 * a) ^^^ 0x11D

/-- Product in GF(2^8), over the n low bits of the second factor. -/
def gfMulN : Nat → Nat → Nat → Nat
  | 0, _, _ => 0
  | n + 1, a, b => (if b % 2 = 1 then a else 0) ^^^ gfMulN n (gfDouble a) (b / 2)

/-- Product in GF(2^8). -/
def gfMul (a b : Nat) : Nat := gfMulN 8 a b

/-- Power in GF(2^8). -/
def gfPow (a : Nat) : Nat → Nat
  | 0 => 1
  | n + 1 => gfMul a (gfPow a n)

/-- Inverse in GF(2^8): a^254. -/
def gfInv (a : Nat) : Nat :=
  let a2 := gfMul a a
  let a4 := gfMul a2 a2
  let a8 := gfMul a4 a4
  let a16 := gfMul a8 a8
  let a32 := gfMul a16 a16
  let a64 := gfMul a32 a32
  let a128 := gfMul a64 a64
  gfMul a128 (gfMul a64 (gfMul a32 (gfMul a16 (gfMul a8 (gfMul a4 a2)))))

/-- A polynomial, lowest coefficient first, at a point. -/
def polyEval (x : Nat) : List Nat → Nat
  | [] => 0
  | c :: cs => c ^^^ gfMul x (polyEval x cs)

/-- Sum of polynomials. -/
def polyAdd : List Nat → List Nat → List Nat
  | [], q => q
  | p, [] => p
  | a :: p, b :: q => (a ^^^ b) :: polyAdd p q

/-- A polynomial times a number. -/
def polyScale (k : Nat) (p : List Nat) : List Nat := p.map (gfMul k)

/-- The bytes of an error pattern as a polynomial: byte 71 is the constant term. -/
def patternPoly (e : Nat) : List Nat := ((bytesLE 72 e).map (·.toNat)).reverse

/-- The eight syndromes of a pattern. -/
def syndromes (p : List Nat) : List Nat := (List.range 8).map fun j => polyEval (gfPow 2 j) p

/-- The discrepancy of a connection polynomial at step n. -/
def discrepancy (s c : List Nat) (n : Nat) : Nat :=
  (c.zip (List.range c.length)).foldl (fun d x => if x.2 ≤ n then d ^^^ gfMul x.1 (nth 0 s (n - x.2)) else d) 0

/-- The shortest linear recurrence of the syndromes (Berlekamp–Massey): its polynomial and length. -/
def locator (s : List Nat) : Nat → Nat → List Nat → List Nat → Nat → Nat → Nat → List Nat × Nat
  | 0, _, c, _, l, _, _ => (c, l)
  | k + 1, n, c, b, l, m, d0 =>
    let d := discrepancy s c n
    if d = 0 then locator s k (n + 1) c b l (m + 1) d0
    else
      let c' := polyAdd c (polyScale (gfMul d (gfInv d0)) (List.replicate m 0 ++ b))
      if 2 * l ≤ n then locator s k (n + 1) c' c (n + 1 - l) 1 d
      else locator s k (n + 1) c' b l (m + 1) d0

/-- The low n coefficients of a product. -/
def polyMulLow (n : Nat) (p q : List Nat) : List Nat :=
  (List.range n).map fun k => (List.range (k + 1)).foldl (fun a i => a ^^^ gfMul (nth 0 p i) (nth 0 q (k - i))) 0

/-- The odd part of a polynomial over x: its formal derivative as a polynomial in x. -/
def polyDeriv : List Nat → List Nat
  | [] => []
  | _ :: cs => (cs.zip (List.range cs.length)).map fun x => if x.2 % 2 = 0 then x.1 else 0

/-- The pattern of at most `t` wrong bytes that has these syndromes, as (power of x, value) pairs. -/
def locate (t : Nat) (s : List Nat) : Option (List (Nat × Nat)) :=
  let (c, l) := locator s 8 0 [1] [1] 0 1 1
  if t < l then none
  else
    let pos := (List.range 72).filter fun i => polyEval (gfInv (gfPow 2 i)) c == 0
    if pos.length ≠ l then none
    else
      let w := polyMulLow l s c
      let dc := polyDeriv c
      let errs := pos.map fun i =>
        let x := gfPow 2 i
        (i, gfMul x (gfMul (polyEval (gfInv x) w) (gfInv (polyEval (gfInv x) dc))))
      let back := (List.range 8).map fun j => errs.foldl (fun a e => a ^^^ gfMul e.2 (gfPow (gfPow 2 j) e.1)) 0
      if back = s then some errs else none

/-- What decoding a stored word does: `fixed` bytes were changed and the pattern `left` remains in the word returned, or the
word is uncorrectable. -/
inductive Decoded where
  | good (fixed left : Nat)
  | bad
  deriving DecidableEq, Repr

/-- Decode a word with error pattern `e`, correcting up to `t` bytes (Table 7.1, R230). -/
def decodeWord (t e : Nat) : Decoded :=
  if e = 0 then .good 0 0
  else
    let s := syndromes (patternPoly e)
    if s.all (· == 0) then .good 0 e
    else
      match locate t s with
      | none => .bad
      | some errs => .good errs.length (errs.foldl (fun a x => a ^^^ x.2 <<< (8 * (71 - x.1))) e)

end Sys2Proof.Machine
end

