-- ==== Sys2Proof/Machine/Store.lean ====
section
/-! DEFINITION. The stacks (ch. 07): placement of resident addresses, the line code, encryption, lines read and written,
patrol scrub, lost stacks and key slots. -/
namespace Sys2Proof.Machine

/-! ### Stacks (R223 to R227) -/

namespace Stk
def off : Nat := 0
def training : Nat := 1
def up : Nat := 2
def lost : Nat := 3
def disabled : Nat := 4
end Stk

/-- The enabled stacks E[0] to E[N − 1] of R224: those boot brought up, lost ones among them. -/
def Blk.stacks (b : Blk) : List Nat :=
  (List.range 12).filter fun n =>
    b.get Reg.HBM_STATE_STACK_STATE n == Stk.up || b.get Reg.HBM_STATE_STACK_STATE n == Stk.lost

/-- Lines of one stack: 96 GiB. -/
def stackLines : Nat := 96 * 2 ^ 24

/-- Lines of the resident address space. -/
def Blk.raLines (b : Blk) : Nat := b.stacks.length * stackLines

/-- The stack a resident line lies in (R224): groups of four lines rotate through the enabled stacks. -/
def Blk.stackOf (b : Blk) (ra : Nat) : Nat := nth 12 b.stacks (ra / 4 % b.stacks.length)

/-- The stack of a resident line is `lost`. -/
def Blk.lostAt (b : Blk) (ra : Nat) : Bool := b.get Reg.HBM_STATE_STACK_STATE (b.stackOf ra) != Stk.up

/-- Bytes a stack corrects (Table 7.1). -/
def Blk.corrects (b : Blk) (stack : Nat) : Nat :=
  match b.get Reg.HBM_CFG_LC_MODE stack with
  | 1 => 2
  | 2 => 0
  | _ => 4

/-! ### Lines as stored -/

/-- The key of a slot; a slot has one while `loaded`. DESIGN CHOICE: what protection copies, repairs or writes under an empty slot uses key 0
(R248; log entry 97). -/
def Blk.key (b : Blk) (slot : Nat) : Nat := Sparse.get 0 b.store.keys slot

/-- The tweak of a local line (R236). -/
def Blk.tweak (b : Blk) (line : Nat) : Nat := line % 2 ^ 41 + b.node <<< 41

/-- The tweak of a Slough line: bit 127 and the slot's line index, with the node ID as every line has it (R236). -/
def Blk.sloughTweak (b : Blk) (i : Nat) : Nat := 2 ^ 127 + b.tweak i

/-- What is stored at a resident line, and its error pattern before any change physics has made. -/
def Blk.storedAt (b : Blk) (ra : Nat) : Stored × Nat :=
  match Sparse.get none b.store.lines ra with
  | some s => (s, 0)
  | none =>
    match Sparse.get none b.store.fills (ra / 1024) with
    | some f =>
      match f.key with
      | some k => (.enc k (b.tweak (f.block * 1024 + ra % 1024)) 0, 0)
      | none => (.raw 0, 0)
    | none =>
      let u := Config.unwritten b.store.power ra
      (.raw (.ofNat 512 u.1), u.2 % 2 ^ 576)

/-- The ciphertext of a stored line. -/
def Stored.cipher : Stored → Line
  | .enc k t d => xtsEncrypt k t d
  | .raw d => d

/-- The plaintext of a stored line under a key and tweak: its own, unless it was encrypted otherwise (R239, R240). -/
def Stored.plain (s : Stored) (key tweak : Nat) : Line :=
  match s with
  | .enc k t d => if k = key ∧ t = tweak then d else xtsDecrypt key tweak (xtsEncrypt k t d)
  | .raw c => xtsDecrypt key tweak c

/-- The line as its decoder returns it, with the pattern a miscorrection leaves in its 64 data bytes (R230). -/
def Stored.left (s : Stored) (pat : Nat) : Stored :=
  if pat % 2 ^ 512 = 0 then s else .raw (s.cipher ^^^ .ofNat 512 pat)

/-- What reading a resident line gives. -/
inductive Read where
  | good (s : Stored)
  | bad
  | lost
  deriving DecidableEq, Repr

/-- Decode a resident line, without counting: the result, how many bytes were corrected, what would be written back. -/
def Blk.decodeAt (b : Blk) (ra : Nat) : Read × Nat :=
  if b.lostAt ra then (.lost, 0)
  else
    let (s, e) := b.storedAt ra
    match decodeWord (b.corrects (b.stackOf ra)) (e ^^^ Sparse.get 0 b.store.flips ra) with
    | .bad => (.bad, 0)
    | .good n pat => (.good (s.left pat), n)

/-- Count a corrected line (Table 7.5, Table 7.8). -/
def Blk.countFix (b : Blk) (ra n : Nat) : Blk :=
  if n = 0 then b
  else
    let k := b.stackOf ra
    ((b.count Reg.HBM_CE_LINE_CNT k).countN Reg.HBM_CE_BYTE_CNT n k).err (Pg.hbm k) 2

/-- Record an uncorrectable line (R232); `src`: 0 demand, 1 scrub, 2 mirror_repaired. -/
def Blk.recordUe (b : Blk) (ra src : Nat) : Blk :=
  let k := b.stackOf ra
  let b := (b.count Reg.HBM_UE_CNT k).err (Pg.hbm k) 0
  let i := Sparse.get 0 b.store.ueNext k
  let b := b.puts (k * 32 + i) [(Reg.ue_log_TIME, b.now), (Reg.ue_log_RA, ra * 64), (Reg.ue_log_SOURCE, src)]
  { b with store := { b.store with ueNext := Sparse.set 0 b.store.ueNext k ((i + 1) % 32) } }

/-- Read a resident line for a demand access; an uncorrectable line is recorded unless a mirror may repair it. -/
def Blk.readRa (b : Blk) (ra : Nat) (record : Bool := true) : Read × Blk :=
  match b.decodeAt ra with
  | (.good s, n) => (.good s, b.countFix ra n)
  | (.bad, _) => (.bad, if record then b.recordUe ra 0 else b)
  | (.lost, _) => (.lost, b)

/-- A line found uncorrectable awaits its mirror partner's copy (R247); a commit made meanwhile replaces it (R234). -/
def Blk.mending (b : Blk) (ra : Nat) : Blk :=
  { b with store := { b.store with mends := if b.store.mends.contains ra then b.store.mends else b.store.mends ++ [ra] } }

/-- Write a resident line and its check bytes. -/
def Blk.writeRa (b : Blk) (ra : Nat) (s : Stored) : Blk :=
  { b with store := { b.store with
      mends := b.store.mends.filter (· ≠ ra)
      lines := Sparse.set none b.store.lines ra (some s)
      flips := Sparse.set 0 b.store.flips ra 0 } }

/-- Fill a whole frame: its lines are as the fill says. -/
def Blk.fillFrame (b : Blk) (frame : Nat) (f : Fill) : Blk :=
  { b with store := { b.store with
      mends := b.store.mends.filter fun ra => decide (ra / 1024 ≠ frame)
      lines := b.store.lines.filter fun e => decide (e.1 / 1024 ≠ frame)
      flips := b.store.flips.filter fun e => decide (e.1 / 1024 ≠ frame)
      fills := Sparse.set none b.store.fills frame (some f) } }

/-- Everything the stacks hold is lost: what they come up with is open. -/
def Blk.storePowerUp (b : Blk) : Blk :=
  { b with store := { b.store with
      power := b.store.power + 1, lines := [], fills := [], flips := [], scrubbed := [], passAt := [], mends := [] } }

/-! ### Lost stacks (R227) -/

/-- A stack becomes `lost`. -/
def Blk.stackLost (b : Blk) (k : Nat) : Blk :=
  if b.get Reg.HBM_STATE_STACK_STATE k = Stk.up then
    (b.put Reg.HBM_STATE_STACK_STATE Stk.lost k).err (Pg.hbm k) 1
  else b

/-! ### Slough's lines (R123, R125, R236) -/

/-- The resident line numbers of Slough's first line. -/
def Blk.sloughBase (b : Blk) : Nat := b.raLines - b.get Reg.SLOUGH_CFG_SIZE_GIB * 2 ^ 24

/-- Write a frame into a slot of two lines: header, then the rest, under the system key. -/
def Blk.sloughWrite (b : Blk) (slot : Nat) (f : Frame) : Blk :=
  let n := ofBytesLE f.bytes
  let put (b : Blk) (i : Nat) (d : Nat) : Blk :=
    if b.lostAt (b.sloughBase + i) then b
    else b.writeRa (b.sloughBase + i) (.enc (b.key 0) (b.sloughTweak i) (.ofNat 512 d))
  put (put b (2 * slot) n) (2 * slot + 1) (n >>> 512)

/-- Read a frame back out of its slot; none when a line is uncorrectable or its stack is lost. -/
def Blk.sloughRead (b : Blk) (slot : Nat) : Option Frame × Blk :=
  let (x, b) := b.readRa (b.sloughBase + 2 * slot)
  let (y, b) := b.readRa (b.sloughBase + 2 * slot + 1)
  match x, y with
  | .good s, .good t =>
    let n := (s.plain (b.key 0) (b.sloughTweak (2 * slot))).toNat +
      (t.plain (b.key 0) (b.sloughTweak (2 * slot + 1))).toNat <<< 512
    let h := Frame.ofHeader (n % 2 ^ 256)
    let r := n >>> 256
    (some (if h.pl then h.withRest (r % 2 ^ 512) (r >>> 512) else h.withRest 0 r), b)
  | _, _ => (none, b)

/-! ### Key slots (R238 to R240) -/

/-- A slot is `loaded`. -/
def Blk.loaded (b : Blk) (slot : Nat) : Bool := b.flag Reg.slot_LOADED slot

/-- Load a key into a slot. -/
def Blk.loadKey (b : Blk) (slot key : Nat) : Blk :=
  let b := if b.loaded slot then b else b.put Reg.CRYPT_LOADED_COUNT (b.get Reg.CRYPT_LOADED_COUNT + 1)
  { b.put Reg.slot_LOADED 1 slot with store := { b.store with keys := Sparse.set 0 b.store.keys slot key } }

/-- Empty a slot. -/
def Blk.dropKey (b : Blk) (slot : Nat) : Blk :=
  let b := if b.loaded slot then b.put Reg.CRYPT_LOADED_COUNT (b.get Reg.CRYPT_LOADED_COUNT - 1) else b
  { b.put Reg.slot_LOADED 0 slot with store := { b.store with keys := Sparse.set 0 b.store.keys slot 0 } }

/-- Empty every slot (R240). -/
def Blk.dropKeys (b : Blk) : Blk :=
  let b := (b.clearSpace .t_slot).put Reg.CRYPT_LOADED_COUNT 0
  { b with store := { b.store with keys := [] } }

end Sys2Proof.Machine
end

