-- ==== Sys2Proof/Machine/Switch.lean ====
section
/-! DEFINITION. The switch core (ch. 04): route lookup, buffer and Slough, arbitration, resequencing, multicast, and the
frames the part itself sends. -/
namespace Sys2Proof.Machine

/-! ### Ports as the switch sees them -/

/-! LINK_STATE values (Table 3.17). -/
namespace Ls
def disabled : Nat := 0
def lock : Nat := 1
def align : Nat := 2
def fec : Nat := 3
def init : Nat := 4
def up : Nat := 5
def down : Nat := 6
end Ls

/-- The local delivery point's egress number. -/
def localEg : Nat := 24

/-- The port's link is up. -/
def Blk.up (b : Blk) (p : Nat) : Bool := b.get Reg.FQP_STATE_LINK_STATE p == Ls.up

/-- The port is in the requester role. -/
def Blk.reqRole (b : Blk) (p : Nat) : Bool := b.get Reg.FQP_CTRL_ROLE p == 0

/-- An egress is a sink output (R126): the local delivery point or a requester-role port. -/
def Blk.sink (b : Blk) (eg : Nat) : Bool := eg == localEg || b.reqRole eg

/-- A frame is discarded for want of a route (Table 4.2, R62). -/
def Blk.noRoute (b : Blk) : Blk := (b.count Reg.SWC_NO_ROUTE_CNT).err Pg.swc 0

/-- A multicast frame or copy is discarded (R133, R135). -/
def Blk.mcDiscard (b : Blk) : Blk := (b.count Reg.SWC_MC_DISCARD_CNT).err Pg.swc 4

/-! ### Route lookup (R115, R116) -/

/-- What a lookup decides (Table 4.2). -/
inductive Route where
  | discard
  | deliver
  | answer
  | port (p : Nat) (alt : Bool)
  deriving DecidableEq, Repr

/-- The candidate ports of a route entry, in order; none when the entry is invalid (R115). -/
def Blk.candidates (b : Blk) (dst : Nat) : Option (List Nat) :=
  let n := b.get Reg.route_NCAND dst
  let c := [b.get Reg.route_PORT0 dst, b.get Reg.route_PORT1 dst, b.get Reg.route_PORT2 dst, b.get Reg.route_PORT3 dst].take n
  if n = 0 ∨ 4 < n ∨ c.any (fun p => 23 < p) then none else some c

/-- Of the candidates, the one with most credit in a class, ties to the lowest position (R118). -/
def Blk.mostCredit (b : Blk) (tc : Nat) : List Nat → Option Nat
  | [] => none
  | p :: ps =>
    match b.mostCredit tc ps with
    | none => some p
    | some q => if nth 0 (b.port p).crd tc < nth 0 (b.port q).crd tc then some q else some p

/-- The port a frame goes out by (R118); `not` is a port that may not be taken. -/
def Blk.choosePort (b : Blk) (cands : List Nat) (tc : Nat) (not : Option Nat) : Option Nat :=
  let ups := cands.filter fun p => b.up p && not ≠ some p
  if b.get Reg.SWC_CTRL_ADAPTIVE = 1 then b.mostCredit tc ups else ups.head?

/-- Route lookup for a frame with MC = 0: the first row of Table 4.2 whose condition holds. -/
def Blk.route (b : Blk) (src dst tc : Nat) (not : Option Nat := none) : Route :=
  if 0x40 ≤ src ∧ 0x40 ≤ dst then .discard
  else if b.get Reg.route_V dst = 0 then .discard
  else if b.get Reg.route_LOCAL dst = 1 then
    if dst = b.node ∨ b.hostNode = some dst then .deliver else .discard
  else
    match b.candidates dst with
    | none => .discard
    | some c =>
      if b.get Reg.route_DEAD dst = 1 then (if tc = Tc.req ∨ tc = Tc.bulk then .answer else .discard)
      else
        match b.choosePort c tc not with
        | none => .discard
        | some p => .port p (c.head? ≠ some p)

/-! ### Buffer and Slough (R120 to R125) -/

/-- Slots of Slough (R123). -/
def Blk.sloughSlots (b : Blk) : Nat := b.get Reg.SLOUGH_CFG_SIZE_GIB * 2 ^ 23

/-- Frames now in Slough. -/
def Blk.sloughUsed (b : Blk) : Nat := (b.sw.queue.filter (·.slough)).length

/-- Credits reserved in the grant region by ports that are up (R120). -/
def Blk.grantUsed (b : Blk) : Nat := b.ports.foldl (fun n p => n + p.reserved) 0

/-- Bytes of the shared region (R120). -/
def Blk.sharedSize (b : Blk) : Nat := 24 * 2 ^ 20 - 8 * b.grantUsed

/-- Bytes of frames in the shared region: those waiting for an egress or to be sent, and those resequencers hold (log entry 75). -/
def Blk.sharedUsed (b : Blk) : Nat :=
  (b.sw.queue.filter fun e => !e.slough && !e.ingress).foldl (fun n e => n + e.fr.len) 0 +
  b.ports.foldl (fun n p => p.out.foldl (fun n e => n + e.fr.len) n) 0 +
  b.sw.streams.foldl (fun n s => s.held.foldl (fun n h => n + h.2.fr.len) n) 0

/-- Credits of a frame that came in by a port and now is in the part's own buffer or gone, no copy of it left in ingress buffer
(R121). -/
def Blk.creditBack (b : Blk) (p : Nat) (fr : Frame) (id : Nat) : Blk :=
  if b.sw.queue.any fun e => e.id == id && e.ingress then b
  else b.setPort p fun q => { q with ret := modNth (· + fr.cost) fr.tc.toNat q.ret }

/-- The same for a frame received whole while it stayed in ingress buffer. -/
def Blk.creditsOf (b : Blk) (e : QEnt) : Blk := if e.owes && e.ingress && e.done then b.creditBack e.src e.fr e.id else b

/-- A Slough slot not in use: which one the spec does not say. -/
def Blk.freeSlot (b : Blk) : Nat × Blk :=
  let used := (b.sw.queue.filter (·.slough)).map (·.slot)
  let (d, b) := b.draw b.sloughSlots
  let free := (List.range (used.length + 1)).map fun i => (d + i) % b.sloughSlots
  ((free.find? fun s => !used.contains s).getD d, b)

/-- Since when Slough has been full follows its occupancy (R124). -/
def Blk.sloughMark (b : Blk) : Blk :=
  if b.sloughUsed < b.sloughSlots then { b with sw := { b.sw with fullSince := none } }
  else if b.sw.fullSince = none then { b with sw := { b.sw with fullSince := some b.el } } else b

/-- Frames leave the queues; Slough is full no more if one was in it. -/
def Blk.unqueue (b : Blk) (gone : QEnt → Bool) : Blk :=
  ({ b with sw := { b.sw with queue := b.sw.queue.filter fun e => !gone e } }).sloughMark

/-- A frame spills (R122): shared-region occupancy is above SPILL_PCT, or one of its egress queue, `before` it, is in Slough or
waits for room there. -/
def Blk.spills (b : Blk) (e : QEnt) (before : List QEnt) : Bool :=
  decide (b.get Reg.SLOUGH_THRESH_SPILL_PCT * b.sharedSize < 100 * b.sharedUsed) ||
    before.any fun q => (q.slough || q.ingress) && q.eg == e.eg && q.fr.tc == e.fr.tc

/-- A slot of Slough is taken for a frame, whose bytes go there once it is whole. -/
def Blk.toSlough (b : Blk) (e : QEnt) : QEnt × Blk :=
  let (s, b) := b.freeSlot
  ({ e with slough := true, slot := s, ingress := false }, if e.done then b.sloughWrite s e.fr else b)

/-- What a frame's arrival in Slough counts. -/
def Blk.spilled (b : Blk) : Blk :=
  ((b.count Reg.SLOUGH_SPILL_CNT).mark Reg.SLOUGH_OCC_HWM_FRAMES b.sloughUsed).sloughMark

/-- A class that had nothing waiting at a port has not starved before now (R80). -/
def Blk.freshWait (b : Blk) (e : QEnt) : Blk :=
  if e.eg < 24 && !(b.sw.queue.any fun q => q.eg == e.eg && q.fr.tc == e.fr.tc) && !((b.port e.eg).out.any fun q => q.fr.tc == e.fr.tc) then
    b.setPort e.eg fun p => { p with starved := modNth (fun _ => b.el) e.fr.tc.toNat p.starved }
  else b

/-- Put a frame into an egress queue, spilling it under R122; a full Slough leaves it in the ingress buffer (R124). -/
def Blk.enqueue (b : Blk) (e : QEnt) : Blk :=
  let b := b.freshWait e
  let add (b : Blk) (e : QEnt) : Blk := { b with sw := { b.sw with queue := b.sw.queue ++ [e] } }
  if !b.spills e b.sw.queue then add b e
  else if b.sloughUsed < b.sloughSlots then
    let (e, b) := b.toSlough e
    (add b e).spilled
  else ((add b { e with ingress := true }).err Pg.slough 0).sloughMark

/-- A frame in ingress buffer moves on where it spills no longer, or where Slough has room (R121, R124). -/
def Blk.ingressOne (b : Blk) (e : QEnt) : Blk :=
  let before := b.sw.queue.takeWhile fun q => !(q.id == e.id && q.eg == e.eg)
  let set (b : Blk) (n : QEnt) : Blk :=
    { b with sw := { b.sw with queue := b.sw.queue.map fun q => if q.id = e.id ∧ q.eg = e.eg then n else q } }
  if !b.spills e before then (set b { e with ingress := false }).creditsOf e
  else if b.sloughUsed < b.sloughSlots then
    let (n, b) := b.toSlough e
    (set b n).spilled.creditsOf e
  else b

/-- Frames left in ingress buffer move on, in order, as far as there is room. -/
def Blk.ingressMove (b : Blk) : Blk := b.each (b.sw.queue.filter (·.ingress)) Blk.ingressOne

/-! ### Sending frames -/

/-- A fresh id for a frame in the part. -/
def Blk.newId (b : Blk) : Nat × Blk := (b.sw.nextId, { b with sw := { b.sw with nextId := b.sw.nextId + 1 } })

/-- A multicast frame onto each port of its group but the one it entered by (R133, R134, R135); `okSource`: the part
originated it or it entered by a Gennurik-role port. -/
def Blk.multicast (b : Blk) (fr : Frame) (e : QEnt) (okSource : Bool) : Blk :=
  let g := fr.dst.toNat % 2 ^ 12
  if b.get Reg.mcast_V g = 1 ∧ b.get Reg.mcast_ORIGIN g = fr.src.toNat ∧ okSource then
    b.each ((List.range 24).filter fun p => bitAt (b.get Reg.mcast_PORT_MASK g) p && e.src ≠ p) fun b p =>
      if b.up p then b.enqueue { e with eg := p } else b.mcDiscard
  else b.mcDiscard

/-- An RSP_ERR PEER_DEAD in answer to a request toward a dead node (Table 4.2, order 4; R89), as a frame to send. -/
def Blk.peerDeadFrame (b : Blk) (q : Frame) : Frame × Blk :=
  let (n, b) := b.nextSeq b.node q.src.toNat Tc.rsp
  ({ b.response q Opc.rspErr St.peerDead 0 with seq := .ofNat 24 n }.sealed, b.count Reg.SWC_PEER_DEAD_RSP_CNT)

/-- Route a whole frame that this part puts into the switch core, from competitor `src`. -/
def Blk.inject (b : Blk) (fr : Frame) (src : Nat) (tile : Nat := 0) (not : Option Nat := none) : Blk :=
  let (id, b) := b.newId
  let e : QEnt := { id, fr, eg := localEg, stamp := b.el, src, tile }
  if fr.mc then b.multicast fr e true
  else
    match b.route fr.src.toNat fr.dst.toNat fr.tc.toNat not with
    | .discard => b.noRoute
    | .deliver => b.enqueue e
    | .port p alt =>
      let b := if alt then b.count Reg.SWC_ADAPT_ALT_CNT else b
      b.enqueue { e with eg := p }
    | .answer =>
      let (a, b) := b.peerDeadFrame fr
      match b.route a.src.toNat a.dst.toNat Tc.rsp with
      | .deliver => b.enqueue { e with fr := a }
      | .port p _ => b.enqueue { e with fr := a, eg := p }
      | _ => b.noRoute

/-- Send an answer of the home: SEQ from its stream in the class, FCRC, then the switch core. -/
def Blk.answer (b : Blk) (fr : Frame) : Blk :=
  let (n, b) := b.nextSeq fr.src.toNat fr.dst.toNat fr.tc.toNat
  b.inject { fr with seq := .ofNat 24 n }.sealed 32

/-- A response to a request (R89). -/
def Blk.respond (b : Blk) (q : Frame) (opc status : Nat) (data : Line := 0) : Blk := b.answer (b.response q opc status data)

/-! ### Arbitration (R142 to R144) -/

/-- The weight of a class (SWC_ARB; 0 acts as 1). -/
def Blk.weight (b : Blk) (tc : Nat) : Nat :=
  let w := match tc with
    | 0 => b.get Reg.SWC_ARB_W_COH
    | 1 => b.get Reg.SWC_ARB_W_REQ
    | 2 => b.get Reg.SWC_ARB_W_RSP
    | _ => b.get Reg.SWC_ARB_W_BULK
  if w = 0 then 1 else w

/-- A round-robin pointer. -/
def Blk.rrGet (b : Blk) (k : Nat) : Nat := Sparse.get 0 b.sw.rr k
def Blk.rrSet (b : Blk) (k v : Nat) : Blk := { b with sw := { b.sw with rr := Sparse.set 0 b.sw.rr k v } }

/-- The next of `n` competitors after the pointer, cyclically, that satisfies a test. -/
def nextRR (n ptr : Nat) (p : Nat → Bool) : Option Nat := ((List.range n).map fun i => (ptr + i) % n).find? p

/-- A stream at a sink output, as recorded or fresh. -/
def Blk.stream (b : Blk) (sink src dst tc : Nat) : Stream :=
  (b.sw.streams.find? fun s => s.sink == sink && s.src == src && s.dst == dst && s.tc == tc).getD { sink, src, dst, tc }

/-- How far ahead of its stream's expected number a frame is at a sink output (R128). -/
def Blk.ahead (b : Blk) (sink : Nat) (fr : Frame) : Nat :=
  subMod 24 fr.seq.toNat (b.stream sink fr.src.toNat fr.dst.toNat fr.tc.toNat).expected

/-- No reservation slot is free (R168): each is bound, or its reserved tracker entry is in use. -/
def Blk.slotsOut (b : Blk) : Bool :=
  decide (512 ≤ b.home.slots.length + (b.home.reqs.filter fun r => r.resv.isSome && (r.wait == .turn || r.wait == .way)).length)

/-- A frame may be granted at an egress: at a port its class holds the credit (R78) and nothing of the class waits granted (R79), and at
a sink output its tail has arrived or it is the one its stream expects (R105, R128); the local point takes whole frames, and no request or
bulk frame while no reservation slot is free (R168). -/
def Blk.eligible (b : Blk) (e : QEnt) : Bool :=
  !e.ingress &&
  (if e.eg = localEg then e.done && !((e.fr.tc.toNat = Tc.req || e.fr.tc.toNat = Tc.bulk) && b.slotsOut)
   else (e.fr.cost ≤ nth 0 (b.port e.eg).crd e.fr.tc.toNat : Bool) && !(b.port e.eg).out.any (fun o => o.fr.tc == e.fr.tc) &&
     (e.done || e.fr.mc || !b.reqRole e.eg || b.ahead e.eg e.fr == 0))

/-- Of an egress queue's frames, those that may be offered by their order alone: a multicast copy only as the first (R135). -/
def treeOrder (l : List QEnt) (e : QEnt) : Bool := !e.fr.mc || (l.find? (·.fr.mc)).any fun f => f.id == e.id

/-- The frame an egress queue (one class) offers: those that entered before the first one in Slough, or held for it at ingress, compete
round-robin by competitor and, in a column, by tile, each competitor's frames in the order they entered; then that first one (R122,
R142). Frames in Slough return in order within their egress queue (log entry 75). -/
def Blk.offer (b : Blk) (eg tc : Nat) : Option (QEnt × Blk) :=
  let q := b.sw.queue.filter fun e => e.eg == eg && e.fr.tc.toNat == tc
  let near := q.takeWhile fun e => !e.slough && !e.ingress
  let k := (eg * 8 + 2 + tc) * 16
  let head (s t : Nat) : Option QEnt := (near.find? fun e => e.src == s && (e.tile == t || !(24 ≤ s && s < 32))).filter fun e =>
    b.eligible e && treeOrder near e
  let column (s : Nat) : Bool := decide (24 ≤ s) && decide (s < 32)
  let offers (s : Nat) : Bool := if column s then (List.range 12).any fun t => (head s t).isSome else (head s 0).isSome
  match near with
  | [] => (q.head?.filter b.eligible).map fun e => (e, b)
  | _ =>
    match nextRR 35 (b.rrGet k) offers with
    | none => none
    | some s =>
      let b := b.rrSet k (s + 1)
      if column s then
        match nextRR 12 (b.rrGet (k + s - 23)) fun t => (head s t).isSome with
        | none => none
        | some t => (head s t).map fun e => (e, b.rrSet (k + s - 23) (t + 1))
      else (head s 0).map fun e => (e, b)

/-- The class that is next under the weights of level 3 of Table 4.8, among those that offer, by the pointers at key `k`. -/
def Blk.classPick (b : Blk) (k : Nat) (offers : Nat → Bool) : Option (Nat × Blk) :=
  let p := b.rrGet k
  let used := b.rrGet (k + 1)
  (nextRR 4 (if used < b.weight p then p else p + 1) offers).map fun c =>
    (c, (b.rrSet k c).rrSet (k + 1) (if c = p ∧ used < b.weight p then used + 1 else 1))

/-- Weighted round-robin among the classes that offer a frame (level 3 of Table 4.8). -/
def Blk.classGrant (b : Blk) (eg : Nat) : Option (QEnt × Blk) :=
  match b.classPick (eg * 8 * 16) fun c => (b.offer eg c).isSome with
  | none => none
  | some (c, b) => b.offer eg c

/-- The oldest frame past AGE_THRESH_NS at an egress (R143): how long it waits, no step of the counter changes (R526). -/
def Blk.aged (b : Blk) (eg : Nat) : Option QEnt :=
  let q := b.sw.queue.filter fun e => e.eg == eg
  let oldest := q.foldl (fun (o : Option QEnt) e => match o with
    | none => some e
    | some f => if e.stamp < f.stamp then some e else some f) none
  oldest.filter fun e => ns (b.get Reg.SWC_ARB_AGE_THRESH_NS) < b.el - e.stamp && b.eligible e

/-! ### Resequencing (R126 to R131) -/

/-- Record a stream; one back at its first state is dropped. -/
def Blk.setStream (b : Blk) (s : Stream) : Blk :=
  let rest := b.sw.streams.filter fun t => !(t.sink == s.sink && t.src == s.src && t.dst == s.dst && t.tc == s.tc)
  { b with sw := { b.sw with streams := if s.expected = 0 ∧ s.held = [] then rest else rest ++ [s] } }

/-- A frame delivered at a sink output: to the home or the agent, or to be sent by the port. A `stalled` frame has no
effect (R129). -/
def Blk.deliver (b : Blk) (sink : Nat) (e : QEnt) : Blk :=
  if e.fr.endc ≠ 0 then b
  else if sink = localEg then { b with home := { b.home with inbox := b.home.inbox ++ [e.fr] } }
  else b.setPort sink fun p => { p with out := p.out ++ [e] }

/-- Deliver the held frames that follow in sequence. -/
def Blk.drainHeld : Nat → Blk → Stream → Blk × Stream
  | 0, b, s => (b, s)
  | n + 1, b, s =>
    match s.held.find? (·.1 == s.expected) with
    | none => (b, s)
    | some (k, e) =>
      drainHeld n (b.deliver s.sink e)
        { s with expected := (s.expected + 1) % 2 ^ 24, held := s.held.filter (·.1 ≠ k), timer := b.el }

/-- A frame reaches a sink output (R128, R129). -/
def Blk.resequence (b : Blk) (sink : Nat) (e : QEnt) : Blk :=
  let bad := e.fr.endc ≠ BitVec.ofNat 8 Endc.stalled ∧ (e.fr.endc ≠ 0 ∨ e.fr.crcOk = false)
  if bad then b
  else
    let s := b.stream sink e.fr.src.toNat e.fr.dst.toNat e.fr.tc.toNat
    let q := e.fr.seq.toNat
    let d := subMod 24 q s.expected
    if d = 0 then
      let b := b.deliver sink e
      let (b, s) := Blk.drainHeld s.held.length b { s with expected := (s.expected + 1) % 2 ^ 24, timer := b.el }
      b.setStream s
    else if d < 4096 then
      if s.held.any (·.1 == q) then b.count Reg.SWC_RESEQ_BEHIND_CNT
      else b.setStream { s with held := s.held ++ [(q, e)], timer := if s.held = [] then b.el else s.timer }
    else if d < 2 ^ 23 then (b.count Reg.SWC_RESEQ_OUTWIN_CNT).err Pg.swc 3
    else b.count Reg.SWC_RESEQ_BEHIND_CNT

/-- The tail of a frame cut through at a requester-role port has come: good, or `stalled`, it takes its number (R129), and what is held
behind it follows. -/
def Blk.sinkTail (b : Blk) (p : Nat) (fr : Frame) : Blk :=
  if b.reqRole p && !fr.mc && (fr.endc.toNat == Endc.stalled || (fr.endc == 0 && fr.crcOk)) then
    let s := b.stream p fr.src.toNat fr.dst.toNat fr.tc.toNat
    if s.expected = fr.seq.toNat then
      let (b, s) := Blk.drainHeld s.held.length b { s with expected := (s.expected + 1) % 2 ^ 24, timer := b.el }
      b.setStream s
    else b
  else b

/-- The hole timer of a stream expires: expected moves to the lowest held number (R130). -/
def Blk.closeHole (b : Blk) (s : Stream) : Blk :=
  match s.held with
  | [] => b
  | h :: hs =>
    let low := hs.foldl (fun m x => if subMod 24 x.1 s.expected < subMod 24 m s.expected then x.1 else m) h.1
    let (b, s) := Blk.drainHeld s.held.length b { s with expected := low, timer := b.el }
    ((b.setStream s).count Reg.SWC_RESEQ_HOLE_CNT).err Pg.swc 2

/-! ### The grant -/

/-- A whole frame is read back from Slough; one with an uncorrectable line is discarded (R125). -/
def Blk.fromSlough (b : Blk) (e : QEnt) : Option QEnt × Blk :=
  if e.slough && e.done then
    match b.sloughRead e.slot with
    | (some f, b) => (some { e with slough := false, fr := f }, b)
    | (none, b) => (none, (b.count Reg.SLOUGH_UNCORR_CNT).err Pg.slough 2)
  else (some { e with slough := false }, b)

/-- Grant frame `e` at egress `eg` (R122, R125, R128). -/
def Blk.takeGrant (b : Blk) (eg : Nat) (e : QEnt) : Blk :=
  match (b.unqueue fun q => q.id == e.id && q.eg == eg).fromSlough e with
  | (none, b) => b
  | (some e, b) => if b.sink eg && !e.fr.mc && e.done then b.resequence eg e else b.setPort eg fun p => { p with out := p.out ++ [e] }

/-- The granted frame that is first in its class at a port. -/
def Blk.firstOut (b : Blk) (p c : Nat) : Option QEnt := (b.port p).out.find? fun e => e.fr.tc.toNat == c

/-- A class has a granted frame whose cost it holds (R78). -/
def Blk.mayStart (b : Blk) (p c : Nat) : Bool := (b.firstOut p c).any fun e => decide (e.fr.cost ≤ nth 0 (b.port p).crd c)

/-- An egress may take its next grant: the local point always; a port that is up and has sent what was granted, but for frames that
wait for credit (R79). -/
def Blk.mayGrant (b : Blk) (eg : Nat) : Bool :=
  eg == localEg || (b.up eg && !((List.range 4).any (b.mayStart eg)) && (b.port eg).sending.isNone)

/-- An egress grants its next frame: the aged one first (R143), else by the hierarchy of Table 4.8. -/
def Blk.grant (b : Blk) (eg : Nat) : Blk :=
  if b.mayGrant eg then
    match b.aged eg with
    | some e => (b.count Reg.SWC_AGE_GRANT_CNT).takeGrant eg e
    | none =>
      match b.classGrant eg with
      | some (e, b) => b.takeGrant eg e
      | none => b
  else b

/-- Slough has stayed full for FULL_LIMIT_MS: the oldest frames in it go until it is at 15/16 (R124). -/
def Blk.sloughDiscard : Nat → Blk → Blk
  | 0, b => b
  | n + 1, b =>
    if 16 * b.sloughUsed ≤ 15 * b.sloughSlots then b
    else
      match b.sw.queue.find? (·.slough) with
      | none => b
      | some e =>
        let b := b.unqueue fun q => q.id == e.id && q.eg == e.eg
        sloughDiscard n (b.count Reg.SLOUGH_DISCARD_CNT)

/-- R124 on its time. -/
def Blk.sloughFull (b : Blk) : Blk :=
  match b.sw.fullSince with
  | none => b
  | some t =>
    if b.past t (ms (b.get Reg.SLOUGH_THRESH_FULL_LIMIT_MS)) then
      (Blk.sloughDiscard b.sw.queue.length b).err Pg.slough 1
    else b

/-- SWC_CMD's status registers. -/
def swcCmd : CmdReg := ⟨Reg.SWC_CMD_STATUS_DONE, Reg.SWC_CMD_STATUS_CODE, Pg.swc⟩

/-- Frames of a source that sink outputs hold. -/
def Blk.heldOf (b : Blk) (n : Nat) : Nat := (b.sw.streams.filter (·.src == n)).foldl (fun k s => k + s.held.length) 0

/-- `src_reset`: every stream of a source at every sink output starts again (R131). -/
def Blk.srcReset (b : Blk) (n : Nat) : Blk :=
  b.cmd swcCmd none fun b =>
    let held := b.heldOf n
    let b := { b with sw := { b.sw with streams := b.sw.streams.filter (·.src ≠ n) } }
    (if held = 0 then b else b.countN Reg.SWC_RESEQ_BEHIND_CNT held).cmdEnd swcCmd ok

end Sys2Proof.Machine
end

