-- ==== Sys2Proof/Machine/Link.lean ====
section
/-! DEFINITION. The link layer of a port and cut-through (ch. 03): bring-up, flits and replay, credits, arriving frames,
stalls, dead links. -/
namespace Sys2Proof.Machine

/-- A port whose bring-up rests: in `down`, or staying in `init`, until its next attempt (R70). -/
def Blk.resting (b : Blk) (p : Nat) : Bool :=
  b.get Reg.FQP_STATE_LINK_STATE p == Ls.down || (b.get Reg.FQP_STATE_LINK_STATE p == Ls.init && (b.port p).stay)

/-- The light of a port's lanes: off where it is disabled, while the OPTICS group is (R588), and in P2 between bring-up attempts (R494). -/
def Blk.power (b : Blk) (p : Nat) : Blk :=
  let lit := bitAt (b.get Reg.GLB_PIN_EN_GROUPS) 5 && b.get Reg.FQP_STATE_LINK_STATE p != Ls.disabled && !(b.resting p && b.get Reg.PWR_CFG_RUN_STATE == 2)
  b.setPort p fun q => { q with lit }

/-- A port's link state. -/
def Blk.link (b : Blk) (p st : Nat) : Blk := (b.put Reg.FQP_STATE_LINK_STATE st p).power p

/-- A new attempt at step 1 of Table 3.2. -/
def Blk.attempt (b : Blk) (p : Nat) : Blk :=
  (b.link p Ls.lock).setPort p fun q => { q with start := b.el, stepAt := b.el, stay := false, lost := [] }

/-- The next step of bring-up begins. -/
def Blk.nextStep (b : Blk) (p st : Nat) : Blk := (b.link p st).setPort p fun q => { q with stepAt := b.el }

/-- Output groups are enabled (Table 16.5), as bits of GLB_PIN_EN; with OPTICS the enabled ports light. -/
def Blk.pinsOn (b : Blk) (groups : Nat) : Blk :=
  let b := b.put Reg.GLB_PIN_EN_GROUPS (b.get Reg.GLB_PIN_EN_GROUPS ||| groups)
  if bitAt groups 5 then b.each (List.range 24) Blk.power else b

/-- Setting FQP_CTRL.ENABLE starts bring-up (R70), and with it the OPTICS group once boot is done; a port already enabled is left
as it is. -/
def Blk.portEnable (b : Blk) (p : Nat) : Blk :=
  if b.get Reg.FQP_CTRL_ENABLE p = 1 then b
  else (if b.aon.mode = .run ∨ b.aon.mode = .boot 10 then b.pinsOn 32 else b).put Reg.FQP_CTRL_ENABLE 1 p |>.attempt p

/-- A port set up as its host software has it, and enabled: FQP_SRC_RANGE and ROLE are written with ENABLE where the port was disabled. -/
def Blk.portSetup (b : Blk) (p : Nat) (gennurik : Bool) (lo hi : Nat) : Blk :=
  if b.get Reg.FQP_CTRL_ENABLE p = 1 then b
  else (b.puts p [(Reg.FQP_SRC_RANGE_SRC_LO, lo), (Reg.FQP_SRC_RANGE_SRC_HI, hi), (Reg.FQP_CTRL_ROLE, b2n gennurik)]).portEnable p

/-! ### Frames leaving -/

/-- The flit that carries part of a frame out: FRAME_SEND puts each frame into flits of its own (log entry 12). -/
def Blk.pushFlit (b : Blk) (p : Nat) (e : QEnt) (part : Part) : Blk :=
  b.setPort p fun q => { q with
    unacked := q.unacked ++ [{ lseq := q.txNext, ent := e, part, sent := b.el, first := b.el }],
    txNext := (q.txNext + 1) % 4096,
    ret := q.ret.map fun r => r - 4095 }

/-- A further data flit may leave (R74). -/
def Port.holdsMore (q : Port) : Bool := decide (q.unacked.length < 2048)

/-- Idle flits flow while a port has nothing else to send, and carry credits back (R72): `n` of them. -/
def Blk.idleOut (b : Blk) (p n : Nat) : Blk :=
  if b.up p && (b.port p).ret.any (· ≠ 0) then b.setPort p fun q => { q with ret := q.ret.map fun r => r - 4095 * n } else b

/-- The rest of a cut-through frame leaves, with its tail (R106, R111); at 2,048 unacknowledged flits it waits for FRAME_SEND (R74). -/
def Blk.finishSend (b : Blk) (p : Nat) (e : QEnt) : Blk :=
  if (b.port p).holdsMore then (b.pushFlit p e .rest).setPort p fun q => { q with sending := none }
  else b.setPort p fun q => { q with sending := some e }

/-- A waiting frame starts once its class holds credit for its cost (R78), no started frame occupies the stream, and
fewer than 2,048 flits are unacknowledged (R74). Among frames waiting in several classes the weights of level 3 choose. -/
def Blk.frameSend (b : Blk) (p : Nat) : Blk :=
  match (b.port p).sending with
  | some e => if b.up p && e.done then b.finishSend p e else b
  | none =>
    if b.up p && (b.port p).holdsMore then
      match b.classPick ((p * 8 + 6) * 16) (b.mayStart p) with
      | none => b
      | some (c, b) =>
        match b.firstOut p c with
        | none => b
        | some e =>
          let b := b.setPort p fun q => { q with
            out := q.out.erase e, crd := modNth (· - e.fr.cost) c q.crd, sending := if e.done then none else some e }
          (b.pushFlit p e (if e.done then .whole else .head)).count Reg.FQP_TX_FRAME_CNT p
    else b

/-- The frame with `id` has its tail: entries waiting take it, ports sending it finish it. One granted at a sink output and not yet
started goes no further if its tail is bad (R84, R129). DESIGN CHOICE: of a multicast frame found bad or abandoned, copies of which nothing has left
are discarded although another copy has begun to leave (R107, R111; log entry 96). -/
def Blk.completeTransit (b : Blk) (id : Nat) (fr : Frame) (bad : Nat) : Blk :=
  let marked := if bad = 0 then fr else { fr with endc := .ofNat 8 bad, mark := .ofNat 16 b.node }
  let started := (List.range 24).filter fun p => (b.port p).sending.any (·.id == id)
  let b := b.each started fun b p =>
    match (b.port p).sending with
    | some e => (b.finishSend p { e with fr := marked, done := true }).sinkTail p marked
    | none => b
  if bad = 0 then
    let b := b.each (b.sw.queue.filter fun e => e.id == id && e.slough) fun b e => b.sloughWrite e.slot fr
    let b := { b with sw := { b.sw with queue := b.sw.queue.map fun (e : QEnt) => if e.id = id then { e with fr := fr, done := true } else e } }
    let granted := (List.range 24).filter fun p => (b.port p).out.any (·.id == id)
    b.each granted fun b p =>
      let sinks := b.reqRole p && !fr.mc
      let b := b.setPort p fun q => { q with
        out := (q.out.map fun (e : QEnt) => if e.id = id then { e with fr := fr, done := true } else e).filter fun e => !(e.id == id && sinks && (fr.endc != 0 || !fr.crcOk)) }
      b.sinkTail p fr
  else
    let b := b.unqueue (·.id == id)
    b.each (List.range 24) fun b p => b.setPort p fun q => { q with out := q.out.filter (·.id ≠ id) }

/-- The frame in progress at a port is abandoned (R111): nothing of it left, it is discarded; else its remaining payload
goes as zero and its tail with the given END; the tail's FCRC is open. -/
def Blk.abandon (b : Blk) (p endc : Nat) : Blk :=
  match (b.port p).hdr with
  | none => b
  | some h =>
    let body := ofBytesLE (((b.port p).rx.take (h.fr.len - 8)).drop 32)
    let (c, b) := b.draw (2 ^ 32)
    let b := b.completeTransit h.id { h.fr with data := if h.fr.pl then .ofNat 512 body else 0, fcrc := .ofNat 32 c } endc
    b.setPort p fun q => { q with hdr := none, ret := modNth (· + h.fr.cost) h.fr.tc.toNat q.ret }

/-! ### Frames arriving (R69, R105 to R108) -/

/-- The ingress check of R69. -/
def Blk.admits (b : Blk) (p : Nat) (fr : Frame) : Bool :=
  !b.reqRole p ||
  (b.get Reg.FQP_SRC_RANGE_SRC_LO p ≤ fr.src.toNat && fr.src.toNat ≤ b.get Reg.FQP_SRC_RANGE_SRC_HI p &&
   0x40 ≤ fr.src.toNat && !fr.mc)

/-- The frame in progress will go nowhere; its bytes are swallowed with its tail. -/
def Blk.transit (b : Blk) (p id : Nat) (fr : Frame) (mode : Nat) : Blk :=
  b.setPort p fun q => { q with hdr := some ⟨id, fr, mode⟩ }

/-- The header of an arriving frame is routed and cut through (R69, R105, R116, R133; R62 while FENCED). -/
def Blk.headerArrive (b : Blk) (p : Nat) : Blk :=
  let q := b.port p
  if b.up p && q.hdr.isNone && q.drop == 0 && 32 ≤ q.rx.length then
    let fr := Frame.ofHeader (ofBytesLE (q.rx.take 32))
    let (id, b) := b.newId
    let e : QEnt := { id, fr, eg := localEg, done := false, stamp := b.el, src := p, owes := true }
    if !b.admits p fr then
      ((b.count Reg.FQP_INGRESS_VIOL_CNT p).err (Pg.fqp p) 5).transit p id fr 2
    else if fr.mc then
      if b.fenced then b.noRoute.transit p id fr 2
      else (b.multicast fr e (!b.reqRole p)).transit p id fr 0
    else
      match b.route fr.src.toNat fr.dst.toNat fr.tc.toNat with
      | .deliver => (b.enqueue e).transit p id fr 0
      | .discard => b.noRoute.transit p id fr 2
      | .answer => if b.fenced then b.noRoute.transit p id fr 2 else b.transit p id fr 1
      | .port o alt =>
        if b.fenced then b.noRoute.transit p id fr 2
        else
          let b := if alt then b.count Reg.SWC_ADAPT_ALT_CNT else b
          (b.enqueue { e with eg := o }).transit p id fr 0
  else b

/-- The tail arrives and FCRC is compared (R106, R107); `fault`: the part itself failed the frame, which counts in FQP_RX_BAD_CNT whether or
not some of it had left (log entry 78). DESIGN CHOICE: a frame whose FCRC fails ends `bad_crc`, though the part fails it as well, and a
PEER_DEAD that the switch core answers waits as the home's competitor of Table 4.8 (log entries 96, 97). -/
def Blk.tailArrive (b : Blk) (p : Nat) (fault : Bool) : Blk :=
  let q := b.port p
  match q.hdr with
  | none => b
  | some h =>
    let len := h.fr.len
    if q.rx.length < len then b
    else
      let body := ofBytesLE ((q.rx.take (len - 8)).drop 32)
      let fr := h.fr.withRest body (ofBytesLE ((q.rx.take len).drop (len - 8)))
      let bad := if fr.endc ≠ 0 then 0 else if !fr.crcOk then Endc.badCrc else if fault then Endc.internal else 0
      let b := b.setPort p fun q => { q with rx := q.rx.drop len, hdr := none }
      let b := b.count Reg.FQP_RX_FRAME_CNT p
      let b := if fr.endc ≠ 0 ∨ bad ≠ 0 then (b.count Reg.FQP_RX_BAD_CNT p).err (Pg.fqp p) 3 else b
      let b := (if h.mode = 0 then b.completeTransit h.id fr bad else b).creditBack p fr h.id
      if h.mode = 0 then b
      else if h.mode = 1 then
        if fr.endc = 0 ∧ bad = 0 then
          let (a, b) := b.peerDeadFrame fr
          b.inject a 32
        else b.noRoute
      else b

/-- All bytes of the frame in progress have come. -/
def Port.wholeIn (q : Port) : Bool := decide (6 ≤ q.rx.length) && decide ((if bitAt (nth 0 q.rx 5).toNat 5 then 104 else 40) ≤ q.rx.length)

/-- Frames whose last byte has come are parsed and routed, at most `n`. -/
def Blk.takeWhole : Nat → Blk → Nat → Blk
  | 0, b, _ => b
  | n + 1, b, p =>
    if (b.port p).drop == 0 && (b.port p).wholeIn then takeWhole n ((b.headerArrive p).tailArrive p false) p else b

/-! ### A link goes down (R77, R113, R114, R592) -/

/-- What a dead port no longer sends, in the order it would have: frames whose tail was never acknowledged, the one it was sending, those
granted, those its resequencer holds, and those waiting for it (R113). -/
def Blk.leaving (b : Blk) (p : Nat) : List QEnt :=
  let q := b.port p
  (q.unacked.filter fun t => t.part != .head).map (fun t => { t.ent with done := true }) ++ q.sending.toList ++ q.out ++
    (b.sw.streams.filter (·.sink == p)).foldl (fun l s => l ++ s.held.map (·.2)) [] ++ b.sw.queue.filter (·.eg == p)

/-- One of them is sent again over another minimal path, or discarded (R113); a multicast copy is not sent again (R135). It keeps the competitor and
the age stamp it had (log entry 74). -/
def Blk.sendAgain (b : Blk) (p : Nat) (e : QEnt) : Blk :=
  let placed :=
    if e.fr.mc then b.mcDiscard
    else
      match b.route e.fr.src.toNat e.fr.dst.toNat e.fr.tc.toNat (some p) with
      | .port o alt =>
        let b := if alt then b.count Reg.SWC_ADAPT_ALT_CNT else b
        b.enqueue { e with eg := o, ingress := false, owes := e.owes && (e.ingress || !e.done) }
      | _ => b.count Reg.FQP_LINK_DOWN_DISCARD_CNT p
  placed.creditsOf e

/-- Frames as they are to be sent again: those in Slough are read back, before any slot is used anew; one that cannot be read is discarded
(R123, R125). -/
def Blk.readBack : List QEnt → Blk → List QEnt × Blk
  | [], b => ([], b)
  | e :: es, b =>
    match b.fromSlough e with
    | (x, b) =>
      match readBack es b with
      | (l, b) => (x.toList ++ l, b)

/-- Frames that were leaving by the port, or waiting to, are sent again or discarded (R113). -/
def Blk.resendFrom (b : Blk) (p : Nat) : Blk :=
  let (all, b) := Blk.readBack (b.leaving p) b
  let b := b.setPort p fun q => { q with unacked := [], out := [], sending := none }
  let b := { b with sw := { b.sw with streams := b.sw.streams.map fun (s : Stream) => if s.sink = p then { s with held := [] } else s } }
  let b := b.unqueue fun e => e.eg == p
  b.each all fun b e => b.sendAgain p e

/-- A frame was entering by the port: some of its bytes have come and not its last. -/
def Port.entering (q : Port) : Bool := q.drop == 0 && (q.hdr.isSome || !q.rx.isEmpty)

/-- What a port loses when its link is gone: the frames leaving by it and the frame entering by it (R113, R114), whose credits died with
the link. An abandoned frame counts in FQP_STALL_CNT as under R111, and sets FRAME_STALL unless the port was disabled (R592; log entry 76). -/
def Blk.linkGone (b : Blk) (p : Nat) (failed : Bool) : Blk :=
  let b := if (b.port p).entering then b.count Reg.FQP_STALL_CNT p else b
  let b := if (b.port p).entering && failed then b.err (Pg.fqp p) 4 else b
  let b := b.abandon p Endc.linkDown
  let b := b.setPort p fun q => { q with rx := [], drop := 0, lost := [], nak := false, replays := 0 }
  let b := { b with sw := { b.sw with queue := b.sw.queue.map fun (e : QEnt) => if e.src = p then { e with owes := false } else e } }
  let b := b.resendFrom p
  b.setPort p fun q => { q with crd := [0, 0, 0, 0], ret := [0, 0, 0, 0], reserved := 0 }

/-- The link goes down (R77); frames that have come in whole go their way. Bring-up starts again at once if 10 ms have passed since the last attempt began: that is
BRINGUP_RETRY's step. -/
def Blk.linkDown (b : Blk) (p : Nat) : Blk :=
  let b := b.takeWhole (b.port p).rx.length p
  let b := ((b.link p Ls.down).err (Pg.fqp p) 0).put Reg.FQP_LINK_DOWN_TIME_TIME b.now p
  (b.count Reg.FQP_LINK_DOWN_CNT p).linkGone p true

/-- Clearing ENABLE (R592): no failure is recorded. -/
def Blk.portDisable (b : Blk) (p : Nat) : Blk :=
  if b.get Reg.FQP_CTRL_ENABLE p = 0 then b
  else (((b.takeWhole (b.port p).rx.length p).put Reg.FQP_CTRL_ENABLE 0 p).link p Ls.disabled).linkGone p false

/-! ### Bring-up (R70) -/

/-- All eight lanes have lock: step 2, or an `up` port's lost lanes are back (R76). -/
def Blk.laneLock (b : Blk) (p : Nat) : Blk :=
  if b.get Reg.FQP_STATE_LINK_STATE p = Ls.lock then b.nextStep p Ls.align
  else b.setPort p fun q => { q with lost := [] }

/-- The bound of a bring-up step (Table 3.2). -/
def stepBound (st : Nat) : Nat :=
  match st with
  | 1 => ms 20
  | 2 => ms 1
  | 3 => ms 1
  | _ => us 100

/-- A step that misses its bound returns the port to `down`, recording nothing (R70). -/
def Blk.stepTimeout (b : Blk) (p : Nat) : Blk :=
  let st := b.get Reg.FQP_STATE_LINK_STATE p
  if 1 ≤ st ∧ st ≤ 4 ∧ (b.port p).stay = false ∧ b.past (b.port p).stepAt (stepBound st) then b.link p Ls.down else b

/-- A port in `down`, or staying in `init`, starts again 10 ms after its last attempt began (R70). -/
def Blk.bringupRetry (b : Blk) (p : Nat) : Blk :=
  if b.get Reg.FQP_CTRL_ENABLE p = 1 ∧ b.resting p ∧ b.past (b.port p).start (ms 10)
  then b.attempt p else b

/-- A grant value: below 13 acts as 13 (Table 3.17). -/
def grantOf (n : Nat) : Nat := if n < 13 then 13 else n

/-- The four grants a port gives, in class order. -/
def Blk.grants (b : Blk) (p : Nat) : List Nat :=
  [grantOf (b.get Reg.FQP_CREDIT_A_COH_UNITS p), grantOf (b.get Reg.FQP_CREDIT_A_REQ_UNITS p),
   grantOf (b.get Reg.FQP_CREDIT_B_RSP_UNITS p), grantOf (b.get Reg.FQP_CREDIT_B_BULK_UNITS p)]

/-! ### Acknowledgement and replay (R72 to R75) -/

/-- A replay starts at the oldest unacknowledged flit; one more than REPLAY_MAX from the same flit takes the link down. -/
def Blk.replay (b : Blk) (p : Nat) : Blk :=
  if (b.port p).unacked = [] then b
  else if b.get Reg.FQP_TIMING_REPLAY_MAX p ≤ (b.port p).replays then b.linkDown p
  else
    let b := (b.count Reg.FQP_REPLAY_CNT p).err (Pg.fqp p) 1
    b.setPort p fun q => { q with replays := q.replays + 1, unacked := q.unacked.map fun t => { t with sent := b.el } }

/-- An acknowledgement: every flit up to ACK_LSEQ is done with (R74, R108). -/
def Blk.ack (b : Blk) (p lseq : Nat) : Blk :=
  match (b.port p).unacked with
  | [] => b
  | h :: _ =>
    let n := (lseq + 4096 + 1 - h.lseq) % 4096
    if n = 0 ∨ (b.port p).unacked.length < n then b
    else b.setPort p fun q => { q with unacked := q.unacked.drop n, replays := 0 }

/-- Credits returned to the port by its peer (R78). -/
def Blk.credit (b : Blk) (p : Nat) (f : Flit) : Blk :=
  let n := [f.crdCoh.toNat, f.crdReq.toNat, f.crdRsp.toNat, f.crdBulk.toNat]
  b.setPort p fun q => { q with
    crd := q.crd.zipWith (· + ·) n,
    starved := (q.starved.zip n).map fun (s, k) => if k = 0 then s else b.el }

/-- The acknowledgement, possible NAK and credits that a good flit carries (R72). -/
def Blk.flitControl (b : Blk) (p : Nat) (f : Flit) : Blk :=
  let b := (b.ack p f.ackLseq.toNat).credit p f
  if f.nak then b.replay p else b

/-- What the FEC found in a flit's codewords (Table 3.17, Table 3.18). -/
def Blk.fec (b : Blk) (p : Nat) (f : Flit) : Blk :=
  let b := if f.fecFixed = 0 then b else b.countN Reg.FQP_FEC_CORR_CNT f.fecFixed.toNat p
  if f.fecBad then (b.count Reg.FQP_FEC_UNCORR_CNT p).err (Pg.fqp p) 2 else b

/-- An idle or control flit on a link that is up (R72). A bad one draws a NAK, and so does one that names a data flit not yet come; one that names
the last data flit taken shows that none is missing (R73, log entry 77). -/
def Blk.sideFlit (b : Blk) (p typ : Nat) (f : Flit) : Blk :=
  let b := b.fec p f
  if f.good && f.typ == typ then
    let gap := (f.lseq.toNat + 4096 + 1 - (b.port p).rxNext) % 4096
    (b.setPort p fun q => { q with nak := if gap = 0 then false else if gap < 2048 then true else q.nak }).flitControl p f
  else b.setPort p fun q => { q with nak := true }

/-- The part's own control flit: node ID, role and grants at the flit's byte offsets (R70; log entry 13); no data flit has gone either way. -/
def Blk.ownCtrl (b : Blk) (p : Nat) : Flit :=
  let f : Flit := { typ := 3, lseq := 4095, ackLseq := 4095,
                    bytes := .ofNat 1888 (b.node + (if b.reqRole p then 0 else 1) <<< 16 + pack 16 (b.grants p) <<< 32) }
  { f with lcrc := .ofNat 32 (crc32c f.covered) }

/-- FEC codeword lock: step 4 begins, and the port sends its control flit (Table 3.2). -/
def Blk.startInit (b : Blk) (p : Nat) : Blk := (b.nextStep p Ls.init).emit (.ctrlFlit p (b.ownCtrl p))

/-- A control flit in `init` (R70, R120); a port that stays in `init` waits for its next attempt. Its fields lie at the flit's byte offsets
(log entry 13). On a link that is up a control flit still carries an acknowledgement and credits (R72). -/
def Blk.ctrlFlit (b : Blk) (p : Nat) (f : Flit) : Blk :=
  if b.up p then b.sideFlit p 3 f
  else if b.get Reg.FQP_STATE_LINK_STATE p = Ls.init ∧ (b.port p).stay = false ∧ f.good ∧ f.typ = 3 then
    let w := f.bytes.toNat
    let node := bits w 15 0
    let role := bits w 23 16
    let peer := [bits w 47 32, bits w 63 48, bits w 79 64, bits w 95 80]
    let b := (b.put Reg.FQP_STATE_PEER_ROLE role p).put Reg.FQP_STATE_PEER_NODE node p
    let okPeer := if b.reqRole p then
        b.get Reg.FQP_SRC_RANGE_SRC_LO p ≤ node && node ≤ b.get Reg.FQP_SRC_RANGE_SRC_HI p
      else role == 1 && node ≤ 0x3F
    let mine := (b.grants p).foldl (· + ·) 0
    if !okPeer then ((b.err (Pg.fqp p) 6).setPort p fun q => { q with stay := true }).power p
    else if 2621440 < b.grantUsed + mine then ((b.err Pg.swc 1).setPort p fun q => { q with stay := true }).power p
    else
      ((b.link p Ls.up).setPort p fun q => { q with
        crd := peer, ret := [0, 0, 0, 0], starved := List.replicate 4 b.el, rxNext := 0, txNext := 0, unacked := [],
        replays := 0, nak := false, rx := [], hdr := none, drop := 0, reserved := mine, stay := false, lost := [] }).flitControl p f
  else b

/-- The class and length of the frame whose bytes are coming, once the byte that tells them has come. -/
def Port.shape (q : Port) : Option (Nat × Nat) :=
  if q.rx.length < 6 then none
  else
    let ctl := (nth 0 q.rx 5).toNat
    some (ctl / 64, if bitAt ctl 5 then 104 else 40)

/-- The buffer of an abandoned frame that was not routed is freed, once its class is known (R111). -/
def Blk.freeUnrouted (b : Blk) (p : Nat) : Blk :=
  match (b.port p).shape with
  | some (tc, len) => if (b.port p).drop = 2 then b.setPort p fun q => { q with drop := 1, ret := modNth (· + len / 8) tc q.ret } else b
  | none => b

/-- Bytes of an abandoned frame that have come in whole are discarded, up to and with its tail (R112). -/
def Blk.dropRest (b : Blk) (p : Nat) : Blk :=
  let b := b.freeUnrouted p
  match (b.port p).shape with
  | some (_, len) =>
    if (b.port p).drop = 0 ∨ (b.port p).rx.length < len then b
    else (b.setPort p fun q => { q with rx := q.rx.drop len, drop := 0 }).count Reg.FQP_RESUME_DISCARD_CNT p
  | none => b

/-- A flit taken before and sent again (R75): no gap, and discarded without a NAK. -/
def Port.seen (q : Port) (lseq : Nat) : Bool := decide ((q.rxNext + 4096 - 1 - lseq) % 4096 < 2048)

/-- A data flit (R73): in order it is taken, its bytes join the frame stream; else NAK until the expected one comes. DESIGN CHOICE: one with VALID
outside 1 to 236 is treated as a bad flit (log entry 96). -/
def Blk.dataFlit (b : Blk) (p : Nat) (f : Flit) : Blk :=
  if b.up p = false then b
  else
    let b := b.fec p f
    let v := f.valid.toNat
    if f.good && f.typ == 1 && f.lseq.toNat == (b.port p).rxNext && 1 ≤ v && v ≤ 236 then
      let b := b.setPort p fun q => { q with rxNext := (q.rxNext + 1) % 4096, nak := false, rx := q.rx ++ (bytesLE 236 f.bytes.toNat).take v, rxAt := b.el }
      (b.flitControl p f).dropRest p
    else if f.good && f.typ == 1 && (b.port p).seen f.lseq.toNat then b
    else b.setPort p fun q => { q with nak := true }

/-- An idle flit (R72, R73). -/
def Blk.idleFlit (b : Blk) (p : Nat) (f : Flit) : Blk := if b.up p then b.sideFlit p 2 f else b

/-- The oldest unacknowledged flit has gone 2 µs without acknowledgement (R75); 10 µs after a flit that is never acknowledged was first
sent, its link goes down (R77). -/
def Blk.replayTimeout (b : Blk) (p : Nat) : Blk :=
  match (b.port p).unacked with
  | [] => b
  | h :: _ =>
    if b.up p && b.past h.first (us 10) then b.linkDown p
    else if b.up p && b.past h.sent (us 2) then b.replay p
    else b

/-- A lane loses lock (R76). -/
def Blk.laneLoss (b : Blk) (p lane : Nat) : Blk :=
  b.setPort p fun q => { q with
    lost := if q.lost.contains lane then q.lost else q.lost ++ [lane],
    lostAt := if q.lost = [] then b.el else q.lostAt }

/-- A lane has lacked lock for LOCK_HOLD_US (R76). -/
def Blk.lockHold (b : Blk) (p : Nat) : Blk :=
  if b.up p && !(b.port p).lost.isEmpty && b.past (b.port p).lostAt (us (b.get Reg.FQP_TIMING_LOCK_HOLD_US p)) then b.linkDown p
  else b

/-- A class has had a frame waiting, and no credit, for 1 ms (R80). -/
def Blk.starvedClass (b : Blk) (p c : Nat) : Blk :=
  let waits := b.sw.queue.any (fun e => e.eg == p && e.fr.tc.toNat == c) || (b.port p).out.any (fun e => e.fr.tc.toNat == c)
  if b.up p && waits && b.past (nth 0 (b.port p).starved c) (ms 1) then b.err (Pg.fqp p) 7 else b

/-! ### Stalls (R109 to R112) -/

/-- The frame stall time of a port (R109). -/
def Blk.stallUs (b : Blk) (p : Nat) : Nat :=
  let n := b.get Reg.FQP_TIMING_FRAME_STALL_US p
  if n = 0 then (if b.reqRole p then 2 else 4) else n

/-- No byte of the frame in progress has come for FRAME_STALL_US: it is abandoned (R109, R111). -/
def Blk.frameStall (b : Blk) (p : Nat) : Blk :=
  let q := b.port p
  if b.up p && q.drop == 0 && !q.rx.isEmpty && !q.wholeIn && b.past q.rxAt (us (b.stallUs p)) then
    let b := ((b.abandon p Endc.stalled).setPort p fun r => { r with drop := if q.hdr.isSome then 1 else 2 }).freeUnrouted p
    (b.count Reg.FQP_STALL_CNT p).err (Pg.fqp p) 4
  else b

end Sys2Proof.Machine
end

