-- ==== Sys2Proof/Machine/Origin.lean ====
section
/-! DEFINITION. The requests the part itself originates (R103, R104, R591), translation of engine addresses (R38),
and the responses that complete them. -/
namespace Sys2Proof.Machine

/-! ### Translation (R38, R39, R66) -/

/-- Rights as bits: RD 4, WR 2, AT 1 (Table 2.2). -/
def rdRight : Nat := 4
def wrRight : Nat := 2
def atRight : Nat := 1

/-- The right an opcode needs (Table 2.4). -/
def rightOf (opc : Nat) : Nat :=
  if opc = Opc.rdOwn then rdRight + wrRight else if isRead opc then rdRight else if isWrite opc then wrRight else atRight

/-- All of the bits `need` are in `have_`. -/
def granted (need have_ : Nat) : Bool := need &&& have_ == need

/-- The outcome of a translation: an address, or a status with the cause Table 2.5 names. -/
inductive Xlt where
  | addr (a : Nat)
  | fail (status cause : Nat)
  deriving DecidableEq, Repr

/-- The rights of a translation entry. -/
def Blk.entryRights (b : Blk) (i : Nat) : Nat :=
  4 * b.get Reg.xlt_entry_RD i + 2 * b.get Reg.xlt_entry_WR i + b.get Reg.xlt_entry_AT i

/-- translate (R38). -/
def Blk.translate (b : Blk) (tenant va need : Nat) : Xlt :=
  if b.get Reg.tenant_ctx_EN tenant = 0 then .fail St.unmapped 0
  else
    let lg := b.get Reg.tenant_ctx_LG_VA_BASE tenant * 2 ^ 31
    let sm := b.get Reg.tenant_ctx_SM_VA_BASE tenant * 2 ^ 26
    let entry (i size off : Nat) : Xlt :=
      if b.get Reg.xlt_entry_V i = 0 then .fail St.unmapped 0
      else if b.get Reg.xlt_entry_SIZE i ≠ size then .fail St.unmapped 3
      else if b.get Reg.xlt_entry_TENANT i ≠ tenant then .fail St.unmapped 2
      else if granted need (b.entryRights i) then .addr (b.get Reg.xlt_entry_PPN i * 2 ^ 26 + off)
      else .fail St.rights 1
    if lg ≤ va ∧ va < lg + b.get Reg.tenant_ctx_LG_COUNT tenant * 2 ^ 31 then
      entry (b.get Reg.tenant_ctx_LG_FIRST tenant + (va - lg) / 2 ^ 31) 1 (va % 2 ^ 31)
    else if sm ≤ va ∧ va < sm + b.get Reg.tenant_ctx_SM_COUNT tenant * 2 ^ 26 then
      entry (b.get Reg.tenant_ctx_SM_FIRST tenant + (va - sm) / 2 ^ 26) 0 (va % 2 ^ 26)
    else .fail St.unmapped 0

/-- A line that ends at translation (R66). -/
def Blk.xltFault (b : Blk) (tenant va cause : Nat) : Blk :=
  (((b.put Reg.XLT_FAULT_VA va).put Reg.XLT_FAULT_TENANT tenant).put Reg.XLT_FAULT_CAUSE cause).err Pg.xlt 2

/-! ### TAGs and sending (R87, R88, R103, R104) -/

/-- SWC_REQ_TIMEOUT as a span. -/
def Blk.reqTimeout (b : Blk) : Nat := us (b.get Reg.SWC_REQ_TIMEOUT_TIMEOUT_US)

/-- A TAG is barred toward a node: outstanding, or timed out less than twice TIMEOUT_US ago. -/
def Blk.tagBarred (b : Blk) (dst tag : Nat) : Bool :=
  b.orig.out.any (fun o => o.fr.dst.toNat == dst && o.fr.tag.toNat == tag) ||
  b.orig.quar.any fun q => q.1 == dst && q.2.1 == tag && !b.past q.2.2 (2 * b.reqTimeout)

/-- A TAG allowed toward a node, other than `old`: the first one from an open start; none while 4,096 requests are outstanding there
(R88) or every TAG is barred. -/
def Blk.takeTag (b : Blk) (dst : Nat) (old : Option Nat := none) : Option Nat × Blk :=
  if 4096 ≤ (b.orig.out.filter fun o => o.fr.dst.toNat == dst).length then (none, b)
  else
    let (d, b) := b.draw (2 ^ 16)
    let n := b.orig.out.length + b.orig.quar.length + 2
    (((List.range n).map fun i => (d + i) % 2 ^ 16).find? fun t => !b.tagBarred dst t && old != some t, b)

/-- Send a request with a TAG: the part's restart epoch as it is now (R33), next SEQ of its stream, FCRC, into the switch core. -/
def Blk.sendOut (b : Blk) (o : Out) (tag : Nat) : Blk :=
  let (n, b) := b.nextSeq o.fr.src.toNat o.fr.dst.toNat o.fr.tc.toNat
  let fr := { o.fr with tag := .ofNat 16 tag, seq := .ofNat 24 n, restart := .ofNat 16 b.restart }.sealed
  let b := { b with orig := { b.orig with out := b.orig.out ++ [{ o with fr }] } }
  b.inject fr o.src (o.tile / 8)

/-- An outcome for an agent. -/
def Blk.result (b : Blk) (a : Agent) (status : Nat) (data : Line := 0) : Blk :=
  { b with orig := { b.orig with results := b.orig.results ++ [(a, status, data)] } }

/-- The part originates a request (R103). A FENCED part originates none, and its request ends FENCED (R62); while the part
has no restart epoch (R64), or no TAG is free (R104), the request waits unsent. -/
def Blk.originate (b : Blk) (o : Out) : Blk :=
  if b.fenced then b.result o.agent St.fenced
  else if b.restart = 0 ∨ b.orig.waiting.any (fun q => q.fr.dst == o.fr.dst) then
    { b with orig := { b.orig with waiting := b.orig.waiting ++ [{ o with sent := 0 }] } }
  else
    match b.takeTag o.fr.dst.toNat with
    | (some t, b) => b.sendOut { o with sent := b.el } t
    | (none, b) => { b with orig := { b.orig with waiting := b.orig.waiting ++ [{ o with sent := 0 }] } }

/-- The TAG of an earlier sending, which a reissue does not carry again (R591). -/
def Out.tagBefore (o : Out) : Option Nat := if o.sent = 0 then none else some o.fr.tag.toNat

/-- The first unsent request toward a node is sent once a TAG frees (R104). -/
def Blk.sendPending (b : Blk) (dst : Nat) : Blk :=
  match b.orig.waiting.find? fun o => o.fr.dst.toNat == dst with
  | none => b
  | some o =>
    if b.restart = 0 then b
    else
      match b.takeTag dst o.tagBefore with
      | (some t, b) =>
        let b := { b with orig := { b.orig with waiting := b.orig.waiting.erase o } }
        b.sendOut { o with sent := if o.sent = 0 then b.el else o.sent } t
      | (none, _) => b

/-- The class a request of the part goes in, and its frame (R33, R85). -/
def Blk.reqFrame (b : Blk) (opc addr tenant : Nat) (bulk : Bool) (arg : Nat := 0) (data : Line := 0) (final : Bool := false) : Frame :=
  { dst := .ofNat 16 (addr / 2 ^ 47), src := .ofNat 16 b.node, opc := .ofNat 8 opc, tc := if bulk then 3 else 1,
    pl := !isRead opc, final, restart := .ofNat 16 b.restart, tenant := .ofNat 12 tenant,
    epoch := .ofNat 32 (b.get Reg.tenant_ctx_COMP_EPOCH tenant), addr := .ofNat 64 addr, arg := .ofNat 32 arg,
    data := if isRead opc then 0 else data }

/-- Lines of a Mule of a tile outstanding, local or remote. -/
def Blk.muleLines (b : Blk) (tile mule : Nat) (remote : Bool) : Nat :=
  ((b.orig.out ++ b.orig.waiting).filter fun o => o.mule == some mule && o.tile == tile && (o.fr.dst.toNat != b.node) == remote).length

/-- The Mule of a tile that issues the next line of a kind: the one with fewer of them outstanding; none where both are at their limit, 64
local lines or 256 remote ones each (R317). -/
def Blk.freeMule (b : Blk) (tile : Nat) (remote : Bool) : Option Nat :=
  let m := if b.muleLines tile 1 remote < b.muleLines tile 0 remote then 1 else 0
  if b.muleLines tile m remote < (if remote then 256 else 64) then some m else none

/-- Issue an access that a thread has reached. Remote lines of a Mule go in the bulk class (R317). -/
def Blk.issue (b : Blk) (tenant : Nat) (r : Reach) : Blk :=
  let q := r.ask
  let out (fr : Frame) (va : Option (Nat × Nat)) : Out :=
    { fr, agent := .work r.work q.op, va, retried := r.retried, src := 24 + r.tile % 8, tile := r.tile, cls := q.cls,
      mule := if q.bulk then b.freeMule r.tile (fr.dst.toNat != b.node) else none }
  match r.fr with
  | some fr => b.originate (out fr none)
  | none =>
    let need := if q.right = 0 then rightOf q.opc else q.right
    match b.translate tenant q.va need with
    | .fail s c => (b.xltFault tenant q.va c).result (.work r.work q.op) s
    | .addr a =>
      let remote := a / 2 ^ 47 ≠ b.node
      b.originate (out (b.reqFrame q.opc a tenant (q.cls || (q.bulk && remote)) q.arg q.data q.final) (some (q.va, need)))

/-! ### Responses -/

/-- The part becomes FENCED, and the event is recorded in WIN.ERR_FIRST whatever it holds (R61); a request not yet sent ends FENCED,
since none is originated any more (R62). -/
def Blk.enterFenced (b : Blk) : Blk :=
  let b := (b.put Reg.PAGE_STATUS_FENCED 1 Pg.glb).put Reg.PAGE_STATUS_FENCED 1 Pg.win
  let stuck := b.orig.waiting
  let b := b.each stuck fun b o => b.result o.agent St.fenced
  let b := { b with orig := { b.orig with waiting := [] } }
  (b.err Pg.win 3).puts Pg.win [(Reg.ERR_FIRST_INFO, 0), (Reg.ERR_FIRST_VALID, 1), (Reg.ERR_FIRST_CLASS, b.classOf Pg.win 3),
    (Reg.ERR_FIRST_BIT, 3), (Reg.ERR_FIRST_TIME_TIME, b.now)]

/-- A request is no longer outstanding. -/
def Blk.closeOut (b : Blk) (o : Out) : Blk := { b with orig := { b.orig with out := b.orig.out.erase o } }

/-- The outstanding request a response answers: of its TAG, and sent to the responder. A PEER_DEAD may come from any part on the way
(Table 4.2), so the ADDRESS it echoes (R89) names the request instead; of a multicast FINAL line, one
request toward each member, it is the member's own answer (R439). -/
def Blk.answered (b : Blk) (r : Frame) : Option Out :=
  b.orig.out.find? fun o => o.fr.tag == r.tag && o.fr.src == r.dst &&
    (if r.status == .ofNat 8 St.peerDead then o.fr.addr == r.addr && (!o.mc || o.fr.dst == r.src) else o.fr.dst == r.src)

/-- Take a response (R65, R104): what is done with the request it answers is `act`. -/
def Blk.takeResponse (b : Blk) (r : Frame) (act : Blk → Out → Blk) : Blk :=
  if r.restart.toNat ≠ b.restart then b.count Reg.WIN_RESTART_DISCARD_CNT
  else
    match b.answered r with
    | none => b.count Reg.SWC_LATE_RSP_CNT
    | some o => act b o

/-- The same request sent again with a new TAG and the next SEQ; its timeout still runs from the first sending (R591). -/
def Blk.reissue (b : Blk) (o : Out) : Blk :=
  let b := b.closeOut o
  if b.fenced then b.result o.agent St.fenced
  else match b.takeTag o.fr.dst.toNat (some o.fr.tag.toNat) with
  | (some t, b) => b.sendOut o t
  | (none, b) => { b with orig := { b.orig with waiting := o :: b.orig.waiting } }

/-- The access a request of a work was made for, reached again (R51). -/
def Out.again (o : Out) (w va need : Nat) : Reach :=
  let op := match o.agent with
    | .work _ op => op
    | _ => 0
  { work := w, tile := o.tile, thread := 0, retried := true,
    ask := { op, opc := o.fr.opc.toNat, va, arg := o.fr.arg.toNat, data := o.fr.data, bulk := o.mule.isSome, final := o.fr.final, right := need, cls := o.cls } }

/-- RSP_DATA: the request completes OK with the line. -/
def Blk.rspData (b : Blk) (r : Frame) : Blk := b.takeResponse r fun b o => (b.closeOut o).result o.agent St.ok r.data

/-- RSP_ACK: the request completes OK. -/
def Blk.rspAck (b : Blk) (r : Frame) : Blk := b.takeResponse r fun b o => (b.closeOut o).result o.agent St.ok

/-- RSP_ERR: the request completes with its status, as Table 0.5 has it (R13); STALE_EPOCH may be reissued once (R51): its thread
reaches it again, and it is translated, classed and held to its Mule's limits anew (R317) as a request sent for the first time (log entry 79), and with the fence flag the part becomes FENCED (R61). -/
def Blk.rspErr (b : Blk) (r : Frame) : Blk :=
  b.takeResponse r fun b o =>
    let s := asFailure r.status.toNat
    let b := if s = St.staleEpoch ∧ r.fence = true then b.enterFenced else b
    let now := b.get Reg.tenant_ctx_COMP_EPOCH o.fr.tenant.toNat
    let stale := s = St.staleEpoch ∧ r.fence = false ∧ o.retried = false ∧ now ≠ o.fr.epoch.toNat ∧ notOlder now o.fr.epoch.toNat = true
    match o.agent, o.va with
    | .work w _, some (va, need) =>
      if stale then
        let b := b.closeOut o
        { b with eng := { b.eng with reach := b.eng.reach ++ [o.again w va need] } }
      else (b.closeOut o).result o.agent s
    | _, _ => (b.closeOut o).result o.agent s

/-- RETRY_RSV: the request is reissued at once (R591). -/
def Blk.retryRsv (b : Blk) (r : Frame) : Blk := b.takeResponse r fun b o => b.reissue o

/-- The outcome given for a multicast FINAL line that no response came for: no status, but the word to resend (R438). -/
def unanswered : Nat := 0x100

/-- A request's timeout expires (R103); its TAG rests (R104). -/
def Blk.requestTimeout (b : Blk) (dst tag : Nat) : Blk :=
  match b.orig.out.find? fun o => o.fr.dst.toNat == dst && o.fr.tag.toNat == tag with
  | none => b
  | some o =>
    if b.past o.sent b.reqTimeout then
      let b := b.closeOut o
      let b := { b with orig := { b.orig with quar := (b.orig.quar.filter fun (q : Nat × Nat × Nat) => !b.past q.2.2 (2 * b.reqTimeout)) ++ [(dst, tag, b.el)] } }
      b.result o.agent (if o.mc then unanswered else if dst < 64 ∧ bitAt (b.get Reg.WIN_PEER_DEAD_DEAD) dst = true then St.peerDead else St.internal)
    else b

end Sys2Proof.Machine
end

