-- ==== Sys2Proof/Machine/Tier.lean ====
section
/-! DEFINITION. The tier stage (ch. 08): descriptors, block map and frames, touches and heat, fetches, eviction and
write-downs up to the point where waiting requests go on. -/
namespace Sys2Proof.Machine

namespace Bst
def absent : Nat := 0
def fetching : Nat := 1
def resident : Nat := 2
def writingDown : Nat := 3
def pinned : Nat := 4
end Bst

namespace Cls
def resident : Nat := 0
def state : Nat := 1
def weights : Nat := 2
end Cls

/-- The non-free descriptor of a 64 MiB unit. -/
def Blk.placeOf (b : Blk) (page : Nat) : Option Nat :=
  (b.entriesWith Reg.place_STATE).find? fun i =>
    b.get Reg.place_LOCAL_BASE i ≤ page && page < b.get Reg.place_LOCAL_BASE i + b.get Reg.place_SIZE i

/-- The blocks of a descriptor: the first one and how many (R254). -/
def Blk.placeBlocks (b : Blk) (i : Nat) : Nat × Nat := (b.get Reg.place_LOCAL_BASE i * 1024, b.get Reg.place_SIZE i * 1024)

/-- The blocks of a descriptor whose map entry is not zero in a field. -/
def Blk.blocksWith (b : Blk) (d : Nat) (f : Fld) : List Nat :=
  let (lo, n) := b.placeBlocks d
  (b.entriesWith f).filter fun k => lo ≤ k && k < lo + n

/-- The STAMP of now (Table 8.4). -/
def Blk.stampNow (b : Blk) : Nat := b.now / 1024

/-- A touch of a frame (R262): STAMP follows when it is behind by more than the grain. -/
def Blk.touchFrame (b : Blk) (f : Nat) : Blk :=
  if b.get Reg.TIER_CFG_TOUCH_GRAIN_US * 1000 < b.now - b.get Reg.frame_STAMP f * 1024 then b.put Reg.frame_STAMP b.stampNow f else b

/-- A touch of a block in the pool; during a write-down it is noted (R268). -/
def Blk.touch (b : Blk) (blk : Nat) : Blk :=
  let f := b.get Reg.map_FRAME blk
  let b := b.touchFrame f
  if b.get Reg.map_BSTATE blk = Bst.writingDown then b.put Reg.frame_TOUCHED_DURING 1 f else b

/-- The halving period that is now (R273), which no step of the counter moves (R526). -/
def Blk.heatEpoch (b : Blk) : Nat := b.el / ns (b.get Reg.HIWYN_CFG_HALVE_MS * 1000000) % 2 ^ 16

/-- The halvings due to a block's heat; eight make it zero (R273). -/
def Blk.coolHeat (b : Blk) (blk : Nat) : Blk :=
  let n := subMod 16 b.heatEpoch (b.get Reg.map_HEAT_EPOCH blk)
  let h := if 8 ≤ n then 0 else b.get Reg.map_HEAT blk / 2 ^ n
  (b.put Reg.map_HEAT h blk).put Reg.map_HEAT_EPOCH b.heatEpoch blk

/-- A touch of a Hiwyn block (R273). -/
def Blk.updateHeat (b : Blk) (blk : Nat) : Blk :=
  let b := b.coolHeat blk
  b.put Reg.map_HEAT (min 255 (b.get Reg.map_HEAT blk + 1)) blk

/-! ### Frames (R259) -/

/-- A frame not in use: which one is open (R259). -/
def Blk.freeFrame (b : Blk) : Option Nat × Blk :=
  if b.get Reg.TIER_POOL_FREE_FRAMES = 0 then (none, b)
  else
    let total := b.get Reg.TIER_POOL_TOTAL_FRAMES
    let (d, b) := b.draw total
    let used := (b.entriesWith Reg.frame_USED).length
    (((List.range (used + 1)).map fun i => (d + i) % total).find? fun f => b.get Reg.frame_USED f == 0, b)

/-- Take a frame for a block of a tenant. -/
def Blk.useFrame (b : Blk) (f tenant blk : Nat) (sys : Bool := false) : Blk :=
  let b := b.puts f [(Reg.frame_USED, 1), (Reg.frame_SYS, b2n sys), (Reg.frame_TENANT, tenant), (Reg.frame_BLOCK, blk),
    (Reg.frame_TOUCHED_DURING, 0), (Reg.frame_STAMP, b.stampNow)]
  b.put Reg.TIER_POOL_FREE_FRAMES (b.get Reg.TIER_POOL_FREE_FRAMES - 1)

/-- Give a frame back. -/
def Blk.dropFrame (b : Blk) (f : Nat) : Blk :=
  (b.clearEntry .t_frame f).put Reg.TIER_POOL_FREE_FRAMES (b.get Reg.TIER_POOL_FREE_FRAMES + 1)

/-- Add to the pinned frames. -/
def Blk.pinFrames (b : Blk) (n : Nat) : Blk := b.put Reg.TIER_POOL_PINNED_FRAMES (b.get Reg.TIER_POOL_PINNED_FRAMES + n)

/-- Fewer pinned frames. -/
def Blk.unpinFrames (b : Blk) (n : Nat) : Blk := b.put Reg.TIER_POOL_PINNED_FRAMES (b.get Reg.TIER_POOL_PINNED_FRAMES - n)

/-! ### Fetches (R264) -/

/-- The address of a block in its lower tier and of its trailer: host memory (R269) or Peat (R272). -/
def Blk.lowerOf (b : Blk) (d blk : Nat) : Bool × Nat × Nat :=
  let i := blk - b.get Reg.place_LOCAL_BASE d * 1024
  if b.get Reg.place_CLASS d = Cls.weights then (true, b.get Reg.place_LOWER_BASE d + i, 0)
  else (false, b.get Reg.place_LOWER_BASE d + i * 65536, b.get Reg.place_TRL_BASE d + i * 128)

namespace Ps
def absent : Nat := 0
def unformatted : Nat := 1
def mounting : Nat := 2
def ok : Nat := 3
def degraded : Nat := 4
def readOnly : Nat := 5
def failed : Nat := 6
end Ps

/-- The lower tier answers reads: Peat is mounted (R305), or the PF may master the bus (R461). -/
def Blk.lowerOpen (b : Blk) (peat : Bool) : Bool :=
  if peat then decide (Ps.ok ≤ b.get Reg.PEAT_STATE_STATE) else b.pcie.master.contains 0

/-- A fetch of a block fills its frame with zero plaintext (R264, R272): the lower tier holds no copy. What Peat holds is known
only once it is mounted (R305). -/
def Blk.zeroFill (b : Blk) (blk d : Nat) : Bool :=
  b.get Reg.map_STORED blk == 0 ||
  (b.get Reg.place_CLASS d == Cls.weights && b.lowerOpen true && b.get Reg.lmap_V (b.lowerOf d blk).2.1 == 0)

/-- The lower tier takes write-downs (R291, R461). -/
def Blk.lowerWritable (b : Blk) (peat : Bool) : Bool :=
  b.lowerOpen peat && !(peat && decide (Ps.readOnly ≤ b.get Reg.PEAT_STATE_STATE))

/-- A host-memory read of `n` bytes, split at Max Read Request Size and counted as TLPs (R461). -/
def Blk.hostRead (b : Blk) (addr n : Nat) : Blk :=
  let m := b.pcie.mrrs
  let k := (n + m - 1) / m
  (b.each (List.range k) fun b i => b.emit (.hostRead (addr + i * m) (Nat.min m (n - i * m)))).countN Reg.PCIE_TIER_RD_CNT k

/-- A read of host memory goes out, for `what` (`Tier.asked`). -/
def Blk.asking (b : Blk) (what : Nat × Nat) : Blk := { b with tier := { b.tier with asked := b.tier.asked ++ [what] } }

/-- One has come back. -/
def Blk.answered_ (b : Blk) (what : Nat × Nat) : Blk := { b with tier := { b.tier with asked := b.tier.asked.erase what } }

/-- More of them are out than are still waited for: the first to come back is for none (R463). -/
def Blk.stray (b : Blk) (what : Nat × Nat) (waiting : Nat) : Bool := decide (waiting < (b.tier.asked.filter (· == what)).length)

/-- A host-memory read ends with Unsupported Request or Completer Abort, or returns a poisoned TLP (R463). -/
def Blk.hostReadBad (b : Blk) : Blk := (b.count Reg.PCIE_TIER_ERR_CNT).err Pg.pcie 3

/-- A write to host memory, split at Max Payload Size (R461). -/
def Blk.hostWrite (b : Blk) (addr : Nat) (data : List Line) : Blk :=
  let n := b.pcie.mps / 64
  b.each (List.range ((data.length + n - 1) / n)) fun b i => b.emit (.lower (addr + i * b.pcie.mps) ((data.drop (i * n)).take n))

/-- Ask the lower tier for a block or sub-block of `n` bytes, where it answers: of host memory, its trailer too. -/
def Blk.askLower (b : Blk) (peat : Bool) (addr trl : Nat) (what : Nat × Nat) (n : Nat) : Blk :=
  if b.lowerOpen peat = false then b
  else if peat then b.emit (.peatAsk addr what.2)
  else ((b.hostRead addr n).hostRead trl 128).asking what

/-- A fetch has its frame: it asks the lower tier where a copy is stored there, and is counted. -/
def Blk.fetchFrame (b : Blk) (blk d f : Nat) : Blk :=
  let b := (b.useFrame f (b.get Reg.place_TENANT d) blk).put Reg.map_FRAME f blk
  let b := { b with tier := { b.tier with fetches := b.tier.fetches.map fun (x : Fetch) =>
    if x.block = blk ∧ x.pass = false then { x with frame := some f, since := b.el } else x } }
  if b.get Reg.map_STORED blk = 0 then b
  else
    let (peat, addr, trl) := b.lowerOf d blk
    let b := if b.zeroFill blk d then b else b.askLower peat addr trl (0, blk) 65536
    b.count (if peat then Reg.TIER_FETCH_PEAT_CNT else Reg.TIER_FETCH_HOST_CNT)

/-- Start the fetch of an absent block; it takes a frame at once where one is free. -/
def Blk.startFetch (b : Blk) (blk d : Nat) : Blk :=
  let b := (b.put Reg.map_BSTATE Bst.fetching blk).put Reg.map_FRAME 0 blk
  let b := { b with tier := { b.tier with fetches := b.tier.fetches ++ [{ block := blk, desc := d, since := b.el }] } }
  if b.tier.fetches.any fun x => x.frame.isNone && !x.pass && x.block != blk then b
  else
    match b.freeFrame with
    | (some f, b) => b.fetchFrame blk d f
    | (none, b) => b

/-- Freed frames go first to the fetches that wait for one, in the order in which they began to wait (R266). -/
def Blk.feedFetches : Nat → Blk → Blk
  | 0, b => b
  | n + 1, b =>
    match b.tier.fetches.find? fun x => x.frame.isNone && !x.pass with
    | none => b
    | some x =>
      match b.freeFrame with
      | (some f, b) => feedFetches n (b.fetchFrame x.block x.desc f)
      | (none, b) => b

/-- What the tier stage says of a request (R263). -/
inductive TierSays where
  | go | wait | pass
  | fail (status : Nat)
  deriving DecidableEq, Repr

/-- A request ends at the tier stage for want of a descriptor (R256). -/
def Blk.unplaced (b : Blk) : Blk := (b.count Reg.TIER_UNPLACED_CNT).err Pg.tier 6

/-- tier_stage (R263, R264); `again`: for a request that had passed the stage and whose block has left the pool since, which finishes although
its descriptor is being retired (R257). -/
def Blk.tierStage (b : Blk) (tenant off : Nat) (readOnly : Bool) (again : Bool := false) : TierSays × Blk :=
  match b.placeOf (off / 2 ^ 26) with
  | none => (.fail St.unmapped, b.unplaced)
  | some d =>
    if b.get Reg.place_STATE d ≠ 1 ∧ again = false then (.fail St.unmapped, b.unplaced)
    else if tenant ≠ b.get Reg.place_TENANT d ∧ tenant ≠ 0 then (.fail St.tenantBlocked, b.count Reg.TIER_TENANT_CNT)
    else
      let blk := off / 65536
      let hiwyn := b.get Reg.place_HIWYN d = 1
      let b := if hiwyn then b.updateHeat blk else b
      let st := b.get Reg.map_BSTATE blk
      if st = Bst.pinned ∨ st = Bst.resident ∨ st = Bst.writingDown then (.go, b.touch blk)
      else if st = Bst.fetching then (.wait, b)
      else if hiwyn ∧ readOnly = true ∧ b.get Reg.map_HEAT blk < b.get Reg.HIWYN_CFG_HEAT_UP then (.pass, b.count Reg.TIER_PASS_CNT)
      else if b.zeroFill blk d && !b.loaded (b.get Reg.place_TENANT d) then
        (.fail St.rights, (b.count Reg.CRYPT_NOKEY_CNT).err Pg.crypt 0)
      else (.wait, b.startFetch blk d)

/-- The resident line of a local line whose block is in the pool. -/
def Blk.raOf (b : Blk) (line : Nat) : Option Nat :=
  let st := b.get Reg.map_BSTATE (line / 1024)
  if st = Bst.resident ∨ st = Bst.writingDown ∨ st = Bst.pinned then some (b.get Reg.map_FRAME (line / 1024) * 1024 + line % 1024)
  else none

/-- A commit changes a block (Table 8.3, DIRTY). -/
def Blk.markDirty (b : Blk) (blk : Nat) : Blk := b.put Reg.map_DIRTY 1 blk

/-! ### Eviction (R266 to R268) -/

/-- The frames whose block may be evicted. -/
def Blk.evictable (b : Blk) : List Nat :=
  (b.entriesWith Reg.map_BSTATE).filterMap fun blk =>
    if b.get Reg.map_BSTATE blk = Bst.resident ∧ b.get Reg.frame_SYS (b.get Reg.map_FRAME blk) = 0 then some (b.get Reg.map_FRAME blk) else none

/-- The frame with the smallest STAMP, ties to the lowest number. -/
def Blk.oldest (b : Blk) : List Nat → Option Nat
  | [] => none
  | f :: fs =>
    match b.oldest fs with
    | none => some f
    | some g =>
      if b.get Reg.frame_STAMP f < b.get Reg.frame_STAMP g ∨ (b.get Reg.frame_STAMP f = b.get Reg.frame_STAMP g ∧ f < g) then some f else some g

/-- The evictor is to run (R266). -/
def Blk.evicting (b : Blk) : Bool :=
  decide (b.get Reg.TIER_POOL_FREE_FRAMES * 100 < b.get Reg.TIER_CFG_FREE_LOW_PCT * b.get Reg.TIER_POOL_TOTAL_FRAMES) ||
  b.tier.evicting || b.tier.fetches.any (fun x => x.frame.isNone && !x.pass) ||
  (match b.tier.job with
   | some (.place _ _) => true
   | _ => false)

/-- The lines of a block that may not be sent down: uncorrectable or in a lost stack (R268). -/
def Blk.badLines (b : Blk) (blk : Nat) : Bool :=
  (List.range 1024).any fun k => match (b.decodeAt (b.get Reg.map_FRAME blk * 1024 + k)).1 with | .good _ => false | _ => true

/-- The ciphertext of a block as it goes down (R237, R268), with the corrections of its lines counted. -/
def Blk.blockCipher (b : Blk) (blk : Nat) : List Line × Blk :=
  (List.range 1024).foldl (fun (x : List Line × Blk) k =>
    match x.2.readRa (b.get Reg.map_FRAME blk * 1024 + k) with
    | (.good s, c) => (x.1 ++ [s.cipher], c)
    | (_, c) => (x.1 ++ [0], c)) ([], b)

/-- The CRC-32C of 4 KiB of ciphertext. -/
def subCrc (ls : List Line) : Nat := crc32c (ls.flatMap lineBytes)

/-- Word 0 of a block's trailer as the part writes it (Table 8.6). -/
def Blk.trailerWord (b : Blk) (d blk : Nat) : Nat :=
  putBits (putBits (blk % 2 ^ 31) 46 12 (b.get Reg.place_TENANT d)) 58 6 b.node

/-- A block's trailer: word 0, then the sixteen SUB_CRCs (Table 8.6). -/
def Blk.trailer (b : Blk) (d blk : Nat) (crcs : List Nat) : List Line :=
  [.ofNat 512 (b.trailerWord d blk), .ofNat 512 (pack 32 crcs)]

/-- A write-down starts (R268): to host memory the block is read line by line, its ciphertext sent and its last
4 bytes read back (R462), to Peat with its program; at
a line that may not be sent, it is bound to fail. `why`: 0 eviction, 1 flush, 2 retire. -/
def Blk.startDown (b : Blk) (blk why : Nat) : Blk :=
  match b.placeOf (blk / 1024) with
  | none => b
  | some d =>
    let f := b.get Reg.map_FRAME blk
    let bad := b.badLines blk
    let b := ((b.put Reg.map_BSTATE Bst.writingDown blk).put Reg.map_DIRTY 0 blk).put Reg.frame_TOUCHED_DURING 0 f
    let (peat, addr, _) := b.lowerOf d blk
    let sends := !peat && !bad && b.lowerWritable false
    let (data, b) := if sends then b.blockCipher blk else ([], b)
    let crcs := if sends then (List.range 16).map fun k => subCrc ((data.drop (64 * k)).take 64) else []
    let b := { b with tier := { b.tier with downs := b.tier.downs ++ [{ block := blk, desc := d, since := b.el, why, bad, crcs }] } }
    if sends then ((b.hostWrite addr data).hostRead (addr + 65532) 4).asking (2, blk) else b

/-- A block whose write-down failed during the running `retire` is not written down again (R257). -/
def Blk.givenUp (b : Blk) (blk : Nat) : Bool :=
  match b.tier.job with
  | some (.retire _ failed) => failed.contains blk
  | _ => false

/-- evict_one up to the write-down (R266): a clean block goes at once. -/
def Blk.evictOne (b : Blk) : Blk :=
  if b.evicting then
    match b.oldest (b.evictable.filter fun f => !b.givenUp (b.get Reg.frame_BLOCK f)) with
    | none => b
    | some f =>
      let blk := b.get Reg.frame_BLOCK f
      let b := { b with tier := { b.tier with evicting := true } }
      if b.get Reg.map_DIRTY blk = 0 then
        let b := ((b.put Reg.map_BSTATE Bst.absent blk).put Reg.map_FRAME 0 blk).dropFrame f
        (b.count Reg.TIER_EVICT_CNT).feedFetches b.tier.fetches.length
      else if b.tier.downs.length < 64 then b.startDown blk 0 else b
  else b

end Sys2Proof.Machine
end

