-- ==== Sys2Proof/Machine/Aperture.lean ====
section
/-! DEFINITION. The runs of the local range that are not memory: the doorbell aperture (R322 to R326), the exchange apertures
(R382, R413) and the fabric management window (R574). -/
namespace Sys2Proof.Machine

/-! Operation codes of descriptors (Table 10.4). -/
namespace Dop
def nop : Nat := 0x00
def move : Nat := 0x01
def graphRun : Nat := 0x08
def syncWait : Nat := 0x10
def syncSignal : Nat := 0x11
def syncPublish : Nat := 0x12
def handoff : Nat := 0x18
def embLookup : Nat := 0x20
def embUpdate : Nat := 0x21
def vseSearch : Nat := 0x30
def vseRerank : Nat := 0x31
def vseMutate : Nat := 0x32
def vseMerge : Nat := 0x33
def wstStream : Nat := 0x40
end Dop

/-- OPCODE of a descriptor. -/
def Work.opcode (w : Work) : Nat := dfield w.desc 0 7 0

namespace Qst
def off : Nat := 0
def ready : Nat := 1
def stopped : Nat := 2
def error : Nat := 3
end Qst

/-- Put a queue among those waiting for a thread where R327 says it waits. -/
def Blk.queueWaits (b : Blk) (q : Nat) : Blk :=
  let w := b.eng.waiting
  if b.get Reg.qctx_STATE q = Qst.ready ∧ b.get Reg.qctx_TAIL q ≠ b.get Reg.qctx_HEAD q ∧
      b.eng.bound.any (·.queue == q) = false ∧ w.any (·.1 == q) = false then
    { b with eng := { b.eng with waiting := w ++ [(q, b.el)] } }
  else b

/-- A doorbell sets TAIL, or changes nothing (R324); `allowed`: the ringer may ring this queue (R326). -/
def Blk.doorbell (b : Blk) (q tail : Nat) (allowed : Bool := true) : Blk :=
  let ring := 2 ^ b.get Reg.qctx_RING_LOG2 q
  if allowed = true ∧ b.get Reg.qctx_STATE q ≠ Qst.off ∧ subMod 32 tail (b.get Reg.qctx_HEAD q) ≤ ring ∧
      subMod 32 tail (b.get Reg.qctx_TAIL q) < 2 ^ 31 then
    ((b.put Reg.qctx_TAIL tail q).count Reg.QMGR_DB_CNT).queueWaits q
  else (b.count Reg.QMGR_DB_BAD_CNT).err Pg.qmgr 0

/-- The kinds of run a local page can lie in. -/
inductive Run where
  | memory
  | doorbells (q : Nat)
  | xchg (eng : Nat)
  | fmw
  deriving DecidableEq, Repr

/-- The run of a local offset. -/
def Blk.runOf (b : Blk) (off : Nat) : Run :=
  let page := off / 2 ^ 26
  let db := b.get Reg.QMGR_DB_BASE_BASE
  if db ≤ page ∧ page < db + 1024 then .doorbells ((page - db) * 1024 + off % 2 ^ 26 / 64)
  else if page = b.get Reg.EMB_XAP_BASE_BASE then .xchg 0
  else if page = b.get Reg.VSE_XAP_BASE_BASE then .xchg 1
  else if page = b.get Reg.GLB_FMW_BASE_BASE then .fmw
  else .memory

/-- A request is taken by an aperture: the answer's opcode and status. -/
structure Taken where
  opc : Nat
  status : Nat
  deriving DecidableEq, Repr

/-- RSP_ACK. -/
def Taken.ack : Taken := ⟨Opc.rspAck, St.ok⟩
/-- RSP_ERR. -/
def Taken.bad (s : Nat) : Taken := ⟨Opc.rspErr, s⟩

/-- A request to the doorbell aperture (R323). -/
def Blk.takeDoorbell (b : Blk) (fr : Frame) (off q : Nat) : Taken × Blk :=
  if fr.opc.toNat ≠ Opc.wrPartial ∨ fr.arg.toNat % 128 ≠ 8 ∨ off % 64 ≠ 0 ∨ 1024 ≤ off % 2 ^ 26 / 64 then (.bad St.unsupported, b)
  else if b.get Reg.qctx_TENANT q ≠ fr.tenant.toNat then
    (.bad St.tenantBlocked, (b.count Reg.QMGR_DB_TENANT_CNT).err Pg.qmgr 1)
  else (.ack, b.doorbell q (fr.data.toNat % 2 ^ 32))

/-- A channel's record, or a fresh one. -/
def Blk.chan (b : Blk) (eng peer chan : Nat) : Chan :=
  (b.eng.chans.find? fun c => c.eng == eng && c.peer == peer && c.chan == chan).getD { eng, peer, chan }

/-- Record a channel; one back at its first state is dropped. -/
def Blk.setChan (b : Blk) (c : Chan) : Blk :=
  let rest := b.eng.chans.filter fun d => !(d.eng == c.eng && d.peer == c.peer && d.chan == c.chan)
  let fresh : Chan := { eng := c.eng, peer := c.peer, chan := c.chan }
  { b with eng := { b.eng with chans := if c = fresh then rest else rest ++ [c] } }

/-- The XCHG_BAD counter of an engine. -/
def Blk.xchgBad (b : Blk) (eng : Nat) : Blk :=
  if eng = 0 then (b.count Reg.EMB_XCHG_BAD_CNT).err Pg.emb 2 else (b.count Reg.VSE_XCHG_BAD_CNT).err Pg.vse 2

/-- A line number given a value, the later value winning. -/
def putLine (l : List (Nat × Line)) (k : Nat) (v : Line) : List (Nat × Line) := (l.filter fun e => e.1 != k) ++ [(k, v)]

/-- A request to an exchange aperture (R382, R413): [25] DIR, [24:19] PEER, then CHAN and LINE. -/
def Blk.takeXchg (b : Blk) (fr : Frame) (eng off : Nat) : Taken × Blk :=
  let o := fr.opc.toNat
  let a := off % 2 ^ 26
  let peer := bits a 24 19
  let (chan, line) := if eng = 0 then (bits a 18 16, bits a 15 6) else (bits a 18 17, bits a 16 6)
  if o ≠ Opc.wrLine ∧ o ≠ Opc.wrLineFinal then (.bad St.unsupported, b)
  else if 0x3F < fr.src.toNat ∨ fr.src.toNat ≠ peer then (.bad St.malformed, b)
  else
    let c := b.chan eng peer chan
    let final := o = Opc.wrLineFinal
    if bitAt a 25 then
      if c.wait.isNone then (.ack, b.xchgBad eng)
      else (.ack, b.setChan { c with rep := putLine c.rep line fr.data, trailer := if final then some fr.data else c.trailer })
    else if c.serving || c.reqFinal then (.ack, b.xchgBad eng)
    else (.ack, b.setChan { c with req := putLine c.req line fr.data, reqFinal := final, tenant := fr.tenant.toNat })

end Sys2Proof.Machine
end

