-- ==== Sys2Proof/Machine/Arith.lean ====
section
/-! DEFINITION. Arithmetic (ch. 11): formats and their exact values, conversion with one rounding, FP32 operations, ordered
reduction, exact cells, MX blocks. -/
namespace Sys2Proof.Machine

/-! ### Values -/

/-- A decoded value: (−1)^neg × m × 2^e, an infinity, or NaN. -/
inductive Num where
  | nan
  | inf (neg : Bool)
  | fin (neg : Bool) (m : Nat) (e : Int)
  deriving DecidableEq, Repr

/-- A value from a signed multiple of a power of two. -/
def Num.ofInt (v : Int) (e : Int) : Num := .fin (decide (v < 0)) v.natAbs e

/-- The signed multiplier of a finite value. -/
def Num.signed : Num → Int
  | .fin true m _ => -(m : Int)
  | .fin false m _ => m
  | _ => 0

/-- The value times 2^k. -/
def Num.scale (k : Int) : Num → Num
  | .fin n m e => .fin n m (e + k)
  | x => x

/-- The exact sum; a zero sum is −0 only when both are. -/
def Num.add : Num → Num → Num
  | .nan, _ => .nan
  | _, .nan => .nan
  | .inf a, .inf b => if a = b then .inf a else .nan
  | .inf a, _ => .inf a
  | _, .inf b => .inf b
  | .fin a m e, .fin b n f =>
    let g := min e f
    let v := (Num.fin a m e).signed * 2 ^ (e - g).toNat + (Num.fin b n f).signed * 2 ^ (f - g).toNat
    if v = 0 then .fin (a && b) 0 g else .ofInt v g

/-- The value with its sign changed. -/
def Num.neg : Num → Num
  | .nan => .nan
  | .inf a => .inf (!a)
  | .fin a m e => .fin (!a) m e

/-- The exact product. -/
def Num.mul : Num → Num → Num
  | .nan, _ => .nan
  | _, .nan => .nan
  | .inf a, .inf b => .inf (a != b)
  | .inf a, .fin b m _ => if m = 0 then .nan else .inf (a != b)
  | .fin a m _, .inf b => if m = 0 then .nan else .inf (a != b)
  | .fin a m e, .fin b n f => .fin (a != b) (m * n) (e + f)

/-! ### Rounding -/

/-- m / 2^k to nearest, ties to even; `sticky`: a little more than m. -/
def rne (m k : Nat) (sticky : Bool) : Nat :=
  if k = 0 then m
  else
    let q := m >>> k
    let r := m % 2 ^ k
    let h := 2 ^ (k - 1)
    if h < r ∨ (r = h ∧ (sticky = true ∨ q % 2 = 1)) then q + 1 else q

/-- A floating format (Table 11.2): exponent and mantissa bits, bias, the largest finite encoding, what stands for infinity
and for NaN. -/
structure FloatFmt where
  ebits : Nat
  mbits : Nat
  bias : Nat
  maxFin : Nat
  hasInf : Bool
  nan : Option Nat
  deriving DecidableEq, Repr

def fp64 : FloatFmt := ⟨11, 52, 1023, 0x7FEFFFFFFFFFFFFF, true, some 0x7FF8000000000000⟩
def fp32 : FloatFmt := ⟨8, 23, 127, 0x7F7FFFFF, true, some 0x7FC00000⟩
def bf16 : FloatFmt := ⟨8, 7, 127, 0x7F7F, true, some 0x7FC0⟩
def fp16 : FloatFmt := ⟨5, 10, 15, 0x7BFF, true, some 0x7E00⟩
def e4m3 : FloatFmt := ⟨4, 3, 7, 0x7E, false, some 0x7F⟩
def e5m2 : FloatFmt := ⟨5, 2, 15, 0x7B, true, some 0x7E⟩
def e3m2 : FloatFmt := ⟨3, 2, 3, 0x1F, false, none⟩
def e2m3 : FloatFmt := ⟨2, 3, 1, 0x1F, false, none⟩
def e2m1 : FloatFmt := ⟨2, 1, 1, 0x07, false, none⟩

/-- The value an encoding stands for (R343, R344). -/
def FloatFmt.decode (f : FloatFmt) (raw : Nat) : Num :=
  let neg := bitAt raw (f.ebits + f.mbits)
  let mag := raw % 2 ^ (f.ebits + f.mbits)
  if f.hasInf && mag == (2 ^ f.ebits - 1) <<< f.mbits then .inf neg
  else if f.maxFin < mag then .nan
  else
    let e := mag >>> f.mbits
    let m := mag % 2 ^ f.mbits
    if e = 0 then .fin neg m (1 - f.bias - f.mbits)
    else .fin neg (2 ^ f.mbits + m) (e - f.bias - f.mbits)

/-- The magnitude encoding of m × 2^e rounded once (R345), before its limit is applied. -/
def FloatFmt.roundMag (f : FloatFmt) (m : Nat) (e : Int) (sticky : Bool) : Nat :=
  if m = 0 then 0
  else
    let emin : Int := 1 - f.bias - f.mbits
    let q := max (e + m.log2 - f.mbits) emin
    let r := if q ≤ e then m <<< (e - q).toNat else rne m (q - e).toNat sticky
    (q - emin).toNat <<< f.mbits + r

/-- A sign put before a magnitude. -/
def FloatFmt.signed (f : FloatFmt) (neg : Bool) (mag : Nat) : Nat := b2n neg <<< (f.ebits + f.mbits) + mag

/-- The encoding of infinity; formats without one saturate. -/
def FloatFmt.infMag (f : FloatFmt) : Nat := if f.hasInf then (2 ^ f.ebits - 1) <<< f.mbits else f.maxFin

/-- A value rounded once into a format, overflow to infinity where the format has it (R345). -/
def FloatFmt.round (f : FloatFmt) (v : Num) (sticky : Bool := false) : Nat :=
  match v with
  | .nan => f.nan.getD 0
  | .inf n => f.signed n f.infMag
  | .fin n m e =>
    let r := f.roundMag m e sticky
    f.signed n (if f.maxFin < r then f.infMag else r)

/-- A value converted to a format (Table 11.3): E4M3 and E5M2 saturate finite values. -/
def FloatFmt.convert (f : FloatFmt) (v : Num) : Nat :=
  match v with
  | .fin n m e =>
    let r := f.roundMag m e false
    f.signed n (if r ≤ f.maxFin then r else if f = e5m2 then f.maxFin else f.infMag)
  | _ => f.round v

/-- A value rounded to an integer, to nearest even, within bounds; NaN gives 0 (Table 11.3). -/
def roundInt (lo hi : Int) (v : Num) (sticky : Bool := false) : Int :=
  match v with
  | .nan => 0
  | .inf n => if n then lo else hi
  | .fin n m e =>
    let k : Int := (if 0 ≤ e then m <<< e.toNat else rne m (-e).toNat sticky : Nat)
    let s := if n then -k else k
    if s < lo then lo else if hi < s then hi else s

/-! ### FP32 operations (R345) -/

/-- An FP32 encoding's value. -/
def f32 (a : Nat) : Num := fp32.decode (a % 2 ^ 32)

/-- FP32 addition. -/
def f32Add (a b : Nat) : Nat := fp32.round ((f32 a).add (f32 b))
/-- FP32 subtraction. -/
def f32Sub (a b : Nat) : Nat := fp32.round ((f32 a).add (f32 b).neg)
/-- FP32 multiplication. -/
def f32Mul (a b : Nat) : Nat := fp32.round ((f32 a).mul (f32 b))

/-- A quotient as a value with a sticky bit: 64 bits beyond what FP32 holds. -/
def Num.div (a b : Num) : Num × Bool :=
  match a, b with
  | .nan, _ => (.nan, false)
  | _, .nan => (.nan, false)
  | .inf _, .inf _ => (.nan, false)
  | .inf x, .fin y _ _ => (.inf (x != y), false)
  | .fin x _ _, .inf y => (.fin (x != y) 0 0, false)
  | .fin x m e, .fin y n f =>
    if n = 0 then (if m = 0 then .nan else .inf (x != y), false)
    else
      let k := 64 + n.log2
      (.fin (x != y) (m <<< k / n) (e - f - k), decide (m <<< k % n ≠ 0))

/-- FP32 division. -/
def f32Div (a b : Nat) : Nat :=
  let (v, s) := (f32 a).div (f32 b)
  fp32.round v s

/-- Integer square root by bits, from bit k down. -/
def isqrt : Nat → Nat → Nat → Nat
  | 0, _, r => r
  | k + 1, n, r =>
    let t := r + 2 ^ k
    isqrt k n (if t * t ≤ n then t else r)

/-- FP32 square root: −0 gives −0, a negative value NaN. -/
def f32Sqrt (a : Nat) : Nat :=
  match f32 a with
  | .nan => 0x7FC00000
  | .inf n => if n then 0x7FC00000 else 0x7F800000
  | .fin n m e =>
    if m = 0 then fp32.signed n 0
    else if n then 0x7FC00000
    else
      let k : Nat := if (e % 2 = 0 : Bool) then 64 else 65
      let v := m <<< k
      let r := isqrt 64 v 0
      fp32.round (.fin false r ((e - k) / 2)) (decide (r * r ≠ v))

/-- The order of R96: every FP32 encoding but NaN, −0 below +0. -/
def f32Key (a : Nat) : Nat := if a % 2 ^ 32 < 2 ^ 31 then a % 2 ^ 32 + 2 ^ 31 else 2 ^ 32 - 1 - a % 2 ^ 32

/-- FP32 NaN. -/
def f32Nan (a : Nat) : Bool := decide (f32 a = .nan)

/-- FP32 minimum (R96). -/
def f32Min (a b : Nat) : Nat :=
  if f32Nan a then (if f32Nan b then 0x7FC00000 else b) else if f32Nan b then a
  else if f32Key b < f32Key a then b else a

/-- FP32 maximum (R96). -/
def f32Max (a b : Nat) : Nat :=
  if f32Nan a then (if f32Nan b then 0x7FC00000 else b) else if f32Nan b then a
  else if f32Key a < f32Key b then b else a

/-! ### Ordered mode (R354) -/

/-- A list cut into runs of n; `k` bounds the number of runs. -/
def runs {α : Type} (n : Nat) : Nat → List α → List (List α)
  | 0, _ => []
  | k + 1, l => if l.isEmpty then [] else l.take n :: runs n k (l.drop n)

/-- One run added first to last. -/
def chain (add : Nat → Nat → Nat) : List Nat → Nat
  | [] => 0
  | t :: ts => ts.foldl add t

/-- Neighbours added in pairs; a last odd one goes on. -/
def pairUp (add : Nat → Nat → Nat) : List Nat → List Nat
  | a :: b :: l => add a b :: pairUp add l
  | l => l

/-- Pairs added until one is left. -/
def pairTree (add : Nat → Nat → Nat) : Nat → List Nat → Nat
  | 0, l => l.headD 0
  | k + 1, l => if l.length ≤ 1 then l.headD 0 else pairTree add k (pairUp add l)

/-- ordered_sum of FP32 terms; no term gives +0. -/
def orderedSum (t : List Nat) : Nat := pairTree f32Add t.length ((runs 32 t.length t).map (chain f32Add))

/-! ### Exact cells (R356 to R361) -/

/-- A cell's VALUE. -/
def cellValue (c : Nat) : Nat := c % 2 ^ 352

/-- The partial of an FP32 term (R357). -/
def cellPartial (x : Nat) : Nat :=
  match f32 x with
  | .nan => 2 ^ 352
  | .inf n => if n then 2 ^ 354 else 2 ^ 353
  | .fin n m e =>
    let v := m <<< (e + 149).toNat
    if n then (2 ^ 352 - v) % 2 ^ 352 else v

/-- A partial added to a cell (R358): every other bit of the cell stays. -/
def cellAdd (c p : Nat) : Nat :=
  (cellValue c + cellValue p) % 2 ^ 352 + ((c >>> 352) % 2 ^ 32 ||| (p >>> 352) % 8) <<< 352

/-- A partial with a reserved bit set is malformed (R360). -/
def cellBad (p : Nat) : Bool := decide ((p % 2 ^ 384) >>> 355 ≠ 0)

/-- A cell read as a number (R361). -/
def cellNum (c : Nat) : Num :=
  if bitAt c 352 || (bitAt c 353 && bitAt c 354) then .nan
  else if bitAt c 353 then .inf false
  else if bitAt c 354 then .inf true
  else .ofInt (toSigned 352 (cellValue c)) (-149)

/-- cell_read into a format. -/
def cellRead (c : Nat) (f : FloatFmt) : Nat := f.round (cellNum c)

/-! ### Formats by code (Table 11.1) -/

/-- Element bits of a format code. -/
def elemBits (fmt : Nat) : Nat :=
  match fmt with
  | 0 => 32
  | 1 => 16
  | 2 => 16
  | 6 => 4
  | 10 => 6
  | 11 => 6
  | 12 => 4
  | _ => 8

/-- The code names an MX format. -/
def isMx (fmt : Nat) : Bool := 8 ≤ fmt && fmt ≤ 13

/-- The floating format of a code's elements, where they are floating. -/
def floatOf (fmt : Nat) : Option FloatFmt :=
  match fmt with
  | 0 => some fp32
  | 1 => some bf16
  | 2 => some fp16
  | 3 => some e4m3
  | 4 => some e5m2
  | 8 => some e4m3
  | 9 => some e5m2
  | 10 => some e3m2
  | 11 => some e2m3
  | 12 => some e2m1
  | _ => none

/-- The value of one element's bits, scale apart. -/
def decodeElem (fmt raw : Nat) : Num :=
  match floatOf fmt with
  | some f => f.decode raw
  | none => if fmt = 13 then .ofInt (toSigned 8 raw) (-6) else .ofInt (toSigned (elemBits fmt) raw) 0

/-- The bits of element i in packed elements (R347). -/
def elemAt (fmt raw i : Nat) : Nat := bits raw (elemBits fmt * (i + 1) - 1) (elemBits fmt * i)

/-- Bytes of an MX segment of m blocks. -/
def mxBytes (fmt m : Nat) : Nat := m * 4 * elemBits fmt + m

/-- Bytes of n elements stored alone or, in an MX format, as one segment of whole blocks. -/
def segBytes (fmt n : Nat) : Nat := if isMx fmt then mxBytes fmt (n / 32) else (n * elemBits fmt + 7) / 8

/-- The exact values of the n elements of a segment, its bytes given as a number (R346, R347). -/
def decodeSeg (fmt n raw : Nat) : List Num :=
  (List.range n).map fun i =>
    let v := decodeElem fmt (elemAt fmt raw i)
    if isMx fmt then
      let x := (raw >>> (8 * (n / 32 * 4 * elemBits fmt + i / 32))) % 256
      if x = 255 then .nan else v.scale ((x : Int) - 127)
    else v

/-- The largest exponent of an MX element format (R349). -/
def mxEmax (fmt : Nat) : Int :=
  match fmt with
  | 8 => 8
  | 9 => 15
  | 10 => 4
  | 11 => 2
  | 12 => 2
  | _ => 0

/-- floor(log2) of the largest magnitude of finite values; none when all are zero. -/
def maxLog : List Num → Option Int
  | [] => none
  | .fin _ m e :: l =>
    if m = 0 then maxLog l
    else
      match maxLog l with
      | none => some (e + m.log2)
      | some k => some (max k (e + m.log2))
  | _ :: l => maxLog l

/-- One MX element of a value already divided by its scale. -/
def mxElem (fmt : Nat) (v : Num) : Nat :=
  match floatOf fmt with
  | some f =>
    match v with
    | .fin n m e => f.signed n (min f.maxFin (f.roundMag m e false))
    | _ => 0
  | none => ((roundInt (-128) 127 (v.scale 6)) % 256).toNat

/-- mx_encode (R349): the scale and the elements of one block; an MXINT8 element saturates at ±127. -/
def mxEncode (fmt : Nat) (v : List Num) : Nat × List Nat :=
  if v.any fun x => match x with | .fin _ _ _ => false | _ => true then (255, List.replicate 32 0)
  else
    match maxLog v with
    | none => (127, List.replicate 32 0)
    | some k =>
      let x := min 254 (max 0 (k - mxEmax fmt + 127))
      let one (y : Num) : Nat :=
        if fmt = 13 then ((roundInt (-127) 127 ((y.scale (127 - x)).scale 6)) % 256).toNat else mxElem fmt (y.scale (127 - x))
      (x.toNat, (v ++ List.replicate (32 - v.length) (Num.fin false 0 0)).map one)

/-- One value converted to a plain element (Table 11.3). -/
def convertElem (fmt : Nat) (v : Num) : Nat :=
  match floatOf fmt with
  | some f => f.convert v
  | none => if fmt = 6 then ((roundInt (-8) 7 v) % 16).toNat else ((roundInt (-128) 127 v) % 256).toNat

/-- Values encoded as one segment (R347, R348). -/
def encodeSeg (fmt : Nat) (v : List Num) : Nat :=
  if isMx fmt then
    let bs := (runs 32 v.length v).map (mxEncode fmt)
    pack (elemBits fmt) (bs.flatMap (·.2)) + pack 8 (bs.map (·.1)) <<< (8 * (bs.length * 4 * elemBits fmt))
  else pack (elemBits fmt) (v.map (convertElem fmt))

/-- The larger of two magnitudes, as a value of positive sign. -/
def absMax : Num → Num → Num
  | .fin _ m e, .fin _ n f =>
    let g := min e f
    if m <<< (e - g).toNat < n <<< (f - g).toNat then .fin false n f else .fin false m e
  | x, _ => x

/-- INT8 with row scale (Table 11.3): the FP16 scale and the elements. -/
def encodeRow8 (v : List Num) : Nat × List Nat :=
  if v.any fun x => match x with | .fin _ _ _ => false | _ => true then (0x7E00, v.map fun _ => 0)
  else
    match v.foldl absMax (.fin false 0 0) with
    | .fin _ 0 _ => (0x3C00, v.map fun _ => 0)
    | m =>
      let (q, st) := m.div (.fin false 127 0)
      let s := fp16.round q st
      (s, v.map fun x =>
        let (d, st) := x.div (fp16.decode s)
        ((roundInt (-127) 127 d st) % 256).toNat)

/-- An element of an INT8 row with its scale, exactly. -/
def decodeRow8 (scale raw : Nat) : Num := (decodeElem 7 raw).mul (fp16.decode scale)

end Sys2Proof.Machine
end

