-- ==== Sys2Proof/Machine/HomeBase.lean ====
section
/-! DEFINITION. The home (R26): frame checks, the window stage, answers, and the arithmetic of atomics. -/
namespace Sys2Proof.Machine

/-! ### Frames as operations -/

def Frame.op (f : Frame) : Nat := f.opc.toNat
/-- LEN of a WR_PARTIAL. -/
def Frame.plen (f : Frame) : Nat := f.arg.toNat % 128
/-- NORET of an atomic. -/
def Frame.noret (f : Frame) : Bool := bitAt f.arg.toNat 2
/-- FORM of a FADD_EXACT. -/
def Frame.form (f : Frame) : Bool := bitAt f.arg.toNat 3
/-- WIDTH of an atomic in bytes (Table 3.7). -/
def Frame.width (f : Frame) : Nat :=
  match f.arg.toNat % 4 with
  | 0 => 4
  | 1 => 8
  | _ => 48
/-- SIG_ADD of a WR_SIGNAL. -/
def Frame.sigAdd (f : Frame) : Nat := bits f.arg.toNat 31 24
/-- SIG_WORD of a WR_SIGNAL. -/
def Frame.sigWord (f : Frame) : Nat := bits f.arg.toNat 22 0
/-- The incoming line of a frame: ADDRESS bits [46:6]. -/
def Frame.inLine (f : Frame) : Nat := bits f.addr.toNat 46 6

/-! ### Frame and opcode checks (Table 3.12, R360) -/

/-- The reserved bits of ARG are zero (Table 3.7). -/
def Frame.argOk (f : Frame) : Bool :=
  let a := f.arg.toNat
  if f.op = Opc.wrPartial then a < 128
  else if f.op = Opc.wrSignal then !bitAt a 23
  else if isAtomic f.op then a < 16
  else a == 0

/-- FINAL and MC are as R101 allows. -/
def Frame.finalOk (f : Frame) : Bool :=
  let o := f.op
  (if o = Opc.wrLineFinal ∨ o = Opc.wrSignal then f.final else !f.final || o == Opc.wrPartial || isAtomic o) &&
  (!f.mc || o == Opc.wrLine || o == Opc.wrLineFinal || o == Opc.wrSignal)

/-- The widths an atomic may have (Table 3.10). -/
def widthOk (o code : Nat) : Bool :=
  if o = Opc.faddExact then code == 2
  else if o = Opc.minF32 ∨ o = Opc.maxF32 ∨ o = Opc.fadd32 then code == 0
  else code == 0 || code == 1

/-- The payload bytes an atomic uses. -/
def Frame.used (f : Frame) : Nat :=
  if f.op = Opc.faddExact then (if f.form then 48 else 4)
  else if f.op = Opc.cas then 2 * f.width
  else f.width

/-- Row 7 of Table 3.12. -/
def Frame.atomicOk (f : Frame) : Bool :=
  !isAtomic f.op ||
  (widthOk f.op (f.arg.toNat % 4) &&
   (if f.op = Opc.faddExact then f.addr.toNat % 64 == 0 && f.noret else f.addr.toNat % f.width == 0 && !f.form) &&
   f.data.toNat >>> (8 * f.used) == 0)

/-- Row 6 of Table 3.12. -/
def Frame.placeOk (f : Frame) : Bool :=
  if isAtomic f.op then true
  else if f.op = Opc.wrPartial then 0 < f.plen && f.plen ≤ 64 && f.addr.toNat % 64 + f.plen ≤ 64
  else f.addr.toNat % 64 == 0

/-- The checks of R102 in order, then R360: none where the request passes. -/
def Frame.check (f : Frame) : Option Nat :=
  let o := f.op
  if !(isRequest o || isCoherence o) then some St.unsupported
  else if isCoherence o || !(f.tc.toNat == Tc.req || (f.tc.toNat == Tc.bulk && o != Opc.rdShared && o != Opc.rdOwn)) || f.pl == isRead o then
    some St.malformed
  else if f.status ≠ 0 ∨ f.rsv5 = true ∨ f.rsv14 ≠ 0 ∨ f.argOk = false then some St.malformed
  else if f.addr.toNat >>> 53 ≠ 0 ∨ f.addr.toNat >>> 47 ≠ f.dst.toNat then some St.malformed
  else if !f.finalOk || !f.placeOk || !f.atomicOk then some St.malformed
  else if o = Opc.wrSignal ∧ f.sigAdd = 0 then some St.malformed
  else if o = Opc.faddExact ∧ f.form = true ∧ cellBad f.data.toNat = true then some St.malformed
  else none

/-! ### The window stage (R45) -/

/-- What the window stage decides: a window and a local offset, or a status with the refusing window and the fence flag. -/
inductive WinSays where
  | pass (win off : Nat)
  | refuse (status : Nat) (win : Option Nat) (fence : Bool)
  deriving DecidableEq, Repr

/-- Window w matches a source and an incoming page. -/
def Blk.winMatch (b : Blk) (w src page : Nat) : Bool :=
  b.get Reg.window_SRC_LO w ≤ src && src ≤ b.get Reg.window_SRC_HI w &&
  b.get Reg.window_IN_BASE w ≤ page && page < b.get Reg.window_IN_BASE w + b.get Reg.window_SIZE w

/-- The rights of a window. -/
def Blk.winRights (b : Blk) (w : Nat) : Nat :=
  4 * b.get Reg.window_RD w + 2 * b.get Reg.window_WR w + b.get Reg.window_AT w

/-- The non-free protection regions that hold a local page. -/
def Blk.regionsOf (b : Blk) (page : Nat) : List Nat :=
  (b.entriesWith Reg.region_STATE).filter fun r =>
    b.get Reg.region_LOCAL_BASE r ≤ page && page < b.get Reg.region_LOCAL_BASE r + b.get Reg.region_SIZE r

/-- A page lies in a `frozen` region (R251). -/
def Blk.frozen (b : Blk) (page : Nat) : Bool := (b.regionsOf page).any fun r => b.get Reg.region_STATE r == 3

/-- window_stage (R45, R251). -/
def Blk.windowStage (b : Blk) (f : Frame) : WinSays :=
  let src := f.src.toNat
  let page := bits f.addr.toNat 46 26
  let tenant := f.tenant.toNat
  if f.restart.toNat ≠ b.restart then .refuse St.staleEpoch none true
  else if src ≤ 0x3F ∧ bitAt (b.get Reg.WIN_PEER_DEAD_DEAD) src = true then .refuse St.staleEpoch none true
  else
    let live := (b.entriesWith Reg.window_STATE).filter fun w => b.winMatch w src page
    match live.find? fun w => b.get Reg.window_TENANT w == tenant with
    | none =>
      match live with
      | [] => .refuse St.unmapped none false
      | w :: _ => .refuse St.tenantBlocked (some w) false
    | some w =>
      if notOlder f.epoch.toNat (b.get Reg.window_EPOCH w) = false then .refuse St.staleEpoch (some w) false
      else if 2 ≤ b.get Reg.window_STATE w then .refuse St.revoked (some w) false
      else if granted (rightOf f.op) (b.winRights w) = false then .refuse St.rights (some w) false
      else
        let off := (b.get Reg.window_LOCAL_BASE w + (page - b.get Reg.window_IN_BASE w)) * 2 ^ 26 + f.addr.toNat % 2 ^ 26
        if !isRead f.op && b.frozen (off / 2 ^ 26) then .refuse St.rights none false else .pass w off

/-- A request enters or leaves the count of its window (R45, R46). -/
def Blk.winEnter (b : Blk) (w : Nat) : Blk := b.put Reg.window_INFLIGHT (b.get Reg.window_INFLIGHT w + 1) w
def Blk.winLeave (b : Blk) (w : Nat) : Blk := b.put Reg.window_INFLIGHT (b.get Reg.window_INFLIGHT w - 1) w

/-! ### Answers (R89, Table 3.11) -/

/-- A TENANT_BLOCKED refusal of a signal is reported (R215); `stage`: 0 window, 1 store. -/
def Blk.signalBlocked (b : Blk) (f : Frame) (obj stage : Nat) : Blk :=
  let first := !bitAt (b.get Reg.ERR_STICKY_ERR Pg.sync) 0
  let b := (b.count Reg.SYNC_BLOCKED_CNT).err Pg.sync 0
  if first then
    ((((b.put Reg.SYNC_BLOCKED_FIRST_SRC_TENANT f.tenant.toNat).put Reg.SYNC_BLOCKED_FIRST_OBJ_TENANT obj).put
      Reg.SYNC_BLOCKED_FIRST_SRC_NODE f.src.toNat).put Reg.SYNC_BLOCKED_FIRST_STAGE stage).put Reg.ERR_FIRST_TIME_TIME b.now Pg.sync
  else b

/-- The monitors armed on a word (its local offset in units of 8). -/
def Blk.monitorsOn (b : Blk) (word : Nat) : List Nat :=
  (b.entriesWith Reg.monitor_STATE).filter fun m => b.get Reg.monitor_STATE m == 1 && b.get Reg.monitor_WORD m == word

/-- The words a frame's write or atomic covers at a local offset. -/
def Frame.words (f : Frame) (off : Nat) : List Nat :=
  let span := fun a n => (List.range ((a % 8 + n + 7) / 8)).map (a / 8 + ·)
  if f.op = Opc.wrPartial then span off f.plen
  else if isAtomic f.op then span off f.width
  else if f.op = Opc.wrSignal then span (off / 64 * 64) 64 ++ [off / 2 ^ 26 * 2 ^ 23 + f.sigWord]
  else span (off / 64 * 64) 64

/-- A request of a SYNC_SIGNAL of this part. -/
def Blk.ofSignal (b : Blk) (f : Frame) : Bool :=
  f.src.toNat == b.node && b.orig.out.any fun o => o.fr.tag == f.tag && o.fr.dst == f.dst &&
    (match o.agent with
     | .work w _ => b.eng.works.any fun x => x.id == w && x.opcode == Dop.syncSignal
     | _ => false)

/-- A request to a local offset is a signal: a WR_SIGNAL, a SYNC_SIGNAL's, or a write or atomic to a word on which a monitor is armed. -/
def Blk.signals (b : Blk) (f : Frame) (off : Nat) : Bool :=
  f.op == Opc.wrSignal || b.ofSignal f || (!isRead f.op && (f.words off).any fun w => b.monitorsOn w != [])

/-- The local offset an address has through a window. -/
def Blk.offIn (b : Blk) (w : Nat) (f : Frame) : Nat :=
  (b.get Reg.window_LOCAL_BASE w + (bits f.addr.toNat 46 26 - b.get Reg.window_IN_BASE w)) * 2 ^ 26 + f.addr.toNat % 2 ^ 26

/-- RSP_ERR. -/
def Blk.refuse (b : Blk) (f : Frame) (status : Nat) : Blk := b.respond f Opc.rspErr status

/-- The answer to a refusal at the window stage: epoch and redirect of the refusing window, or the fence flag (R45, R60). -/
def Blk.windowRefuse (b : Blk) (f : Frame) (status : Nat) (w : Option Nat) (fence : Bool) : Blk :=
  let b := if status = St.staleEpoch then b.count Reg.WIN_STALE_CNT else b
  let b := if status = St.revoked then b.count Reg.WIN_REVOKED_CNT else b
  let b := if status = St.rights ∧ w = none then b.count Reg.PROT_FROZEN_CNT else b
  let r := b.response f Opc.rspErr status 0
  match w with
  | some w =>
    let b := if status = St.tenantBlocked ∧ b.signals f (b.offIn w f) = true then b.signalBlocked f (b.get Reg.window_TENANT w) 0 else b
    if status = St.staleEpoch ∨ status = St.revoked then
      let v := b.get Reg.window_REDIRECT_V w = 1
      b.answer { r with epoch := .ofNat 32 (b.get Reg.window_EPOCH w), redirV := v,
                        arg := if v then .ofNat 32 (b.get Reg.window_REDIRECT_PART w) else 0 }
    else b.answer r
  | none => b.answer { r with fence }

/-- A requester's completion of a served operation: RSP_DATA, RSP_ACK or RSP_ERR. -/
def Blk.complete (b : Blk) (f : Frame) (status : Nat) (d : Line) : Blk :=
  if status ≠ St.ok then b.refuse f status
  else if isRead f.op || (isAtomic f.op && !f.noret) then b.respond f Opc.rspData St.ok d
  else b.respond f Opc.rspAck St.ok

/-! ### Arithmetic of atomics (Table 3.10, R94 to R97) -/

/-- The new value of a target of w bytes, from its old value and operands A and B. -/
def atomicOp (o w old a bb : Nat) : Nat :=
  let m := 2 ^ (8 * w)
  if o = Opc.add then (old + a) % m
  else if o = Opc.and then old &&& a
  else if o = Opc.or then old ||| a
  else if o = Opc.xor then old ^^^ a
  else if o = Opc.swap then a
  else if o = Opc.cas then (if old = a then bb else old)
  else if o = Opc.minS then (if toSigned (8 * w) a < toSigned (8 * w) old then a else old)
  else if o = Opc.maxS then (if toSigned (8 * w) old < toSigned (8 * w) a then a else old)
  else if o = Opc.minU then min old a
  else if o = Opc.maxU then max old a
  else if o = Opc.minF32 then f32Min old a
  else if o = Opc.maxF32 then f32Max old a
  else f32Add old a

/-- An atomic on its line, at byte `k`: the new line, and what a requester of the old value receives (R95). -/
def atomicOn (f : Frame) (k : Nat) (l : Line) : Line × Line :=
  if f.op = Opc.faddExact then
    let p := if f.form then f.data.toNat % 2 ^ 384 else cellPartial (f.data.toNat % 2 ^ 32)
    (linePut l 0 48 (cellAdd (lineGet l 0 48) p), 0)
  else
    let w := f.width
    let old := lineGet l k w
    (linePut l k w (atomicOp f.op w old (lineGet f.data 0 w) (lineGet f.data w w)), .ofNat 512 old)

/-- Atomics applied one at a time (R140): the final line and each one's old value. -/
def atomicsOn (k : Nat) : List Frame → Line → Line × List Line
  | [], l => (l, [])
  | f :: fs, l =>
    let (l1, o) := atomicOn f k l
    let (l2, os) := atomicsOn k fs l1
    (l2, o :: os)

end Sys2Proof.Machine
end

