-- ==== Sys2Proof/Machine/Home.lean ====
section
/-! DEFINITION. The home's requests (R26): Flock (R137 to R141), the directory and its tracker (R148 to R174), the store
stage with protection and monitors, and the driving of requests that wait. -/
namespace Sys2Proof.Machine

/-! ### Requests -/

def Req.line (q : Req) : Nat := q.off / 64
def Req.op (q : Req) : Nat := q.fr.op
/-- The frames a request stands for: its own and its members'. -/
def Req.frames (q : Req) : List Frame := q.fr :: q.members.map (·.fr)
/-- Not yet committed: it still holds its place at its line. -/
def Req.active (q : Req) : Bool := q.wait != .acks && 0 < q.place
/-- A caching read or a near atomic. -/
def Req.caching (q : Req) : Bool := q.op == Opc.rdShared || q.op == Opc.rdOwn || q.near
/-- The arming of a monitor: it recalls as a far atomic and reads (R204, R207). -/
def Req.arms (q : Req) : Bool :=
  match q.kind with
  | .arm _ => true
  | _ => false
/-- A write of dirty data or a write-back. -/
def Req.internal (q : Req) : Bool :=
  match q.kind with
  | .dirty _ _ => true
  | .writeBack _ _ => true
  | _ => false

/-- A write-back that waits its turn at its line (R155). -/
def Req.queued (q : Req) : Bool := q.internal && q.stage == .dir
/-- The signal word of a WR_SIGNAL as a local offset (R100). -/
def Req.sigOff (q : Req) : Nat := q.off / 2 ^ 26 * 2 ^ 26 + q.fr.sigWord * 8
/-- A WR_SIGNAL whose word lies in another line. -/
def Req.twoLines (q : Req) : Bool := q.kind == .request && q.op == Opc.wrSignal && q.sigOff / 64 != q.line
/-- It waits in the tracker (R151). -/
def Req.inTracker (q : Req) : Bool := q.wait == .turn || q.wait == .way
/-- A caching request past the directory stage: its line's entry is held for it (R159). -/
def Req.claims (q : Req) : Bool := q.caching && q.active && (q.stage == .tier || q.stage == .key || q.stage == .store)

/-- The request with an id. -/
def Blk.req? (b : Blk) (id : Nat) : Option Req := b.home.reqs.find? (·.id == id)

/-- Change one request. -/
def Blk.modReq (b : Blk) (id : Nat) (f : Req → Req) : Blk :=
  { b with home := { b.home with reqs := b.home.reqs.map fun q => if q.id = id then f q else q } }

/-- Take a request away, with the add of a WR_SIGNAL. -/
def Blk.dropReq (b : Blk) (id : Nat) : Blk :=
  { b with home := { b.home with reqs := b.home.reqs.filter fun q => q.id != id && q.kind != .signal id } }

/-- Add a request with a fresh id. -/
def Blk.addReq (b : Blk) (q : Req) : Nat × Blk :=
  (b.home.nextId, { b with home := { b.home with nextId := b.home.nextId + 1, reqs := b.home.reqs ++ [{ q with id := b.home.nextId }] } })

/-- The next place in the order of R138. -/
def Blk.takePlace (b : Blk) : Nat × Blk := (b.home.nextPlace, { b with home := { b.home with nextPlace := b.home.nextPlace + 1 } })

/-! ### The directory (R148, R149) -/

namespace Ds
def shared : Nat := 1
def owned : Nat := 2
def grantWait : Nat := 8
def invWait : Nat := 9
def shrWait : Nat := 0xA
def peekWait : Nat := 0xB
def tierWait : Nat := 0xC
def evictWait : Nat := 0xD
def drainWait : Nat := 0xE
def tenureWait : Nat := 0xF
end Ds

/-- The set of a line (R148). -/
def dirSet (line : Nat) : Nat := bits line 13 0 ^^^ bits line 27 14 ^^^ bits line 40 28

/-- The entry of a line. -/
def Blk.dirFind (b : Blk) (line : Nat) : Option Nat :=
  ((List.range 16).map (dirSet line * 16 + ·)).find? fun i => b.get Reg.dir_V i == 1 && b.get Reg.dir_LINE i == line

/-- The fen number of a node (R145). -/
def Blk.fenOf (b : Blk) (node : Nat) : Option Nat :=
  (List.range 64).find? fun n => b.get Reg.member_V n == 1 && b.get Reg.member_NODE n == node

/-- The holders an entry records. -/
def Blk.holders (b : Blk) (i : Nat) : List Nat := (List.range 64).filter fun n => bitAt (b.get Reg.dir_SHARERS i) n

/-- Free an entry; later ones of its set move up in rank, and what was due of it is over. -/
def Blk.dirFree (b : Blk) (i : Nat) : Blk :=
  let r := b.get Reg.dir_ALLOC_RANK i
  let b := b.each ((List.range 16).map (i / 16 * 16 + ·)) fun b j =>
    if b.get Reg.dir_V j = 1 ∧ r < b.get Reg.dir_ALLOC_RANK j then b.put Reg.dir_ALLOC_RANK (b.get Reg.dir_ALLOC_RANK j - 1) j else b
  let b := (b.clearEntry .t_dir i).put Reg.FEN_OCC_ENTRIES (b.get Reg.FEN_OCC_ENTRIES - 1)
  { b with home := { b.home with
      grants := b.home.grants.filter (·.idx ≠ i)
      snoops := b.home.snoops.filter (·.idx ≠ i)
      drains := b.home.drains.map fun (d : Drain) => { d with recalls := d.recalls.filter (· ≠ i) } } }

/-- Remove a holder from an entry. -/
def Blk.dropHolder (b : Blk) (i n : Nat) : Blk :=
  let s := b.get Reg.dir_SHARERS i
  let b := b.put Reg.dir_SHARERS (if bitAt s n then s - 2 ^ n else s) i
  if b.get Reg.dir_OWNER_V i = 1 ∧ b.get Reg.dir_OWNER i = n then (b.put Reg.dir_OWNER_V 0 i).put Reg.dir_OWNER 0 i else b

/-- The free ways of a line's set. -/
def Blk.freeWays (b : Blk) (line : Nat) : List Nat :=
  ((List.range 16).map (dirSet line * 16 + ·)).filter fun i => b.get Reg.dir_V i == 0

/-- The free ways a request may take: the one given up for it, else those given up for no other (R169). -/
def Blk.waysFor (b : Blk) (q : Req) : List Nat :=
  let free := b.freeWays q.line
  match free.filter fun i => q.evict == some i with
  | [] => free.filter fun i => !b.home.reqs.any fun r => r.id != q.id && r.wait == .way && r.evict == some i
  | own => own

/-- Allocate an entry in state `tier_wait` (R159) in one of some free ways: which is open (R148). -/
def Blk.dirAlloc (b : Blk) (ways : List Nat) (line inLine tenant : Nat) : Blk :=
  let rank := 16 - (b.freeWays line).length
  let (i, b) := b.pick 0 ways
  let b := b.puts i [(Reg.dir_V, 1), (Reg.dir_STATE, Ds.tierWait), (Reg.dir_LINE, line), (Reg.dir_IN_LINE, inLine),
    (Reg.dir_TENANT, tenant), (Reg.dir_ALLOC_RANK, rank)]
  b.put Reg.FEN_OCC_ENTRIES (b.get Reg.FEN_OCC_ENTRIES + 1)

/-- The owner's minimum tenure has ended (R164); ACK_TIME holds bits [31:0] of the time counter. -/
def Blk.tenureOver (b : Blk) (i : Nat) : Bool :=
  decide (b.get Reg.FEN_CFG_TENURE_NS ≤ subMod 32 (b.now % 2 ^ 32) (b.get Reg.dir_ACK_TIME i))

/-! ### Snoops and grants (R152, R162, R163) -/

/-- A coherence message of the home to a fen number about an entry (R152). -/
def Blk.cohFrame (b : Blk) (fen i opc tag arg : Nat) : Frame :=
  { dst := .ofNat 16 (b.get Reg.member_NODE fen), src := .ofNat 16 b.node, opc := .ofNat 8 opc, tag := .ofNat 16 tag,
    restart := .ofNat 16 b.restart, tenant := .ofNat 12 (b.get Reg.dir_TENANT i),
    addr := .ofNat 64 (b.node * 2 ^ 47 + b.get Reg.dir_IN_LINE i * 64), arg := .ofNat 32 arg }

/-- Send a snoop: REASON 0 request, 1 back_inv, 2 drain. A FENCED part sends none (R62). -/
def Blk.snoop (b : Blk) (fen i opc reason : Nat) (req : Option Nat) : Blk :=
  let tag := b.home.nextTag
  let s : Snoop := { fen, idx := i, opc, reason, tag, sent := b.el, req }
  let b := { b with home := { b.home with nextTag := (tag + 1) % 2 ^ 16, snoops := b.home.snoops ++ [s] } }
  if b.fenced then b else (b.count Reg.FEN_SNOOP_CNT).answer (b.cohFrame fen i opc tag reason)

/-- Snoops are due for an entry. -/
def Blk.snooping (b : Blk) (i : Nat) : Bool := b.home.snoops.any (·.idx == i)

/-- Snoop every fen number of a list. -/
def Blk.snoopAll (b : Blk) (l : List Nat) (i opc reason : Nat) (req : Option Nat) : Blk :=
  b.each l fun b n => b.snoop n i opc reason req

/-- Grant a line to a fen number: shared, or alone (R156). -/
def Blk.grantLine (b : Blk) (i fen tag : Nat) (excl : Bool) : Blk :=
  let g : Grant := { fen, idx := i, tag, sent := b.el, excl }
  let b := { b with home := { b.home with grants := b.home.grants ++ [g] } }
  if excl then
    b.puts i [(Reg.dir_STATE, Ds.grantWait), (Reg.dir_SHARERS, 2 ^ fen), (Reg.dir_OWNER, fen), (Reg.dir_OWNER_V, 1),
      (Reg.dir_ACKS_DUE, b.get Reg.dir_ACKS_DUE i + 1)]
  else
    let s := b.get Reg.dir_SHARERS i
    let owned := b.get Reg.dir_OWNER_V i = 1
    b.puts i [(Reg.dir_STATE, Ds.shared), (Reg.dir_SHARERS, if owned then 2 ^ fen else s ||| 2 ^ fen), (Reg.dir_OWNER, 0),
      (Reg.dir_OWNER_V, 0), (Reg.dir_ACKS_DUE, b.get Reg.dir_ACKS_DUE i + 1)]

/-- Entries in use, and their high-water mark. -/
def Blk.flockOcc (b : Blk) : Blk :=
  let n := (b.home.reqs.filter (·.leads)).length
  (b.put Reg.FLOCK_OCC_ENTRIES n).mark Reg.FLOCK_OCC_HWM n

/-! ### Monitors (R203, R204, R206, R207) -/

/-- The condition of a wait on a word (Table 6.8). -/
def waitHolds (cond value mask w : Nat) : Bool :=
  match cond with
  | 0 => w == value
  | 1 => w != value
  | 2 => decide (subMod 64 w value < 2 ^ 63)
  | _ => (w &&& mask) == (value &&& mask)

/-- A monitor's condition on a word. -/
def Blk.condHolds (b : Blk) (m w : Nat) : Bool :=
  waitHolds (b.get Reg.monitor_COND m) (b.get Reg.monitor_VALUE m) (b.get Reg.monitor_MASK m) w

/-- A monitor returns to `free`; what waited on it is answered by `say`. -/
def Blk.freeMonitor (b : Blk) (m : Nat) (say : Blk → Nat → Blk) : Blk :=
  let b := (b.clearEntry .t_monitor m).put Reg.SYNC_MON_OCC_ARMED (b.get Reg.SYNC_MON_OCC_ARMED - 1)
  let b := { b with eng := { b.eng with monSeen := b.eng.monSeen.filter fun x => x.1 != m } }
  match b.eng.monWork.find? (·.1 == m) with
  | some x => say { b with eng := { b.eng with monWork := b.eng.monWork.filter (·.1 ≠ m) } } x.2
  | none => b

/-- A monitor fires: the queue or the thread that waited on it goes on (R206). -/
def Blk.fire (b : Blk) (m w : Nat) : Blk :=
  (b.count Reg.SYNC_FIRE_CNT).freeMonitor m fun b x => b.result (.work x 2) St.ok (.ofNat 512 w)

/-- A tenant may arm a monitor (R209), those being armed counted with those armed. -/
def Blk.mayArm (b : Blk) (tenant : Nat) : Bool :=
  let armed := b.entriesWith Reg.monitor_STATE
  let arming := b.home.reqs.filter (·.arms)
  decide (armed.length + arming.length < 65536) &&
  decide ((armed.filter fun m => b.get Reg.monitor_TENANT m == tenant).length + (arming.filter fun q => q.fr.tenant.toNat == tenant).length <
    b.get Reg.SYNC_TENANT_LIMIT_MONITORS)

/-- A wait that still runs is armed with its line in hand (R204): with no monitor to take it is polled (R209), and a firmware thread's is not
made; else it fires at once, or takes a free monitor, which one is open. -/
def Blk.armNow (b : Blk) (id off : Nat) (l : Line) : Blk :=
  match b.eng.works.find? fun w => w.id == id && w.phase == Phase.running with
  | none => b
  | some w =>
    let word := lineGet l (off % 64) 8
    let value := dfield w.desc 24 63 0
    let mask := dfield w.desc 32 63 0
    let cond := dfield w.desc 40 1 0
    if b.fenced then b
    else if b.mayArm w.tenant = false then b.result (.work id 3) St.ok
    else if waitHolds cond value mask word then (b.count Reg.SYNC_FIRE_CNT).result (.work id 2) St.ok (.ofNat 512 word)
    else
      let (d, b) := b.draw 65536
      let armed := b.entriesWith Reg.monitor_STATE
      let m := (((List.range (armed.length + 1)).map fun i => (d + i) % 65536).find? fun m => !armed.contains m).getD d
      let wakes := if w.kind = 4 then [(Reg.monitor_ACTION, 1), (Reg.monitor_TILE, w.tile), (Reg.monitor_THREAD, w.thread)]
        else [(Reg.monitor_ACTION, 0), (Reg.monitor_QUEUE, w.queue)]
      let b := b.puts m ([(Reg.monitor_STATE, 1), (Reg.monitor_COND, cond), (Reg.monitor_TENANT, w.tenant),
        (Reg.monitor_WORD, off / 8), (Reg.monitor_VALUE, value), (Reg.monitor_MASK, mask)] ++ wakes)
      let n := b.get Reg.SYNC_MON_OCC_ARMED + 1
      let b := (b.put Reg.SYNC_MON_OCC_ARMED n).mark Reg.SYNC_MON_OCC_HWM n
      { b with eng := { b.eng with monWork := b.eng.monWork ++ [(m, id)], monSeen := b.eng.monSeen ++ [(m, word)],
                                   works := b.eng.works.map fun (x : Work) => if x.id = id then { x with watch := some m } else x } }

/-- The write of SYNC_DBG_CMD `set_word` ends: the command finishes and is logged (R217, R219). DESIGN CHOICE: under the SESSION
of that moment, which an `unlock` may have changed meanwhile (log entry 97). -/
def Blk.dbgLog (b : Blk) (op target old new : Nat) : Blk :=
  let i := b.get Reg.SYNC_DBG_LOG_PTR_NEXT
  let full := b.get Reg.dbg_log_OP i ≠ 0
  let b := b.puts i [(Reg.dbg_log_TIME, b.now), (Reg.dbg_log_OP, op), (Reg.dbg_log_SESSION, b.get Reg.DBG_STATE_SESSION),
    (Reg.dbg_log_TARGET, target), (Reg.dbg_log_OLD, old), (Reg.dbg_log_NEW, new)]
  let b := if full then b.put Reg.SYNC_DBG_LOG_PTR_WRAPPED 1 else b
  ((b.put Reg.SYNC_DBG_LOG_PTR_NEXT ((i + 1) % 64)).count Reg.SYNC_DBG_ACTION_CNT).err Pg.sync 1

/-- SYNC_DBG_CMD's status registers. -/
def syncCmd : CmdReg := ⟨Reg.SYNC_DBG_STATUS_DONE, Reg.SYNC_DBG_STATUS_CODE, Pg.sync⟩

/-! ### Completion -/

/-- A request and its members leave their windows' counts. -/
def Blk.leaveAll (b : Blk) (q : Req) : Blk :=
  let b := match q.win with
    | some w => b.winLeave w
    | none => b
  b.each q.members fun b m => b.winLeave m.win

/-- The entry of a line is held for a request past the directory stage. -/
def Blk.claimed (b : Blk) (line : Nat) : Bool := b.home.reqs.any fun r => r.line == line && r.claims

/-- The entry held for a request is freed when it fails, unless another's holds it too (R29, R159); an entry with holders stays, and its owner's
tenure no longer keeps that request. -/
def Blk.failEntry (b : Blk) (q : Req) : Blk :=
  match b.dirFind q.line with
  | some i =>
    if q.claims && b.get Reg.dir_SHARERS i == 0 && !b.claimed q.line then b.dirFree i
    else if q.wait = .tenure ∧ b.get Reg.dir_STATE i = Ds.tenureWait then b.put Reg.dir_STATE Ds.owned i
    else b
  | none => b

/-- GRANT_E: the line alone, in answer to a near atomic, under the address and tenant its entry names (R152). -/
def Blk.grantE (b : Blk) (q : Req) (l : Line) : Blk :=
  match b.dirFind q.line, b.fenOf q.fr.src.toNat with
  | some i, some n => b.answer { b.cohFrame n i Opc.grantE q.fr.tag.toNat 0 with pl := true, data := l }
  | _, _ => b

/-- An atomic has run: near, or far of a member, each of its frames by itself (Table 5.12). -/
def Blk.countRun (b : Blk) (q : Req) : Blk :=
  if isAtomic q.op = false ∨ q.kind ≠ .request then b
  else if q.near then b.count Reg.PRED_NEAR_CNT
  else b.countN Reg.PRED_FAR_CNT (q.frames.filter fun f => (b.fenOf f.src.toNat).isSome).length

/-- A fabric or local request completes: a status, and a line for each of its frames; a near atomic is answered GRANT_E. -/
def Blk.finishReq (b : Blk) (q : Req) (status : Nat) (ls : List Line) : Blk :=
  let b := (b.dropReq q.id).leaveAll q
  let b := if q.leads then b.flockOcc else b
  let b := if status = St.ok then b.countRun q else b.failEntry q
  if q.near && status == St.ok then b.grantE q (ls.headD 0)
  else b.each (q.frames.zip (ls ++ List.replicate q.members.length 0)) fun b x => b.complete x.1 status x.2

/-- A request is done with its line; the answer waits for its protection updates (R245, R249). -/
def Blk.settleReq (b : Blk) (q : Req) (status : Nat) (ls : List Line) : Blk :=
  match b.req? q.id with
  | none => b
  | some r =>
    if r.acks = 0 then b.finishReq r status ls
    else b.modReq q.id fun r => { r with wait := .acks, result := some (status, ls) }

/-- A request of the home other than a write of dirty data ends with a status. The add of a WR_SIGNAL that fails leaves its line to be
written all the same (R100). DESIGN CHOICE: a `set_word` whose line cannot be written finishes `bad_state` (R217; log entry 97). -/
def Blk.finishOwn (b : Blk) (q : Req) (status : Nat) (ls : List Line) : Blk :=
  match q.kind with
  | .request => b.settleReq q status (if status = St.ok then ls else [0])
  | .arm w =>
    let b := (b.dropReq q.id).leaveAll q
    if status = St.ok then b.armNow w q.off (ls.headD 0) else b.result (.work w 1) status
  | .debug =>
    let b := b.dropReq q.id
    if status = St.ok then (b.dbgLog 1 (q.off / 8) (lineGet (ls.headD 0) (q.off % 64) 8) (lineGet q.fr.data (q.off % 64) 8)).cmdEnd syncCmd ok
    else b.cmdEnd syncCmd badState
  | .signal p => (b.dropReq q.id).modReq p fun r => { r with sigFail := some status }
  | _ => b

/-- What the end of a write of dirty data does (R155, R157): a failure is that of the request it was collected for, and frees the entry; so does
the end of a write that leaves it without holder and held for no request. -/
def Blk.finishDirty (b : Blk) (q : Req) (parent : Option Nat) (i status : Nat) : Blk :=
  let b := if status = St.ok then b else b.err Pg.fen 6
  let b := match parent.bind b.req? with
    | some p => if status = St.ok then b else b.finishOwn p status []
    | none => b
  if b.get Reg.dir_V i = 1 ∧ b.get Reg.dir_LINE i = q.line ∧
      (status ≠ St.ok ∨ (b.get Reg.dir_SHARERS i = 0 ∧ b.claimed q.line = false)) then b.dirFree i else b

/-- WB_ACK, under the line address of the write-back (R152). -/
def Blk.wbAck (b : Blk) (f : Frame) (status : Nat) : Blk :=
  b.answer { b.response f Opc.wbAck status 0 with tc := 0, epoch := 0, addr := .ofNat 64 (b.node * 2 ^ 47 + f.inLine * 64) }

/-- A write-back is answered, as a write is, once its protection updates are acknowledged (R155, R245, R249). -/
def Blk.endBack (b : Blk) (q : Req) (status : Nat) : Blk :=
  match b.req? q.id with
  | some r =>
    if r.acks = 0 then (b.dropReq q.id).wbAck q.fr status
    else b.modReq q.id fun r => { r with wait := .acks, result := some (status, []) }
  | none => b

/-- A request whose protection updates are all acknowledged is answered. -/
def Blk.answerReq (b : Blk) (q : Req) (status : Nat) (ls : List Line) : Blk :=
  match q.kind with
  | .writeBack _ _ => (b.dropReq q.id).wbAck q.fr status
  | _ => b.finishReq q status ls

/-- Any request of the home ends with a status. -/
def Blk.finish (b : Blk) (q : Req) (status : Nat) (ls : List Line) : Blk :=
  match q.kind with
  | .dirty parent i => (b.dropReq q.id).finishDirty q parent i status
  | .writeBack parent i => (b.endBack q status).finishDirty q parent i status
  | _ => b.finishOwn q status ls

/-! ### Flock (R137 to R141) -/

/-- An entry's leader may be joined by a request (Table 4.6). -/
def Req.joins (l q : Req) : Bool :=
  l.open_ && l.active && l.line == q.line && l.fr.tenant == q.fr.tenant && !q.fr.final &&
  (if q.op = Opc.rdLine then l.op == Opc.rdLine || l.op == Opc.rdLineNa
   else if q.op = Opc.rdLineNa then l.op == Opc.rdLineNa
   else isAtomic q.op && l.op == q.op && l.off == q.off && l.fr.width == q.fr.width &&
     (q.op != Opc.fadd32 || (l.relaxed && q.relaxed)))

/-- A request may combine at all. -/
def Blk.combinable (b : Blk) (q : Req) : Bool :=
  !q.fr.final && !q.alone && q.kind == .request &&
  (((q.op == Opc.rdLine || q.op == Opc.rdLineNa) && b.flag Reg.FLOCK_CTRL_READ_EN) ||
   (isAtomic q.op && q.op != Opc.swap && q.op != Opc.cas && (q.op != Opc.fadd32 || q.relaxed) && b.flag Reg.FLOCK_CTRL_ATOMIC_EN))

/-- The predictor's region of an offset. -/
def Blk.predRegion (b : Blk) (off : Nat) : Nat := off >>> b.get Reg.PRED_CFG_GRAIN_LOG2

/-- The predictor's entry number (R173). -/
def predIndex (tenant region : Nat) : Nat := (bits region 13 0 ^^^ bits region 27 14 ^^^ tenant) % 2 ^ 14

/-- The predictor's entry for a region, made fresh where it held another (R173). -/
def Blk.predEntry (b : Blk) (i tenant region : Nat) : Blk :=
  if b.get Reg.pred_V i = 1 ∧ b.get Reg.pred_TENANT i = tenant ∧ b.get Reg.pred_REGION i = region then b
  else
    b.puts i [(Reg.pred_V, 1), (Reg.pred_FAR, 0), (Reg.pred_CNT, 0), (Reg.pred_LAST_V, 0), (Reg.pred_LAST, 0),
      (Reg.pred_TENANT, tenant), (Reg.pred_REGION, region)]

/-- An atomic meets contention at its region (R173). -/
def Blk.contended (b : Blk) (i : Nat) : Option Nat → Bool
  | none => true
  | some n => b.get Reg.pred_LAST_V i == 1 && b.get Reg.pred_LAST i != n

/-- The new count of an entry. -/
def Blk.predCount (b : Blk) (i : Nat) (contended : Bool) : Nat :=
  if contended then Nat.min 15 (b.get Reg.pred_CNT i + Nat.max 1 (b.get Reg.PRED_CFG_INC)) else b.get Reg.pred_CNT i - 1

/-- The mode of an entry follows its count. -/
def Blk.predFlip (b : Blk) (i : Nat) : Blk :=
  let cnt := b.get Reg.pred_CNT i
  if b.get Reg.pred_FAR i = 0 ∧ b.get Reg.PRED_CFG_FAR_ON ≤ cnt then (b.put Reg.pred_FAR 1 i).count Reg.PRED_FLIP_CNT
  else if b.get Reg.pred_FAR i = 1 ∧ cnt ≤ b.get Reg.PRED_CFG_FAR_OFF then (b.put Reg.pred_FAR 0 i).count Reg.PRED_FLIP_CNT
  else b

/-- predictor_update (R173). -/
def Blk.predUpdate (b : Blk) (tenant region : Nat) (src : Option Nat) : Blk :=
  let i := predIndex tenant region
  let b := b.predEntry i tenant region
  let b := b.put Reg.pred_CNT (b.predCount i (b.contended i src)) i
  let b := match src with
    | some n => (b.put Reg.pred_LAST n i).put Reg.pred_LAST_V 1 i
    | none => b
  b.predFlip i

/-- The predictor gives `near` (R172). -/
def Blk.predNear (b : Blk) (tenant region : Nat) : Bool :=
  match b.get Reg.PRED_CFG_MODE with
  | 0 => b.get Reg.pred_FAR (predIndex tenant region) == 0
  | 1 => true
  | _ => false

/-- The monitors armed on a line, by word. -/
def Blk.monitorsOnLine (b : Blk) (line : Nat) : List Nat :=
  (b.entriesWith Reg.monitor_STATE).filter fun m => b.get Reg.monitor_STATE m == 1 && b.get Reg.monitor_WORD m / 8 == line

/-- An atomic runs near (R171, R172, R207). -/
def Blk.runsNear (b : Blk) (q : Req) : Bool :=
  match b.fenOf q.fr.src.toNat with
  | none => false
  | some n =>
    b.flag Reg.member_NEAR_OK n && q.op != Opc.faddExact && !q.fr.final && q.winWr && !q.alone &&
    (b.monitorsOnLine q.line).isEmpty && b.predNear q.fr.tenant.toNat (b.predRegion q.off)

/-- The add a WR_SIGNAL makes to its word (R100). -/
def Req.addFrame (q : Req) : Frame :=
  { q.fr with opc := .ofNat 8 Opc.add, arg := 5, data := .ofNat 512 q.fr.sigAdd, final := true,
              addr := .ofNat 64 (q.fr.addr.toNat / 2 ^ 26 * 2 ^ 26 + q.fr.sigWord * 8) }

/-- The add of a WR_SIGNAL to a word of another line takes its place there as the line takes its own, so that both are made as one commit
(R138, R205). -/
def Blk.addPlace (b : Blk) (q : Req) : Blk :=
  if q.twoLines then
    let (p, b) := b.takePlace
    let b := { b with home := { b.home with reqs := b.home.reqs.map fun (r : Req) => if r.line = q.sigOff / 64 then { r with open_ := false } else r } }
    (b.addReq { id := 0, fr := q.addFrame, kind := .signal q.id, off := q.sigOff, place := p, stage := .dir, alone := true }).2
  else b

/-- A request passes Flock: it joins an open entry, or takes its place, closes the entries of its line (R139) and may open
one. RELAXED is the window's bit as it passes (Table 4.6); a member served again has kept its place (R184). DESIGN CHOICE: an atomic that the
predictor gives `near` but that runs far may open an entry, R172 being of one that runs near (log entry 97). -/
def Blk.passFlock (b : Blk) (q : Req) : Blk :=
  let q := { q with relaxed := q.win.any fun w => b.flag Reg.window_RELAXED w }
  let b := b.modReq q.id fun r => { r with relaxed := q.relaxed }
  let b := if isAtomic q.op && q.kind == .request then
      b.predUpdate q.fr.tenant.toNat (b.predRegion q.off) (b.fenOf q.fr.src.toNat)
    else b
  let mayJoin := b.combinable q
  let host := if mayJoin then b.home.reqs.find? fun l => l.joins q else none
  let pool := b.home.reqs.foldl (fun n r => n + r.members.length) 0
  match host.filter fun l => l.members.length < 63 && pool < 65536 with
  | some l =>
    let (p, b) := b.takePlace
    let b := (b.dropReq q.id).modReq l.id fun l => { l with members := l.members ++ [⟨q.fr, q.win.getD 0, q.off, p⟩] }
    b.count (if isRead q.op then Reg.FLOCK_READ_JOIN_CNT else Reg.FLOCK_ATOMIC_JOIN_CNT)
  | none =>
    let (p, b) := if q.place = 0 then b.takePlace else (q.place, b)
    let near := isAtomic q.op && q.kind == .request && b.runsNear q
    let full := decide (8192 ≤ (b.home.reqs.filter (·.leads)).length) || decide (65536 ≤ pool)
    let opens := mayJoin && !near && host.isNone && !full
    let b := if mayJoin && (host.isSome || (!near && full)) then b.count Reg.FLOCK_FULL_CNT else b
    let b := { b with home := { b.home with reqs := b.home.reqs.map fun (r : Req) =>
      if r.id = q.id then { r with place := p, near := near, leads := opens, open_ := opens, stage := if q.op = Opc.rdLine then .tier else .dir, wait := .ready }
      else if r.line = q.line then { r with open_ := false } else r } }
    (b.addPlace q).flockOcc

/-! ### Reservation (R165 to R168, R170) -/

/-- Slots in use, and their high-water mark. -/
def Blk.rsvOcc (b : Blk) : Blk :=
  let n := b.home.slots.length
  (b.put Reg.FEN_RSV_OCC_USED n).mark Reg.FEN_RSV_OCC_HWM n

/-- The key of a slot a request matches. -/
def RsvSlot.matches (s : RsvSlot) (q : Req) : Bool := s.src == q.fr.src.toNat && s.line == q.line && s.opc == q.op

/-- Members are to be served again through their own windows, uncombined (R57). -/
def Blk.serveAgain (b : Blk) (ms : List Member) : Blk :=
  { (b.each ms fun b m => b.winLeave m.win) with home := { (b.each ms fun b m => b.winLeave m.win).home with again := b.home.again ++ ms.map fun m => (m.fr, m.place) } }

/-- The reserved tracker entry of a slot is in use (R151). -/
def Blk.entryUsed (b : Blk) (s : Nat) : Bool := b.home.reqs.any fun r => r.resv == some s && r.inTracker

/-- The free slots: not bound, and with their tracker entries free (log entry 80). -/
def Blk.rsvFree (b : Blk) : List Nat := (List.range 512).filter fun s => !b.home.slots.any (·.slot == s) && !b.entryUsed s

/-- Answer RETRY_RSV with a slot bound to the request's key: which free slot is open; with none free it is held at the
intake (R168). DESIGN CHOICE: its Flock members are served again uncombined (R141; log entry 97). -/
def Blk.retry (b : Blk) (q : Req) : Blk :=
  let free := b.rsvFree
  if free.isEmpty then b.modReq q.id fun q => { q with wait := .slot }
  else
    let (s, b) := b.pick 0 free
    let slot : RsvSlot := { slot := s, src := q.fr.src.toNat, line := q.line, opc := q.op, since := b.el, hold := b.get Reg.FEN_RSV_CFG_RSV_HOLD_US }
    let b := { b with home := { b.home with slots := b.home.slots ++ [slot] } }
    let b := ((((b.dropReq q.id).leaveAll { q with members := [] }).serveAgain q.members).count Reg.FEN_RETRY_CNT).rsvOcc
    b.answer { b.response q.fr Opc.retryRsv St.ok 0 with arg := .ofNat 32 (b.get Reg.FEN_RSV_CFG_RSV_HOLD_US * 2 ^ 16 + s) }

/-! ### The directory stage (R150, R151, R156) -/

/-- Dirty data or a write-back of a line is being written. -/
def Blk.dirtyPending (b : Blk) (line : Nat) : Bool := b.home.reqs.any fun r => r.internal && r.active && !r.queued && r.line == line

/-- A drain recall of an entry is due before a place in its line's order (R53, R56). -/
def Blk.drainDue (b : Blk) (i place : Nat) : Bool := b.home.drains.any fun d => d.recalls.contains i && decide (d.place ≤ place)

/-- The requests of a line that went before one and are not done, write-backs that wait their turn among them (R155). -/
def Blk.earlier (b : Blk) (q : Req) : List Req :=
  b.home.reqs.filter fun r => r.line == q.line && r.active && (!r.internal || r.queued) && r.place < q.place

/-- A request may be placed in the tracker: it has an entry, or a general one is free and its line may have one more (R151, R165). -/
def Blk.mayPlace (b : Blk) (q : Req) : Bool :=
  let general := b.home.reqs.filter fun r => r.inTracker && r.resv.isNone && !r.internal
  q.kind != .request || q.resv.isSome || q.inTracker ||
  (decide (general.length < 4096) && decide ((general.filter (·.line == q.line)).length < b.get Reg.FEN_RSV_CFG_LINE_QUEUE))

/-- A request must wait its turn at its line (R150): earlier work, an entry in a transient state, or grants still to be
acknowledged where it must recall. -/
def Blk.mustWait (b : Blk) (q : Req) : Bool :=
  let e := b.dirFind q.line
  let shared := match e with
    | some i => b.get Reg.dir_STATE i == Ds.shared
    | none => false
  b.dirtyPending q.line ||
  (b.earlier q).any (fun r => r.op != Opc.rdLine && !(shared && r.op == Opc.rdShared && q.op == Opc.rdShared)) ||
  (match e with
   | none => false
   | some i =>
     let s := b.get Reg.dir_STATE i
     s == Ds.grantWait || s == Ds.evictWait || s == Ds.drainWait || b.drainDue i q.place ||
     (b.get Reg.dir_ACKS_DUE i != 0 && !isRead q.op) || (b.get Reg.dir_ACKS_DUE i != 0 && q.caching && q.op != Opc.rdShared))

/-- A way a back-invalidation may take (R169): no request waits at it, none has its entry held for it past the directory (R159), and no recall is
due of it (log entry 95). -/
def Blk.mayEvict (b : Blk) (i : Nat) : Bool :=
  let s := b.get Reg.dir_STATE i
  b.get Reg.dir_V i == 1 && ((s == Ds.shared && b.get Reg.dir_ACKS_DUE i == 0) || (s == Ds.owned && b.tenureOver i)) &&
  !b.drainDue i b.home.nextPlace && !b.home.reqs.any fun r => r.line == b.get Reg.dir_LINE i && (r.inTracker || r.wait == .slot || r.claims)

/-- The victim of a line's set: lowest rank. -/
def Blk.victim (b : Blk) (line : Nat) : Option Nat :=
  (((List.range 16).map (dirSet line * 16 + ·)).filter b.mayEvict).foldl (fun (o : Option Nat) i => match o with
    | none => some i
    | some j => if b.get Reg.dir_ALLOC_RANK i < b.get Reg.dir_ALLOC_RANK j then some i else some j) none

/-- A way is being given up: its answers are due, or its dirty data is being written. -/
def Blk.going (b : Blk) (i : Nat) : Bool :=
  b.get Reg.dir_V i == 1 && (b.get Reg.dir_STATE i == Ds.evictWait ||
    (b.get Reg.dir_STATE i == Ds.tierWait && b.dirtyPending (b.get Reg.dir_LINE i) && !b.claimed (b.get Reg.dir_LINE i)))

/-- A request that waits for a way may take one: a free one, or, while none is being given up for it, one that satisfies R169 (R170). -/
def Blk.wayReady (b : Blk) (q : Req) : Bool :=
  b.waysFor q != [] || (!q.evict.any b.going && (b.victim q.line).isSome)

/-- A request leaves the directory stage. -/
def Blk.toTier (b : Blk) (q : Req) : Blk :=
  b.modReq q.id fun q => { q with stage := .tier, wait := .ready }

/-- A request that needs an entry: allocate, evict or retry (R159, R169, R170). -/
def Blk.needEntry (b : Blk) (q : Req) : Blk :=
  let ways := b.waysFor q
  if ways ≠ [] then ((b.dirAlloc ways q.line q.fr.inLine q.fr.tenant.toNat).modReq q.id fun q => { q with evict := none }).toTier q
  else if b.mayPlace q = false then b.retry q
  else
    let wait (b : Blk) (v : Option Nat) : Blk := b.modReq q.id fun q => { q with wait := .way, evict := v }
    match b.victim q.line with
    | some v =>
      let hs := b.holders v
      let b := ((b.put Reg.dir_STATE Ds.evictWait v).count Reg.FEN_BACKINV_CNT).snoopAll hs v Opc.snpInv 1 none
      wait b (some v)
    | none => if q.resv.isSome then wait b none else b.retry q

/-- A recall of an owner for a request, after its tenure (R164). -/
def Blk.recallOwner (b : Blk) (q : Req) (i opc st : Nat) : Blk :=
  if b.tenureOver i then
    ((b.put Reg.dir_STATE st i).snoop (b.get Reg.dir_OWNER i) i opc 0 (some q.id)).modReq q.id fun q => { q with wait := .snoop }
  else
    ((b.put Reg.dir_STATE Ds.tenureWait i).count Reg.FEN_TENURE_WAIT_CNT).modReq q.id fun q => { q with wait := .tenure }

/-- Table 5.6 for a request whose turn it is. An atomic whose line has come under a monitor since it passed Flock runs far (R207). -/
def Blk.dirServe (b : Blk) (q : Req) : Blk :=
  let q := { q with near := q.near && (b.monitorsOnLine q.line).isEmpty }
  let b := b.modReq q.id fun r => { r with near := q.near }
  let n := b.fenOf q.fr.src.toNat
  match b.dirFind q.line with
  | none => if q.caching then b.needEntry q else b.toTier q
  | some i =>
    let owner := if b.get Reg.dir_OWNER_V i = 1 then some (b.get Reg.dir_OWNER i) else none
    if q.caching && b.get Reg.dir_IN_LINE i != q.fr.inLine then
      ((b.count Reg.FEN_ALIAS_CNT).err Pg.fen 3).finish q St.unsupported []
    else if q.op = Opc.rdShared then
      match owner with
      | some m => if n = some m then b.toTier q else b.recallOwner q i Opc.snpShr Ds.shrWait
      | none => b.toTier q
    else if q.op = Opc.rdLineNa ∨ q.op = Opc.rdVol then
      match owner with
      | some m =>
        ((b.put Reg.dir_STATE Ds.peekWait i).snoop m i Opc.snpPeek 0 (some q.id)).modReq q.id fun q => { q with wait := .snoop }
      | none => b.toTier q
    else
      let others := (b.holders i).filter fun h => !(q.caching && n == some h)
      if others = [] then (if q.caching then b.toTier q else (b.dirFree i).toTier q)
      else
        match owner with
        | some _ => b.recallOwner q i Opc.snpInv Ds.invWait
        | none =>
          ((b.put Reg.dir_STATE Ds.invWait i).snoopAll others i Opc.snpInv 0 (some q.id)).modReq q.id fun q => { q with wait := .snoop }

/-- A request reaches the directory stage, or tries again there (R146, R150, R151, R165, R166). -/
def Blk.dirStage (b : Blk) (q : Req) : Blk :=
  if (q.op = Opc.rdShared ∨ q.op = Opc.rdOwn) ∧ (b.fenOf q.fr.src.toNat).isNone = true then
    ((b.count Reg.FEN_NONMEMBER_CNT).err Pg.fen 4).finish q St.unsupported []
  else
    let slot := if q.wait = .ready then b.home.slots.find? (·.matches q) else none
    let b := match slot with
      | some s =>
        ({ b with home := { b.home with slots := b.home.slots.erase s } }).rsvOcc.modReq q.id fun q => { q with resv := some s.slot }
      | none => b
    let q := match slot with
      | some s => { q with resv := some s.slot }
      | none => q
    if b.mustWait q = false then b.dirServe q
    else if b.mayPlace q then b.modReq q.id fun q => { q with wait := .turn }
    else b.retry q

/-- An entry is left without a holder: it frees, or stays without one in `tier_wait` (R149) while dirty data of its line is written. -/
def Blk.leaveEntry (b : Blk) (i : Nat) : Blk :=
  if b.dirtyPending (b.get Reg.dir_LINE i) then b.put Reg.dir_STATE Ds.tierWait i else b.dirFree i

/-- Every snoop a request was waiting for is answered: its entry takes its new state, and it goes on once dirty data is
written (R156, R157). -/
def Blk.snoopsDone (b : Blk) (q : Req) (i : Nat) : Blk :=
  let none_ := b.get Reg.dir_SHARERS i = 0
  let b :=
    if q.op = Opc.rdLineNa ∨ q.op = Opc.rdVol then
      if none_ then b.leaveEntry i
      else b.put Reg.dir_STATE (if b.get Reg.dir_OWNER_V i = 1 then Ds.owned else Ds.shared) i
    else if q.caching then b.put Reg.dir_STATE (if none_ then Ds.tierWait else Ds.shared) i
    else b.dirFree i
  b.modReq q.id fun q => { q with stage := .tier, wait := if b.dirtyPending q.line then .dirty else .ready }

/-- Dirty data of an entry is written through the tier and store stages under the entry's tenant (R155, R157); `wb`: the
WB_DIRTY that brought it. -/
def Blk.writeDirty (b : Blk) (i : Nat) (parent : Option Nat) (d : Line) (wb : Option Frame := none) : Blk :=
  let line := b.get Reg.dir_LINE i
  let (p, b) := b.takePlace
  let own : Frame := { opc := .ofNat 8 Opc.wrLine, tc := 1, pl := true, tenant := .ofNat 12 (b.get Reg.dir_TENANT i), src := .ofNat 16 b.node, data := d }
  let (fr, kind) := match wb with
    | some f => (f, Kind.writeBack parent i)
    | none => (own, Kind.dirty parent i)
  (b.addReq { id := 0, fr, kind, off := line * 64, place := p, stage := .tier }).2

/-- A snoop is answered: DIRTY data and what the holder keeps, 0 none, 1 shared, 2 owned (R156, R157, R162); `wb`: a
WB_DIRTY serves as the answer (Table 5.8). -/
def Blk.answerSnoop (b : Blk) (s : Snoop) (dirty : Option Line) (held : Nat) (wb : Option Frame := none) : Blk :=
  let i := s.idx
  let b := { b with home := { b.home with snoops := b.home.snoops.erase s } }
  let recorded := bitAt (b.get Reg.dir_SHARERS i) s.fen
  let b := if held = 0 ∧ dirty = none ∧ recorded = true then b.count Reg.FEN_SNOOP_NP_CNT else b
  let peek := s.opc = Opc.snpPeek
  let b := if held = 0 then b.dropHolder i s.fen
    else if held = 1 ∨ peek = false then
      if b.get Reg.dir_OWNER_V i = 1 ∧ b.get Reg.dir_OWNER i = s.fen then (b.put Reg.dir_OWNER_V 0 i).put Reg.dir_OWNER 0 i else b
    else b
  let q := s.req.bind b.req?
  let b := match dirty with
    | none => b
    | some d =>
      if peek ∧ held ≠ 0 then
        match q with
        | some q => b.modReq q.id fun q => { q with data := some d }
        | none => b
      else b.writeDirty i (q.map (·.id)) d wb
  if b.snooping i then b
  else
    match q with
    | some q => b.snoopsDone q i
    | none =>
      if s.reason = 0 ∧ b.get Reg.dir_SHARERS i ≠ 0 then
        -- the request the snoop served has ended (R55): its holders stay, and a recall of them is still due (R50, R53)
        b.put Reg.dir_STATE (if b.get Reg.dir_OWNER_V i = 1 then Ds.owned else Ds.shared) i
      else
        { b with home := { b.home with drains := b.home.drains.map fun (d : Drain) => { d with recalls := d.recalls.filter (· ≠ i) } } }.leaveEntry i

/-- An owner's recall waits no more for its tenure: the request behind it takes its turn again. -/
def Blk.wakeTenure (b : Blk) (line : Nat) : Blk :=
  { b with home := { b.home with reqs := b.home.reqs.map fun (q : Req) =>
    if q.line = line ∧ q.wait = .tenure then { q with wait := .turn } else q } }

/-- An entry's owner gives up its line without having been asked: the entry frees (R147, R155). -/
def Blk.ownerGone (b : Blk) (i : Nat) : Blk :=
  let line := b.get Reg.dir_LINE i
  (b.dirFree i).wakeTenure line

/-- A coherence frame that comes too late (R154). -/
def Blk.lateCoh (b : Blk) : Blk := b.count Reg.FEN_LATE_COH_CNT

/-- A write-back's turn at its line: written where its sender still owns the line, else it comes too late (R154, R155). -/
def Blk.backTurn (b : Blk) (q : Req) : Blk :=
  match b.dirFind q.line, b.fenOf q.fr.src.toNat with
  | some i, some n =>
    if b.get Reg.dir_OWNER_V i = 1 ∧ b.get Reg.dir_OWNER i = n then
      (b.modReq q.id fun q => { q with kind := .writeBack none i, stage := .tier, wait := .ready }).ownerGone i
    else ((b.dropReq q.id).lateCoh).wbAck q.fr St.ok
  | _, _ => ((b.dropReq q.id).lateCoh).wbAck q.fr St.ok

/-- A write-back joins its line's order (R150, R155). -/
def Blk.queueBack (b : Blk) (i : Nat) (f : Frame) : Blk :=
  let (p, b) := b.takePlace
  (b.addReq { id := 0, fr := f, kind := .writeBack none i, off := b.get Reg.dir_LINE i * 64, place := p, stage := .dir, wait := .turn }).2

/-! ### Protection at the commit (R244, R249) -/

/-- A region is protected by updates: `active`, `frozen` for operations already past the window stage (R251), or being
copied by `activate` (R248). -/
def Blk.updating (b : Blk) (r : Nat) : Bool :=
  b.get Reg.region_STATE r == 1 || b.get Reg.region_STATE r == 3 ||
  (match b.prot with
   | some (.copy i _ _ failed) => i == r && !failed
   | _ => false)

/-- The address of remote line j of a region (R242). -/
def Blk.remoteLine (b : Blk) (r j : Nat) : Nat :=
  b.get Reg.region_PARTNER r * 2 ^ 47 + b.get Reg.region_REMOTE_BASE r * 2 ^ 26 + j * 64

/-- The regions of a mode that a line's commits update. -/
def Blk.protecting (b : Blk) (line mode : Nat) : List Nat :=
  (b.regionsOf (line / 2 ^ 20)).filter fun r =>
    b.get Reg.region_MODE r == mode && b.get Reg.region_OWNER r == 0 && b.updating r

/-- The mirror writes and parity atomics of one commit; the request waits for each (R244, R245, R249). DESIGN CHOICE: parity
atomics go in class bulk (log entry 97). -/
def Blk.protect (b : Blk) (id line : Nat) (old new : Line) (final : Bool) : Blk :=
  let more (b : Blk) : Blk := (b.count Reg.PROT_UPDATE_CNT).modReq id fun q => { q with acks := q.acks + 1 }
  let b := b.each (b.protecting line 1) fun b r =>
    let a := b.remoteLine r (line - b.get Reg.region_LOCAL_BASE r * 2 ^ 20)
    (more b).originate { fr := b.reqFrame (if final then Opc.wrLineFinal else Opc.wrLine) a (b.get Reg.region_TENANT r) true 0 new final,
                         agent := .mirror id r }
  b.each (b.protecting line 2) fun b r =>
    let a := b.remoteLine r (line - b.get Reg.region_LOCAL_BASE r * 2 ^ 20)
    b.each (List.range 8) fun b w =>
      let d := lineGet old (8 * w) 8 ^^^ lineGet new (8 * w) 8
      if d = 0 then b
      else (more b).originate { fr := b.reqFrame Opc.xor (a + 8 * w) (b.get Reg.region_TENANT r) true 5 (.ofNat 512 d), agent := .parity id r }

/-- A region becomes `unprotected` (R246, R250); a copy in progress has failed with it, and is reported likewise (R246, R248). -/
def Blk.unprotect (b : Blk) (r : Nat) : Blk :=
  let b :=
    match b.prot with
    | some (.copy i n a false) => if i = r then ({ b with prot := some (.copy i n a true) }.count Reg.PROT_LOST_CNT).err Pg.prot 0 else b
    | _ => b
  if b.get Reg.region_STATE r = 1 ∨ b.get Reg.region_STATE r = 3 then
    ((b.put Reg.region_STATE 2 r).count Reg.PROT_LOST_CNT).err Pg.prot 0
  else b

/-- One protection update of a request has completed. -/
def Blk.protAck (b : Blk) (id r status : Nat) : Blk :=
  let b := if status = St.ok then b else b.unprotect r
  let b := b.modReq id fun q => { q with acks := q.acks - 1 }
  match b.req? id with
  | some q =>
    match q.result with
    | some (s, ls) => if q.acks = 0 ∧ q.wait = .acks then b.answerReq q s ls else b
    | none => b
  | none => b

/-! ### Monitors at the commit (R203, R204, R206, R214) -/

/-- Evaluate the monitors of a line after a commit. -/
def Blk.watch (b : Blk) (line : Nat) (l : Line) : Blk :=
  b.each (b.monitorsOnLine line) fun b m =>
    let w := lineGet l (8 * (b.get Reg.monitor_WORD m % 8)) 8
    let b := { b with eng := { b.eng with monSeen := b.eng.monSeen.map fun (x : Nat × Nat) => if x.1 = m then (m, w) else x } }
    if b.condHolds m w then b.fire m w else b

/-- A monitor of another tenant on words that an operation would change (R214): its tenant. -/
def Blk.watchedBy (b : Blk) (words : List Nat) (tenant : Nat) : Option Nat :=
  ((words.flatMap b.monitorsOn).map fun m => b.get Reg.monitor_TENANT m).find? (· ≠ tenant)

/-! ### The store stage (R54, R231, R247) -/

/-- Read a request's line at the store: its value, or the status it ends with; `true` where a mirror is asked. -/
inductive Got where
  | line (l : Line)
  | fail (status : Nat)
  | mirror (region : Nat)
  deriving DecidableEq, Repr

/-- The old value of a resident line for a request. A line found uncorrectable in an active mirror region is asked of the
partner. -/
def Blk.fetchLine (b : Blk) (q : Req) (ra : Nat) : Got × Blk :=
  let mirror := (b.regionsOf (q.line / 2 ^ 20)).find? fun r =>
    b.get Reg.region_MODE r == 1 && b.get Reg.region_STATE r == 1 && b.get Reg.region_OWNER r == 0
  let (r, b) := b.readRa ra mirror.isNone
  match r with
  | .good s => (.line (s.plain (b.key q.fr.tenant.toNat) (b.tweak q.line)), b)
  | .bad => (match mirror with | some m => .mirror m | none => .fail St.uncorrectable, b)
  | .lost => (match mirror with | some m => if isRead q.op then .mirror m else .fail St.uncorrectable | none => .fail St.uncorrectable, b)

/-- A line has been written: what reads of it have had of the lower tier is too old to serve, and they take the tier stage again (R187). -/
def Blk.outdate (b : Blk) (line : Nat) : Blk :=
  { b with home := { b.home with reqs := b.home.reqs.map fun (r : Req) =>
    if r.line = line ∧ (r.wait = .pass ∨ r.low ≠ none) then { r with low := none, stage := .tier, wait := if r.wait = .pass then .ready else r.wait } else r } }

/-- Write a request's line at the store. -/
def Blk.commitLine (b : Blk) (tenant line ra : Nat) (l : Line) : Blk :=
  ((b.outdate line).writeRa ra (.enc (b.key tenant) (b.tweak line) l)).markDirty (line / 1024)

/-- What a write or an atomic makes of its line: the new line and each frame's old value. -/
def Req.newLine (q : Req) (old : Line) : Line × List Line :=
  if isAtomic q.op then atomicsOn (q.off % 64) q.frames old
  else if q.op = Opc.wrPartial then
    (linePut old (q.off % 64) q.fr.plen (lineGet q.fr.data (q.off % 64) q.fr.plen), [0])
  else (q.fr.data, [0])

/-- A write or atomic that needs the old value (R231). -/
def Blk.needsOld (b : Blk) (q : Req) : Bool :=
  isAtomic q.op || q.op == Opc.wrPartial || !(b.protecting q.line 2).isEmpty

/-- Ask the mirror partner for a line (R247), found uncorrectable at resident line `ra`. -/
def Blk.askMirror (b : Blk) (q : Req) (r ra : Nat) : Blk :=
  let b := (b.modReq q.id fun q => { q with wait := .repair }).mending ra
  let a := b.remoteLine r (q.line - b.get Reg.region_LOCAL_BASE r * 2 ^ 20)
  b.originate { fr := b.reqFrame Opc.rdVol a (b.get Reg.region_TENANT r) true, agent := .repair q.id r ra }

/-- One line is written for a request, with the protection updates request `id` waits for. -/
def Blk.commitTo (b : Blk) (q : Req) (id ra : Nat) (old new : Line) (final : Bool) : Blk :=
  (b.commitLine q.fr.tenant.toNat q.line ra new).protect id q.line old new final

/-- Commit a write or an atomic with the old value in hand. -/
def Blk.commit (b : Blk) (q : Req) (ra : Nat) (old : Line) : Blk :=
  let (new, outs) := q.newLine old
  let k := q.sigOff % 64
  if q.op = Opc.wrSignal ∧ q.twoLines = false then
    let final := linePut new k 8 (lineGet new k 8 + q.fr.sigAdd)
    let b := ((b.commitTo q q.id ra old new q.fr.final).commitLine q.fr.tenant.toNat q.line ra final).protect q.id q.line new final true
    (b.watch q.line final).finish q St.ok outs
  else
    let b := b.commitTo q q.id ra old new q.fr.final
    (b.watch q.line new).finish q (q.sigFail.getD St.ok) (if q.kind = .debug then [old] else outs)

/-- Serve a read with its line in hand: a caching read or near atomic is granted it (R156, R158). Where its source is a member no more a read is
refused, its entry freed (R146, R159), and an atomic runs far; where its entry has gone it takes its turn at the directory again. A FENCED part
sends no grant (R62). -/
def Blk.serveRead (b : Blk) (q : Req) (l : Line) : Blk :=
  let serve (b : Blk) : Blk := b.finish q St.ok (List.replicate (q.members.length + 1) l)
  if q.caching = false then serve b
  else if b.fenced then b.finish q St.fenced []
  else
    match b.fenOf q.fr.src.toNat, b.dirFind q.line with
    | some n, some i => serve (b.grantLine i n q.fr.tag.toNat (q.op != Opc.rdShared))
    | none, _ =>
      if q.near then b.modReq q.id fun q => { q with stage := .dir, wait := .ready, near := false }
      else ((b.count Reg.FEN_NONMEMBER_CNT).err Pg.fen 4).finish q St.unsupported []
    | _, none => b.modReq q.id fun q => { q with stage := .dir, wait := .ready }

/-- The old value of a write's line where it needs one (R231); none where the request waits for it or has ended. -/
def Blk.oldLine (b : Blk) (q : Req) (ra : Nat) : Option Line × Blk :=
  if b.needsOld q then
    match b.fetchLine q ra with
    | (.line l, b) => (some l, b)
    | (.fail s, b) => (none, b.finish q s [])
    | (.mirror r, b) => (none, b.askMirror q r ra)
  else if b.lostAt ra then (none, b.finish q St.uncorrectable [])
  else (some 0, b)

/-- A WR_SIGNAL at the store whose add is there too: both are made as one commit (R100, R205). -/
def Blk.commitPair (b : Blk) (q a : Req) (ra : Nat) : Blk :=
  match b.raOf a.line with
  | none => (b.modReq a.id fun a => { a with stage := .tier, wait := .ready }).modReq q.id fun q => { q with wait := .pair }
  | some ra2 =>
    match b.oldLine a ra2 with
    | (none, b) => b.modReq q.id fun q => { q with wait := .pair }
    | (some l2, b) =>
      match b.oldLine q ra with
      | (none, b) => b
      | (some l, b) =>
        let b := (b.touch (q.line / 1024)).touch (a.line / 1024)
        let (new, outs) := q.newLine l
        let (new2, _) := a.newLine l2
        let b := (b.commitTo q q.id ra l new q.fr.final).commitTo a q.id ra2 l2 new2 true
        ((b.watch q.line new).watch a.line new2).finish q St.ok outs

/-- The add of a WR_SIGNAL, while it is still to be made. -/
def Blk.addOf (b : Blk) (q : Req) : Option Req := if q.twoLines then b.home.reqs.find? (·.kind == .signal q.id) else none

/-- A write or atomic at the store, its monitors satisfied (R214). -/
def Blk.storeWrite (b : Blk) (q : Req) (ra : Nat) : Blk :=
  match b.addOf q with
  | some a => if a.wait = .signal then b.commitPair q a ra else b.modReq q.id fun q => { q with wait := .pair }
  | none =>
    match b.oldLine q ra with
    | (none, b) => b
    | (some l, b) => (b.touch (q.line / 1024)).commit q ra l

/-- The store stage of a request whose line it may have. -/
def Blk.storeStage (b : Blk) (q : Req) : Blk :=
  match b.raOf q.line with
  | none =>
    match q.data <|> q.low with
    | some l => b.serveRead q l
    | none => b.modReq q.id fun q => { q with stage := .tier, wait := .ready }
  | some ra =>
    if isRead q.op || q.near || q.arms then
      let b := b.touch (q.line / 1024)
      match q.data with
      | some l => b.serveRead q l
      | none =>
        match b.fetchLine q ra with
        | (.line l, b) => b.serveRead q l
        | (.fail s, b) => b.finish q s []
        | (.mirror r, b) => b.askMirror q r ra
    else
      match q.kind with
      | .signal _ => b.modReq q.id fun q => { q with wait := .signal }
      | _ =>
        match (if q.kind = .debug then none else b.watchedBy (q.fr.words q.off) q.fr.tenant.toNat) with
        | some t => (b.each q.frames fun b f => b.signalBlocked f t 1).finish q St.tenantBlocked []
        | none => b.storeWrite q ra

/-- The key-slot stage (R238). -/
def Blk.keyStage (b : Blk) (q : Req) : Blk :=
  if b.loaded q.fr.tenant.toNat then b.modReq q.id fun q => { q with stage := .store }
  else ((b.count Reg.CRYPT_NOKEY_CNT).err Pg.crypt 0).finish q St.rights []

/-- A request begins to wait on the lower tier, behind those already waiting (R264). -/
def Blk.waitLast (b : Blk) (id : Nat) (w : Wait) : Blk :=
  match b.req? id with
  | none => b
  | some q => { b with home := { b.home with reqs := b.home.reqs.filter (·.id ≠ id) ++ [{ q with wait := w, since := b.el }] } }

/-- A request refused TENANT_BLOCKED at the tier stage: a signal among them is reported (R215); which STAGE names that place is open. -/
def Blk.tierBlocked (b : Blk) (q : Req) : Blk :=
  match b.placeOf (q.off / 2 ^ 26) with
  | some d =>
    b.each (q.frames.filter fun f => q.kind == .request && b.signals f q.off) fun b f =>
      let (stage, b) := b.draw 2
      b.signalBlocked f (b.get Reg.place_TENANT d) stage
  | none => b

/-- The tier stage for a request. -/
def Blk.tierStep (b : Blk) (q : Req) : Blk :=
  match b.tierStage q.fr.tenant.toNat q.off (isRead q.op) q.tiered with
  | (.go, b) => b.modReq q.id fun q => { q with stage := .key, tiered := true }
  | (.wait, b) => b.waitLast q.id .fetch
  | (.fail s, b) => (if s = St.tenantBlocked then b.tierBlocked q else b).finish q s []
  | (.pass, b) =>
    let blk := q.off / 65536
    match b.placeOf (blk / 1024) with
    | none => b
    | some d =>
      if b.zeroFill blk d then b.modReq q.id fun q => { q with stage := .key, tiered := true, low := some 0 }
      else
        let (peat, addr, trl) := b.lowerOf d blk
        let b := b.askLower peat (if peat then addr else addr + q.off % 65536 / 4096 * 4096) trl (1, q.off / 4096) 4096
        b.waitLast q.id .pass

/-! ### Landing and the final hold (R98, R99, R186) -/

/-- A write or atomic of a stream with a lower sequence number has not landed. -/
def Blk.unlanded (b : Blk) (f : Frame) : Bool :=
  let before (g : Frame) : Bool :=
    !isRead g.op && g.src == f.src && g.dst == f.dst && g.tc == f.tc && decide (0 < subMod 24 f.seq.toNat g.seq.toNat) &&
    decide (subMod 24 f.seq.toNat g.seq.toNat < 2 ^ 23)
  b.home.inbox.any (fun g => isRequest g.op && before g) ||
  b.home.reqs.any fun q => q.kind == .request && q.wait != .acks && (q.frames.any before)

/-- An earlier operation of a request's stream keeps its line until it has landed (R184): one held under R99, or a WR_SIGNAL whose add is to
that line. -/
def Blk.lineHeld (b : Blk) (f : Frame) (line : Nat) : Bool :=
  !isRead f.op && b.home.reqs.any fun r => r.kind == .request && r.wait != .acks && !isRead r.op && r.fr.src == f.src && r.fr.dst == f.dst &&
    r.fr.tc == f.tc && decide (0 < subMod 24 f.seq.toNat r.fr.seq.toNat) && decide (subMod 24 f.seq.toNat r.fr.seq.toNat < 2 ^ 23) &&
    ((r.wait == .final && r.line == line) || (r.twoLines && r.sigOff / 64 == line))

/-- A request is held before Flock: a FINAL one until its stream's earlier writes and atomics have landed (R99), any write or atomic behind
those that its line must see first (R184). -/
def Blk.mustHold (b : Blk) (f : Frame) (line : Nat) : Bool := (f.final && b.unlanded f) || b.lineHeld f line

/-- A request past the hold of R99 goes to an aperture or to Flock. -/
def Blk.pastHold (b : Blk) (q : Req) : Blk :=
  let taken (x : Taken × Blk) : Blk :=
    let b := (x.2.dropReq q.id).leaveAll q
    b.respond q.fr x.1.opc x.1.status
  match b.runOf q.off with
  | .memory => b.passFlock q
  | .doorbells n => taken (b.takeDoorbell q.fr q.off n)
  | .xchg e => taken (b.takeXchg q.fr e q.off)
  | .fmw =>
    { (b.modReq q.id fun q => { q with wait := .acks, stage := .hold }) with
      home := { (b.modReq q.id fun q => { q with wait := .acks, stage := .hold }).home with busQ := b.home.busQ ++ [(q.id, q.fr, q.off)] } }

/-- The window stage and what follows; `again`: served again uncombined (R57), with its place. -/
def Blk.enterWindow (b : Blk) (f : Frame) (again : Option Nat := none) : Blk :=
  match b.windowStage f with
  | .refuse s w fence => b.windowRefuse f s w fence
  | .pass w off =>
    let b := b.winEnter w
    let held := b.mustHold f (off / 64)
    (b.addReq { id := 0, fr := f, win := some w, off, winWr := b.flag Reg.window_WR w, alone := again.isSome, place := again.getD 0,
                stage := .hold, wait := if held then .final else .ready, since := b.el }).2

/-! ### Driving -/

/-- A request at the store must wait for earlier ones of its line (R138). -/
def Blk.mustOrder (b : Blk) (q : Req) : Bool := !q.internal && !(b.earlier q).isEmpty

/-- A request can do something now. -/
def Blk.canGo (b : Blk) (q : Req) : Bool :=
  match q.wait with
  | .ready => true
  | .final => !q.fr.final && !b.mustHold q.fr q.line
  | .slot => !b.rsvFree.isEmpty
  | .turn => !b.mustWait q
  | .way => b.wayReady q
  | .dirty => !b.dirtyPending q.line
  | .order => !b.mustOrder q
  | .pair => (b.addOf q).all fun a => a.wait == .signal
  | _ => false

/-- One request does the next thing it can. -/
def Blk.advance (b : Blk) (q : Req) : Blk :=
  match q.wait with
  | .slot => b.retry q
  | .turn => if q.internal then b.backTurn q else b.dirStage q
  | .way => b.needEntry q
  | _ =>
    match q.stage with
    | .hold => b.pastHold q
    | .flock => b.passFlock q
    | .dir => b.dirStage q
    | .tier => b.tierStep { q with wait := .ready } |>.modReq q.id fun r => if r.wait = .dirty then { r with wait := .ready } else r
    | .key => b.keyStage q
    | .store =>
      if b.mustOrder q then b.modReq q.id fun q => { q with wait := .order }
      else b.storeStage q

/-- A drain recall that can be sent now, with its entry (R53, R56, R164): the requests before it are done and no grant is due. -/
def Blk.drainReady (b : Blk) (i place : Nat) : Bool :=
  let s := b.get Reg.dir_STATE i
  b.get Reg.dir_V i == 1 && (s == Ds.shared || s == Ds.owned) && b.get Reg.dir_ACKS_DUE i == 0 && !b.snooping i &&
  !b.dirtyPending (b.get Reg.dir_LINE i) &&
  !b.home.reqs.any fun r => r.line == b.get Reg.dir_LINE i && r.active && r.op != Opc.rdLine && (decide (r.place < place) || r.wait != .turn)

/-- Send a drain recall, or let it wait for the owner's tenure. -/
def Blk.sendDrain (b : Blk) (i : Nat) : Blk :=
  if b.get Reg.dir_OWNER_V i = 1 ∧ b.tenureOver i = false then
    (b.put Reg.dir_STATE Ds.tenureWait i).count Reg.FEN_TENURE_WAIT_CNT
  else
    let hs := b.holders i
    (b.put Reg.dir_STATE Ds.drainWait i).snoopAll hs i Opc.snpInv 2 none

/-- Recalls of entries that have gone are done with. -/
def Blk.trimDrains (b : Blk) : Blk :=
  { b with home := { b.home with drains := b.home.drains.map fun (d : Drain) => { d with recalls := d.recalls.filter fun i => b.get Reg.dir_V i == 1 } } }

/-- Drive waiting requests and recalls until nothing can move, for at most n moves. -/
def Blk.drive : Nat → Blk → Blk
  | 0, b => b
  | n + 1, b =>
    match b.home.again, b.home.reqs.find? b.canGo with
    | f :: fs, _ => drive n ({ b with home := { b.home with again := fs } }.enterWindow f.1 (some f.2))
    | [], some q => drive n (b.advance q)
    | [], none =>
      match (b.home.drains.flatMap fun d => d.recalls.map fun i => (i, d.place)).find? fun x => b.drainReady x.1 x.2 with
      | some x => drive n (b.sendDrain x.1)
      | none => b.trimDrains

/-- Moves enough for what is in the home. -/
def Blk.settleHome (b : Blk) : Blk :=
  let n := b.home.reqs.foldl (fun n q => n + 16 + 4 * q.members.length) 32 + 16 * b.home.again.length + 8 * (b.home.drains.foldl (fun n d => n + d.recalls.length) 0)
  b.drive n

/-! ### A request arrives (R26) -/

/-- A frame leaves the inbox, if it came that way. -/
def Blk.takeInbox (b : Blk) (f : Frame) : Blk := { b with home := { b.home with inbox := b.home.inbox.erase f } }

/-- The two frames are of one stream (R85). -/
def Frame.sameStream (f g : Frame) : Bool := f.src == g.src && f.dst == g.dst && f.tc == g.tc

/-- A frame comes to the home: the local delivery point delivered it, the first of its stream (R52); or a command brings it straight to that
point (log entry 66), as it may where a port that is up admits its source (R15, R69), it is addressed to the part (R25, R31, R127), and the
home takes frames of its class (R168). -/
def Blk.comesHome (b : Blk) (f : Frame) : Bool :=
  (b.home.inbox.find? fun g => g.sameStream f).any (· == f) ||
  (!(b.home.inbox.any fun g => g.sameStream f) && !f.mc && (f.dst.toNat == b.node || b.hostNode == some f.dst.toNat) &&
    ((List.range 24).any fun p => b.up p && b.admits p f) && (f.tc.toNat == Tc.coh || f.tc.toNat == Tc.rsp || !b.rsvFree.isEmpty))

/-- What is done with a frame that comes to the home, taken from the inbox; one that does not come there changes nothing. -/
def Blk.onArrival (b : Blk) (f : Frame) (act : Blk → Blk) : Blk := if b.comesHome f then act (b.takeInbox f) else b

/-- A request addressed to the part arrives at its home: frame checks, the fenced state, the window stage, and on. -/
def Blk.arrive (b : Blk) (f : Frame) : Blk :=
  b.onArrival f fun b =>
  match f.check with
  | some s => b.refuse f s
  | none => if b.fenced then b.refuse f St.fenced else (b.enterWindow f).settleHome

/-- A held FINAL frame proceeds once its stream's earlier writes and atomics have landed (R99). -/
def Blk.releaseFinal (b : Blk) (id : Nat) : Blk :=
  match b.req? id with
  | some q =>
    if q.wait = .final ∧ b.mustHold q.fr q.line = false then (b.modReq id fun q => { q with wait := .ready }).settleHome else b
  | none => b

end Sys2Proof.Machine
end

