-- ==== Sys2Proof/Machine/Coherence.lean ====
section
/-! DEFINITION. Coherence messages to the home and what its timers do (R147, R152 to R157, R162 to R168), and the commands of
the FEN and predictor pages (R173, R175, R176). -/
namespace Sys2Proof.Machine

/-! ### Frames of holders (R152 to R154) -/

/-- HELD_AFTER and DIRTY of an SNP_ACK (Table 5.5). -/
def Frame.held (f : Frame) : Nat := f.arg.toNat % 4
def Frame.dirty (f : Frame) : Bool := bitAt f.arg.toNat 2

/-- The frame has the form Table 5.4 gives its opcode, with no RSV bit set (R153). -/
def Frame.cohOk (f : Frame) : Bool :=
  !f.rsv5 && f.rsv14 == 0 && f.tailRsv == 0 &&
  (if f.op = Opc.snpAck then f.pl == f.dirty && f.arg.toNat < 8 && f.held != 3
   else if f.op = Opc.grantAck then !f.pl && f.arg == 0
   else if f.op = Opc.wbDirty then f.pl && f.arg == 0
   else false)

/-- A coherence frame is discarded as malformed (R153). -/
def Blk.cohDiscard (b : Blk) : Blk := (b.count Reg.FEN_COH_DISCARD_CNT).err Pg.fen 0

/-- The entries granted under an incoming line. -/
def Blk.entriesIn (b : Blk) (inLine : Nat) : List Nat :=
  (b.entriesWith Reg.dir_V).filter fun i => b.get Reg.dir_IN_LINE i == inLine

/-- The entry a coherence frame is about: of its incoming line and its tenant, and what `p` asks; one tenant's windows may give one incoming
line several local ones (R47). -/
def Blk.cohEntry (b : Blk) (f : Frame) (p : Nat → Bool) : Option Nat :=
  (b.entriesIn f.inLine).find? fun i => b.get Reg.dir_TENANT i == f.tenant.toNat && p i

/-- A coherence frame arrives: its class (Table 3.12, order 2), restart epoch (R152), form (R153), then what its opcode does. -/
def Blk.coherence (b : Blk) (f : Frame) (act : Blk → Blk) : Blk :=
  if f.tc ≠ 0 then b.arrive f
  else
  b.onArrival f fun b =>
  if f.restart.toNat ≠ b.restart then b.count Reg.WIN_RESTART_DISCARD_CNT
  else if f.cohOk then act b else b.cohDiscard

/-- A response-class frame goes to the agent that asked; a response opcode in another class is no request (R90). -/
def Blk.responseAs (b : Blk) (opc : Nat) (f : Frame) (act : Blk → Frame → Blk) : Blk :=
  let f : Frame := { f with opc := .ofNat 8 opc }
  if f.tc = 2 then b.onArrival f fun b => act b f else b.arrive f

/-- Some command of the table brings frames of this opcode. -/
def Frame.hasRow (f : Frame) : Bool := isRequest f.op || isResponse f.op || [Opc.snpAck, Opc.grantAck, Opc.wbDirty].contains f.op

/-- Frames delivered with an opcode that no command brings are answered or discarded at once (R90, R153). -/
def Blk.strays (b : Blk) : Blk := b.each (b.home.inbox.filter fun f => !f.hasRow) fun b f =>
  if isCoherence f.op && f.tc == 0 then b.coherence f id else b.arrive f

/-- The snoop outstanding to a fen number for an entry. -/
def Blk.snoopTo (b : Blk) (n i : Nat) : Option Snoop := b.home.snoops.find? fun s => s.fen == n && s.idx == i

/-- The snoop outstanding to a fen number for an entry under a TAG (Table 5.4). -/
def Blk.snoopAs (b : Blk) (n tag i : Nat) : Option Snoop := b.home.snoops.find? fun s => s.fen == n && s.idx == i && s.tag == tag

/-- SNP_ACK (R153, R154, R157). A FENCED part discards it (R62). -/
def Blk.snpAck (b : Blk) (f : Frame) : Blk :=
  b.coherence f fun b =>
    if b.fenced then b
    else
      match (b.fenOf f.src.toNat).bind fun n => (b.cohEntry f fun i => (b.snoopAs n f.tag.toNat i).isSome).bind (b.snoopAs n f.tag.toNat) with
      | some s =>
        if (s.opc = Opc.snpInv ∧ f.held ≠ 0) ∨ (s.opc = Opc.snpShr ∧ f.held = 2) then b.cohDiscard
        else (b.answerSnoop s (if f.dirty then some f.data else none) f.held).settleHome
      | none => b.lateCoh

/-- A grant is acknowledged, or taken as acknowledged (R156, R163, R164). -/
def Blk.grantDone (b : Blk) (g : Grant) : Blk :=
  let i := g.idx
  let b := { b with home := { b.home with grants := b.home.grants.erase g } }
  let b := b.put Reg.dir_ACKS_DUE (b.get Reg.dir_ACKS_DUE i - 1) i
  if g.excl then
    let b := b.put Reg.dir_ACK_TIME (b.now % 2 ^ 32) i
    if b.get Reg.dir_STATE i = Ds.grantWait then b.put Reg.dir_STATE Ds.owned i else b
  else b

/-- The grant outstanding to a fen number for an entry under a TAG. -/
def Blk.grantTo (b : Blk) (n tag i : Nat) : Option Grant := b.home.grants.find? fun g => g.fen == n && g.idx == i && g.tag == tag

/-- GRANT_ACK. A FENCED part discards it (R62). -/
def Blk.grantAck (b : Blk) (f : Frame) : Blk :=
  b.coherence f fun b =>
    if b.fenced then b
    else
      match (b.fenOf f.src.toNat).bind fun n => (b.cohEntry f fun i => (b.grantTo n f.tag.toNat i).isSome).bind (b.grantTo n f.tag.toNat) with
      | some g => (b.grantDone g).settleHome
      | none => b.lateCoh

/-- The entry whose owner sent a coherence frame. -/
def Blk.ownEntry (b : Blk) (f : Frame) : Option (Nat × Nat) :=
  (b.fenOf f.src.toNat).bind fun n =>
    (b.cohEntry f fun i => b.get Reg.dir_OWNER_V i == 1 && b.get Reg.dir_OWNER i == n).map fun i => (n, i)

/-- WB_DIRTY (R154, R155): it takes its turn at its line and is written through the tier and store stages; where a snoop to the owner is
outstanding it serves as its answer (Table 5.8). A FENCED part writes nothing: the data is lost as in a failed write-back (R62). -/
def Blk.wbDirty (b : Blk) (f : Frame) : Blk :=
  b.coherence f fun b =>
    match b.ownEntry f with
    | some (n, i) =>
      if b.fenced then (((b.err Pg.fen 6).ownerGone i).wbAck f St.fenced).settleHome
      else
        match b.snoopTo n i with
        | some s => ((b.dropHolder i n).answerSnoop s (some f.data) 0 (some f)).settleHome
        | none => (b.queueBack i f).settleHome
    | none =>
      if b.fenced then b.wbAck f St.fenced
      else if b.entriesIn f.inLine = [] ∨ (b.cohEntry f fun _ => true).isSome = true then b.lateCoh.wbAck f St.ok
      else b.lateCoh

/-! ### Timers -/

/-- SNOOP_TIMEOUT_US as a span. -/
def Blk.snoopTimeoutSpan (b : Blk) : Nat := us (b.get Reg.FEN_CFG_SNOOP_TIMEOUT_US)

/-- A snoop to a fen number about a local line goes unanswered: sent again once, then its holder is removed (R162). A FENCED
part sends none and changes nothing (R62). -/
def Blk.snoopTimeout (b : Blk) (n line : Nat) : Blk :=
  match b.home.snoops.find? fun s => s.fen == n && b.get Reg.dir_LINE s.idx == line with
  | none => b
  | some s =>
    if b.fenced || !b.past s.sent b.snoopTimeoutSpan then b
    else if s.resent = false then
      let b := { b with home := { b.home with snoops := b.home.snoops.map fun (t : Snoop) =>
        if t = s then { t with sent := b.el, resent := true } else t } }
      (b.count Reg.FEN_SNOOP_CNT).answer (b.cohFrame n s.idx s.opc s.tag s.reason)
    else
      let node := b.get Reg.member_NODE n
      let b := (b.count Reg.FEN_SNOOP_TIMEOUT_CNT).errInfo Pg.fen 1 node
      let b := if b.get Reg.dir_OWNER_V s.idx = 1 ∧ b.get Reg.dir_OWNER s.idx = n then b.errInfo Pg.fen 2 node else b
      ((b.dropHolder s.idx n).answerSnoop s none 0).settleHome

/-- A GRANT_ACK is late: taken as received (R163). -/
def Blk.grantTimeout (b : Blk) (n line : Nat) : Blk :=
  match b.home.grants.find? fun g => g.fen == n && b.get Reg.dir_LINE g.idx == line with
  | none => b
  | some g =>
    if b.past g.sent b.snoopTimeoutSpan then
      (((b.grantDone g).count Reg.FEN_SNOOP_TIMEOUT_CNT).err Pg.fen 1).settleHome
    else b

/-- An owner's minimum tenure ends: the delayed recall is sent (R164). -/
def Blk.tenureEnd (b : Blk) (line : Nat) : Blk :=
  match b.dirFind line with
  | none => b
  | some i =>
    if b.get Reg.dir_STATE i = Ds.tenureWait ∧ b.tenureOver i = true then
      match b.home.reqs.find? fun q => q.line == line && q.wait == .tenure with
      | some q => (b.dirServe q).settleHome
      | none => (b.sendDrain i).settleHome
    else b

/-- A reservation slot unmatched within its hold is released (R167). -/
def Blk.slotExpire (b : Blk) (slot : Nat) : Blk :=
  match b.home.slots.find? (·.slot == slot) with
  | none => b
  | some s =>
    if b.past s.since (us s.hold) then
      let b := { b with home := { b.home with slots := b.home.slots.erase s } }
      ((b.rsvOcc.count Reg.FEN_RSV_EXPIRED_CNT).err Pg.fen 5).settleHome
    else b

/-! ### FEN_CMD (R175, R176) -/

def fenCmd : CmdReg := ⟨Reg.FEN_CMD_STATUS_DONE, Reg.FEN_CMD_STATUS_CODE, Pg.fen⟩

/-- A fen number is cleared from one entry; an entry left with no holder is freed unless a request works on it. -/
def Blk.purgeEntry (b : Blk) (n i : Nat) : Blk :=
  if bitAt (b.get Reg.dir_SHARERS i) n then
    let b := if b.get Reg.dir_OWNER_V i = 1 ∧ b.get Reg.dir_OWNER i = n then
        (b.count Reg.FEN_PURGE_OWNED_CNT).err Pg.fen 7
      else b
    let b := b.dropHolder i n
    let s := b.get Reg.dir_STATE i
    if b.get Reg.dir_SHARERS i = 0 ∧ (s = Ds.shared ∨ s = Ds.owned ∨ s = Ds.grantWait ∨ s = Ds.tenureWait) then b.ownerGone i else b
  else b

/-- `purge`: a fen number is cleared from the member table and every entry; its snoops count as answered `none` (R175). -/
def Blk.fenPurge (b : Blk) (n : Nat) : Blk :=
  b.cmd fenCmd none fun b =>
    let b := b.clearEntry .t_member n
    let b := b.each (b.entriesWith Reg.dir_V) fun b i => b.purgeEntry n i
    let b := b.each (b.home.snoops.filter (·.fen == n)) fun b s => b.answerSnoop s none 0
    b.settleHome.cmdEnd fenCmd ok

/-- `member_set` (R176). -/
def Blk.memberSet (b : Blk) (n node : Nat) (near : Bool) : Blk :=
  b.cmd fenCmd none fun b =>
    if b.get Reg.member_V n = 1 ∨ (b.fenOf node).isSome = true then b.cmdEnd fenCmd badState
    else (b.puts n [(Reg.member_V, 1), (Reg.member_NEAR_OK, b2n near), (Reg.member_NODE, node)]).cmdEnd fenCmd ok

/-- A write to PRED_CFG (Table 5.12): a field given a value it does not take keeps its own; a change of GRAIN_LOG2 or MODE
clears the predictor. -/
def Blk.predCfg (b : Blk) (v : Nat) : Blk :=
  let mode := b.get Reg.PRED_CFG_MODE
  let grain := b.get Reg.PRED_CFG_GRAIN_LOG2
  let b := if bits v 31 30 = 3 then b else b.put Reg.PRED_CFG_MODE (bits v 31 30)
  let b := if 12 ≤ bits v 29 25 ∧ bits v 29 25 ≤ 26 then b.put Reg.PRED_CFG_GRAIN_LOG2 (bits v 29 25) else b
  let b := if bits v 11 8 < bits v 15 12 then (b.put Reg.PRED_CFG_FAR_ON (bits v 15 12)).put Reg.PRED_CFG_FAR_OFF (bits v 11 8) else b
  let b := b.put Reg.PRED_CFG_INC (bits v 7 4)
  if b.get Reg.PRED_CFG_MODE = mode ∧ b.get Reg.PRED_CFG_GRAIN_LOG2 = grain then b else b.clearSpace .t_pred

end Sys2Proof.Machine
end

