-- ==== Sys2Proof/Machine/Windows.lean ====
section
/-! DEFINITION. Window commands, drains and revocation (R46 to R59), fencing and the restart epoch (R59 to R64). -/
namespace Sys2Proof.Machine

def winCmd : CmdReg := ⟨Reg.WIN_CMD_STATUS_DONE, Reg.WIN_CMD_STATUS_CODE, Pg.win⟩

/-! Window states (Table 2.6). -/
namespace Ws
def free : Nat := 0
def active : Nat := 1
def draining : Nat := 2
def revoked : Nat := 3
end Ws

/-- A window command finishes. -/
def Blk.winEnd (b : Blk) (code : Nat) : Blk := b.cmdEndRej winCmd 0 code

/-- Run a window command. -/
def Blk.winRun (b : Blk) (run : Blk → Blk) : Blk := b.cmd winCmd (some 0) run

/-- A block bit of INT_STATUS: WIN.DRAIN_DONE is bit 1 (Table 19.3). -/
def Blk.drainInt (b : Blk) : Blk := b.put Reg.INT_STATUS_BLOCK (b.get Reg.INT_STATUS_BLOCK Pg.win ||| 1) Pg.win

/-- Two local runs of windows overlap. -/
def Blk.runsOverlap (b : Blk) (v w : Nat) : Bool :=
  b.get Reg.window_LOCAL_BASE v < b.get Reg.window_LOCAL_BASE w + b.get Reg.window_SIZE w &&
  b.get Reg.window_LOCAL_BASE w < b.get Reg.window_LOCAL_BASE v + b.get Reg.window_SIZE v

/-- The checks of an install (R47). -/
def Blk.installCode (b : Blk) (w : Nat) : Nat :=
  let size := b.get Reg.window_SIZE w
  if size = 0 ∨ 2 ^ 21 < b.get Reg.window_IN_BASE w + size ∨ 2 ^ 21 < b.get Reg.window_LOCAL_BASE w + size ∨
      b.get Reg.window_SRC_HI w < b.get Reg.window_SRC_LO w then badRange
  else if (b.entriesWith Reg.window_STATE).any fun v =>
      b.get Reg.window_TENANT v != b.get Reg.window_TENANT w && b.runsOverlap v w then overlap
  else ok

/-- `install` (R47). -/
def Blk.winInstall (b : Blk) (w : Nat) : Blk :=
  b.winRun fun b =>
    if b.get Reg.window_STATE w ≠ Ws.free then b.winEnd badState
    else if b.installCode w ≠ ok then b.winEnd (b.installCode w)
    else ((b.put Reg.window_STATE Ws.active w).put Reg.window_INFLIGHT 0 w).winEnd ok

/-- The directory entries in a window's local run (R53). -/
def Blk.runEntries (b : Blk) (w : Nat) : List Nat :=
  (b.entriesWith Reg.dir_V).filter fun i =>
    b.get Reg.window_LOCAL_BASE w ≤ b.get Reg.dir_LINE i / 2 ^ 20 &&
    b.get Reg.dir_LINE i / 2 ^ 20 < b.get Reg.window_LOCAL_BASE w + b.get Reg.window_SIZE w

/-- The redirect a command sets (Table 2.7). -/
def Blk.setRedirect (b : Blk) (w : Nat) : Blk :=
  if b.flag Reg.WIN_CMD_ARG_SET_REDIRECT then
    (b.put Reg.window_REDIRECT_V 1 w).put Reg.window_REDIRECT_PART (b.get Reg.WIN_CMD_ARG_REDIRECT_PART) w
  else b

/-- A drain of a window is recorded in place of one in progress. -/
def Blk.setDrain (b : Blk) (d : Drain) : Blk :=
  { b with home := { b.home with drains := b.home.drains.filter (·.win ≠ d.win) ++ [d] } }

/-- The drain of a window. -/
def Blk.drainOf (b : Blk) (w : Nat) : Option Drain := b.home.drains.find? (·.win == w)

/-- `drain` (R50, R53). Here and in the other window commands a window in a wrong state is told before a wrong argument, and in an install a
wrong range before an overlap (log entry 81). -/
def Blk.winDrain (b : Blk) (w : Nat) : Blk :=
  b.winRun fun b =>
    let len := b.get Reg.WIN_CMD_ARG_DEADLINE_US
    if b.get Reg.window_STATE w ≠ Ws.active then b.winEnd badState
    else if len = 0 then b.winEnd badRange
    else
      let b := (b.put Reg.window_STATE Ws.draining w).put Reg.window_DRAIN_DEADLINE len w
      let b := if b.flag Reg.WIN_CMD_ARG_SET_EPOCH then b.put Reg.window_EPOCH (b.get Reg.WIN_CMD_ARG_EPOCH) w else b
      let b := (b.setRedirect w).setDrain { win := w, start := b.el, len := some len, recalls := b.runEntries w, place := b.home.nextPlace }
      b.settleHome.winEnd ok

/-- A request of a window that is not yet committed (R54, R55). -/
def Req.open? (q : Req) : Bool := (q.kind == .request || q.arms) && q.wait != .acks

/-- Requests that a window accepted and that are not committed complete REVOKED; members of a leader so ended are served again
through their own windows (R55, R57, R141). -/
def Blk.revokeRequests (b : Blk) (w : Nat) : Blk :=
  let b := b.each (b.home.reqs.filter fun q => q.open? && q.members.any (·.win == w)) fun b q =>
    let (out, stay) := q.members.partition (·.win == w)
    let b := b.modReq q.id fun q => { q with members := stay }
    b.each out fun b m => ((b.winLeave m.win).count Reg.WIN_REVOKED_CNT).refuse m.fr St.revoked
  b.each (b.home.reqs.filter fun q => q.open? && q.win == some w) fun b q =>
    match b.req? q.id with
    | none => b
    | some q =>
      let b := b.countN Reg.FLOCK_RESERVE_CNT q.members.length
      let b := (b.serveAgain q.members).modReq q.id fun q => { q with members := [] }
      (b.count Reg.WIN_REVOKED_CNT).finish { q with members := [] } St.revoked []

/-- A window accepted requests that are not committed. -/
def Blk.uncommitted (b : Blk) (w : Nat) : Bool :=
  b.home.reqs.any fun q => q.open? && (q.win == some w || q.members.any (·.win == w))

/-- `revoke_now` (R50). -/
def Blk.winRevoke (b : Blk) (w : Nat) : Blk :=
  b.winRun fun b =>
    let s := b.get Reg.window_STATE w
    if s ≠ Ws.active ∧ s ≠ Ws.draining then b.winEnd badState
    else
      let d : Drain := (b.drainOf w).getD { win := w, start := b.el, len := none, recalls := b.runEntries w, place := b.home.nextPlace }
      let b := ((b.put Reg.window_STATE Ws.draining w).put Reg.window_DRAIN_DEADLINE 0 w).setRedirect w
      ((b.setDrain { d with start := b.el, len := none }).revokeRequests w).settleHome

/-- The recalls of a window's drain have ended, dirty data written. -/
def Blk.recallsDone (b : Blk) (d : Drain) : Bool :=
  d.recalls.isEmpty && !b.home.reqs.any fun q => q.internal && q.active &&
    b.get Reg.window_LOCAL_BASE d.win ≤ q.line / 2 ^ 20 && q.line / 2 ^ 20 < b.get Reg.window_LOCAL_BASE d.win + b.get Reg.window_SIZE d.win

/-- A window's drain is over: it is `revoked`. -/
def Blk.drainEnd (b : Blk) (w : Nat) : Blk :=
  let b := { b with home := { b.home with drains := b.home.drains.filter (·.win ≠ w) } }
  ((b.put Reg.window_STATE Ws.revoked w).put Reg.window_DRAIN_DEADLINE 0 w).drainInt

/-- The last recall of a `revoke_now` has ended (R50). -/
def Blk.revokeDone (b : Blk) (w : Nat) : Blk :=
  match b.drainOf w with
  | none => b
  | some d => if d.len.isNone && b.recallsDone d then (b.drainEnd w).winEnd ok else b

/-- A drain is done: INFLIGHT is zero and its recalls have ended (R49). -/
def Blk.drainDone (b : Blk) (w : Nat) : Blk :=
  match b.drainOf w with
  | none => b
  | some d => if d.len.isSome && b.recallsDone d && b.get Reg.window_INFLIGHT w == 0 then b.drainEnd w else b

/-- A recall is dropped (R56): every holder goes, and the entry with them. -/
def Blk.dropRecall (b : Blk) (i : Nat) : Blk :=
  let b := if b.get Reg.dir_OWNER_V i = 1 then b.err Pg.win 2 else b
  let b := b.each (b.holders i) fun b n => b.dropHolder i n
  let ss := b.home.snoops.filter (·.idx == i)
  let b := b.each ss fun b s => b.answerSnoop s none 0
  let s := b.get Reg.dir_STATE i
  if b.get Reg.dir_V i = 1 ∧ (s = Ds.shared ∨ s = Ds.owned ∨ s = Ds.grantWait ∨ s = Ds.tenureWait ∨ s = Ds.drainWait) then b.ownerGone i else b

/-- A drain's deadline passes (R55, R56). -/
def Blk.drainDeadline (b : Blk) (w : Nat) : Blk :=
  match b.drainOf w with
  | none => b
  | some d =>
    match d.len with
    | none => b
    | some len =>
      if b.past d.start (us len) then
        let b := if b.uncommitted w then b.err Pg.win 1 else b
        let b := b.revokeRequests w
        let b := b.each d.recalls fun b i => b.dropRecall i
        (b.drainEnd w).settleHome
      else b

/-- `bump` (R48). -/
def Blk.winBump (b : Blk) (w : Nat) : Blk :=
  b.winRun fun b =>
    let s := b.get Reg.window_STATE w
    if s ≠ Ws.active ∧ s ≠ Ws.draining then b.winEnd badState
    else if notOlder (b.get Reg.WIN_CMD_ARG_EPOCH) (b.get Reg.window_EPOCH w) = false then b.winEnd badRange
    else (b.put Reg.window_EPOCH (b.get Reg.WIN_CMD_ARG_EPOCH) w).winEnd ok

/-- `bump_src` (R59). -/
def Blk.winBumpSrc (b : Blk) (node : Nat) : Blk :=
  b.winRun fun b =>
    if 0x3F < node then b.winEnd badRange
    else
      let b := b.put Reg.WIN_PEER_DEAD_DEAD (b.get Reg.WIN_PEER_DEAD_DEAD ||| 2 ^ node)
      let mine := (b.entriesWith Reg.window_STATE).filter fun w =>
        b.get Reg.window_SRC_LO w ≤ node && node ≤ b.get Reg.window_SRC_HI w
      (b.each mine fun b w =>
        let e := b.get Reg.tenant_ctx_COMP_EPOCH (b.get Reg.window_TENANT w)
        if notOlder e (b.get Reg.window_EPOCH w) then b.put Reg.window_EPOCH e w else b).winEnd ok

/-- `free` (R46). -/
def Blk.winFree (b : Blk) (w : Nat) : Blk :=
  b.winRun fun b =>
    if b.get Reg.window_STATE w ≠ Ws.revoked ∨ b.get Reg.window_INFLIGHT w ≠ 0 then b.winEnd badState
    else (b.clearEntry .t_window w).winEnd ok

/-- A write to WIN_RESTART_EPOCH (R64, R85): the part's streams start at SEQ 0. -/
def Blk.restartWrite (b : Blk) (v : Nat) : Blk :=
  if b.restart ≠ 0 then b.err Pg.win 4
  else
    let b := b.put Reg.WIN_RESTART_EPOCH_RESTART_EPOCH v
    { b with orig := { b.orig with seqs := [] } }

end Sys2Proof.Machine
end

