-- ==== Sys2Proof/Machine/TierCmd.lean ====
section
/-! DEFINITION. Placement commands (R255 to R261), the ends of fetches, pass-through reads and write-downs (R264 to R270,
R274), eviction and heat (R266, R273). -/
namespace Sys2Proof.Machine

def tierCmd : CmdReg := ⟨Reg.TIER_CMD_STATUS_DONE, Reg.TIER_CMD_STATUS_CODE, Pg.tier⟩

/-- TIER_CMD codes of its own (Table 8.11). -/
def downFail : Nat := 8
def overPin : Nat := 9
def noSpace : Nat := 0xA

/-- A placement command finishes. -/
def Blk.tierEnd (b : Blk) (code : Nat) : Blk := ({ b with tier := { b.tier with job := none } }).cmdEndRej tierCmd 7 code

/-! ### The checks of `place` (R255) -/

/-- Two runs [a, a + n) and [c, c + m) meet. -/
def meet (a n c m : Nat) : Bool := decide (a < c + m) && decide (c < a + n)

/-- The lower-tier ranges of a descriptor (R269, R272). -/
def Blk.lowerRuns (b : Blk) (d : Nat) : List (Nat × Nat) :=
  let size := b.get Reg.place_SIZE d
  let lo := b.get Reg.place_LOWER_BASE d
  match b.get Reg.place_CLASS d with
  | 1 => [(lo, size * 2 ^ 26), (b.get Reg.place_TRL_BASE d, size * 2 ^ 17)]
  | 2 => [(lo, size * 1024)]
  | _ => []

/-- `bad_range` of R255. -/
def Blk.placeBad (b : Blk) (d : Nat) : Bool :=
  let size := b.get Reg.place_SIZE d
  let lo := b.get Reg.place_LOWER_BASE d
  let tr := b.get Reg.place_TRL_BASE d
  decide (2 ^ 21 < b.get Reg.place_LOCAL_BASE d + size) || size == 0 ||
  (match b.get Reg.place_CLASS d with
   | 0 => lo != 0 || tr != 0 || b.flag Reg.place_HIWYN d
   | 1 => lo % 2 ^ 16 != 0 || tr % 128 != 0
   | 2 => tr != 0 || decide (b.get Reg.PEAT_LOGICAL_BLOCKS_COUNT < lo + size * 1024)
   | _ => true)

/-- `overlap` of R255. -/
def Blk.placeOverlap (b : Blk) (d : Nat) : Bool :=
  let mine := b.lowerRuns d
  (match mine with
   | [x, y] => meet x.1 x.2 y.1 y.2
   | _ => false) ||
  (b.entriesWith Reg.place_STATE).any fun o =>
    meet (b.get Reg.place_LOCAL_BASE o) (b.get Reg.place_SIZE o) (b.get Reg.place_LOCAL_BASE d) (b.get Reg.place_SIZE d) ||
    (b.get Reg.place_CLASS o == b.get Reg.place_CLASS d &&
     mine.any fun x => (b.lowerRuns o).any fun y => meet x.1 x.2 y.1 y.2)

/-- Frames a descriptor pins for its blocks. -/
def Blk.pinsOf (b : Blk) (d : Nat) : Nat := if b.get Reg.place_CLASS d = Cls.resident then b.get Reg.place_SIZE d * 1024 else 0

/-- Frames of a descriptor's block map (R259). -/
def Blk.mapFramesOf (b : Blk) (d : Nat) : Nat := (b.get Reg.place_SIZE d + 7) / 8

/-- The frames that can still become free (R260). -/
def Blk.couldFree (b : Blk) : Nat :=
  b.get Reg.TIER_POOL_FREE_FRAMES + ((b.entriesWith Reg.map_BSTATE).filter fun k =>
    let s := b.get Reg.map_BSTATE k
    s == Bst.resident || s == Bst.writingDown || (s == Bst.fetching && (b.tier.fetches.any fun x => x.block == k && x.frame.isSome))).length

/-- The code of a `place` before it takes frames: `ok` where it may go on. -/
def Blk.placeCode (b : Blk) (d : Nat) : Nat :=
  let t := b.get Reg.place_TENANT d
  let pins := b.pinsOf d
  if b.get Reg.place_STATE d ≠ 0 then badState
  else if b.placeBad d then badRange
  else if b.placeOverlap d then overlap
  else if b.get Reg.place_CLASS d = Cls.resident ∧ b.loaded t = false then badState
  else if pins ≠ 0 ∧ t ≠ 0 ∧ b.get Reg.pin_LIMIT t < b.get Reg.pin_USED t + pins then overPin
  else if b.get Reg.TIER_POOL_FREE_FRAMES + b.evictable.length < pins + b.mapFramesOf d then noSpace
  else ok

/-! ### Frames for a `place` (R260, R261) -/

/-- A `place` has all its frames, map frames first: the map is set, blocks are pinned and zeroed. -/
def Blk.placedIn (b : Blk) (d : Nat) (frames : List Nat) : Blk :=
  let m := b.mapFramesOf d
  let t := b.get Reg.place_TENANT d
  let (lo, n) := b.placeBlocks d
  let b := { b with tier := { b.tier with maps := b.tier.maps ++ (frames.take m).map fun f => (d, f) } }
  let b :=
    if b.get Reg.place_CLASS d = Cls.resident then
      let b := b.each ((frames.drop m).zip ((List.range n).map (lo + ·))) fun b x =>
        ((b.put Reg.map_BSTATE Bst.pinned x.2).put Reg.map_FRAME x.1 x.2).fillFrame x.1 { key := some (b.key t), block := x.2 }
      b.put Reg.pin_USED (b.get Reg.pin_USED t + n) t
    else if b.flag Reg.place_FRESH d then b
    else b.each ((List.range n).map (lo + ·)) fun b k => b.put Reg.map_STORED 1 k
  (b.pinFrames frames.length).put Reg.place_STATE 1 d

/-- An accepted `place` has its frames. -/
def Blk.placed (b : Blk) (d : Nat) (frames : List Nat) : Blk := (b.placedIn d frames).tierEnd ok

/-- A waiting `place` takes free frames while no fetch waits for one (R266); it ends once it has them all, or once too few can
become free (R260). -/
def Blk.feedPlace : Nat → Blk → Blk
  | 0, b => b
  | n + 1, b =>
    match b.tier.job with
    | some (.place d got) =>
      let m := b.mapFramesOf d
      let need := b.pinsOf d + m
      if need ≤ got.length then b.placed d got
      else if b.tier.fetches.any (fun x => x.frame.isNone && !x.pass) then b
      else if b.couldFree < need - got.length then (b.each got fun b f => b.dropFrame f).tierEnd noSpace
      else
        match b.freeFrame with
        | (some f, b) =>
          let k := got.length
          let t := b.get Reg.place_TENANT d
          let (blk, b) := if k < m then b.draw (2 ^ 31) else (b.get Reg.place_LOCAL_BASE d * 1024 + (k - m), b)
          let b := b.useFrame f (if k < m then 0 else t) blk (k < m || t == 0)
          feedPlace n { b with tier := { b.tier with job := some (.place d (got ++ [f])) } }
        | (none, b) => b
    | _ => b

/-- `place` (R255). -/
def Blk.tierPlace (b : Blk) (d : Nat) : Blk :=
  b.cmd tierCmd (some 7) fun b =>
    if b.placeCode d ≠ ok then b.tierEnd (b.placeCode d)
    else Blk.feedPlace (b.pinsOf d + b.mapFramesOf d + 1) { b with tier := { b.tier with job := some (.place d []) } }

/-! ### `retire` and `flush` (R257, R258) -/

/-- A block lies in a descriptor. -/
def Blk.inPlace (b : Blk) (d blk : Nat) : Bool :=
  b.get Reg.place_LOCAL_BASE d * 1024 ≤ blk && blk < (b.get Reg.place_LOCAL_BASE d + b.get Reg.place_SIZE d) * 1024

/-- A request is past the tier stage, or waits on a fetch that has its frame. -/
def Req.pastTier (q : Req) : Bool := q.tiered || q.stage == .key || q.stage == .store || q.wait == .fetch || q.wait == .pass

/-- `retire`: fetches still waiting for a frame are dropped with their requests (R257). -/
def Blk.tierRetire (b : Blk) (d : Nat) : Blk :=
  b.cmd tierCmd (some 7) fun b =>
    if b.get Reg.place_STATE d ≠ 1 then b.tierEnd badState
    else
      let b := b.put Reg.place_STATE 2 d
      let gone := (b.tier.fetches.filter fun x => x.desc == d && x.frame.isNone && !x.pass).map (·.block)
      let b := { b with tier := { b.tier with job := some (.retire d []), fetches := b.tier.fetches.filter fun (x : Fetch) => !(gone.contains x.block && !x.pass) } }
      let b := b.each gone fun b k => b.put Reg.map_BSTATE Bst.absent k
      b.each (b.home.reqs.filter fun q => q.wait == .fetch && gone.contains (q.off / 65536)) fun b q => b.unplaced.finish q St.unmapped []

/-- A retired descriptor is freed with its frames, map and pins. -/
def Blk.placeFree (b : Blk) (d : Nat) : Blk :=
  let t := b.get Reg.place_TENANT d
  let (lo, n) := b.placeBlocks d
  let pins := b.pinsOf d
  let frames := (b.blocksWith d Reg.map_BSTATE).map fun k => b.get Reg.map_FRAME k
  let maps := (b.tier.maps.filter (·.1 == d)).map (·.2)
  let b := b.each (frames ++ maps) fun b f => b.dropFrame f
  let b := { b with tier := { b.tier with maps := b.tier.maps.filter (·.1 ≠ d) },
                    fs := b.fs.filter fun e => !(e.1 / 2 ^ 60 == Space.t_map.code && lo ≤ e.1 / 2 ^ 16 % 2 ^ 44 && e.1 / 2 ^ 16 % 2 ^ 44 < lo + n) }
  let b := b.unpinFrames (pins + maps.length)
  let b := if pins = 0 then b else b.put Reg.pin_USED (b.get Reg.pin_USED t - pins) t
  b.put Reg.place_STATE 0 d

/-- `retire` goes on: once no request is past the tier stage and no fetch or write-down of the descriptor runs, dirty blocks
that have not failed go down; with none left the descriptor is freed. -/
def Blk.retireGo (b : Blk) : Blk :=
  match b.tier.job with
  | some (.retire d failed) =>
    if b.home.reqs.any (fun q => q.pastTier && b.inPlace d (q.off / 65536)) || b.tier.fetches.any (·.desc == d) ||
        b.tier.downs.any (·.desc == d) then b
    else
      let dirty := (b.blocksWith d Reg.map_DIRTY).filter fun k => !failed.contains k && b.get Reg.map_BSTATE k == Bst.resident
      if dirty ≠ [] then b.each dirty fun b k => b.startDown k 2
      else
        let b := b.placeFree d
        if failed = [] then b.tierEnd ok
        else ((b.countN Reg.TIER_DOWN_LOST_CNT failed.length).err Pg.tier 4).tierEnd downFail
  | _ => b

/-- `flush`: every block dirty now goes down, and a write-down in progress is waited for (R258). -/
def Blk.tierFlush (b : Blk) (d : Nat) : Blk :=
  b.cmd tierCmd (some 7) fun b =>
    if b.get Reg.place_STATE d ≠ 1 then b.tierEnd badState
    else
      let going := (b.tier.downs.filter (·.desc == d)).map (·.block)
      let dirty := b.blocksWith d Reg.map_DIRTY
      let now := dirty.filter fun k => b.get Reg.map_BSTATE k == Bst.resident
      if now ++ going = [] then b.tierEnd ok
      else
        -- a block dirty while it is being written down goes down once more
        let b := { b with tier := { b.tier with job := some (.flush d (now ++ going) (going.filter dirty.contains) false) } }
        b.each now fun b k => b.startDown k 1

/-! ### Ends of write-downs (R266, R268) -/

/-- The write-down of a block ended for `flush`: it is over, unless the block is to go down once more. -/
def Blk.flushed (b : Blk) (blk why : Nat) (good : Bool) : Blk :=
  match b.tier.job with
  | some (.flush d left again failed) =>
    if !left.contains blk then b
    else if b.get Reg.map_BSTATE blk = Bst.resident ∧ (again.contains blk ∨ (good = false ∧ why ≠ 1)) then
      ({ b with tier := { b.tier with job := some (.flush d left (again.filter (· ≠ blk)) failed) } }).startDown blk 1
    else
      let left := left.filter (· ≠ blk)
      let failed := failed || !good
      if left = [] then b.tierEnd (if failed then downFail else ok)
      else { b with tier := { b.tier with job := some (.flush d left again failed) } }
  | _ => b

/-- A write-down that fails during a `retire` is not tried again. -/
def Blk.retireFailed (b : Blk) (d blk : Nat) : Blk :=
  match b.tier.job with
  | some (.retire e failed) => if e = d then { b with tier := { b.tier with job := some (.retire e (failed ++ [blk])) } } else b
  | _ => b

/-- A write-down to Peat has ended: a program of it that still runs is no longer its own (R268). -/
def Blk.cutPeat (b : Blk) (blk : Nat) : Blk :=
  let off (j : NandJob) : NandJob := match j with
    | .down k lbn => if k = blk then .void lbn else j
    | _ => j
  let mine (j : NandJob) : Bool := match j with
    | .down k _ => k == blk
    | _ => false
  { b with peat := { b.peat with ops := b.peat.ops.map fun o => { o with job := off o.job }, todo := b.peat.todo.filter fun w => !mine w.1 } }

/-- A write-down ends, well or not. -/
def Blk.downEnd (b : Blk) (x : Down) (good : Bool) : Blk :=
  let blk := x.block
  let f := b.get Reg.map_FRAME blk
  let b := { b with tier := { b.tier with downs := b.tier.downs.erase x } }.cutPeat blk
  let b :=
    if good then
      let b := (b.put Reg.map_STORED 1 blk).count Reg.TIER_WRITEDOWN_CNT
      if x.why ≠ 0 then b.put Reg.map_BSTATE Bst.resident blk
      else if b.get Reg.map_DIRTY blk = 1 ∨ b.get Reg.frame_TOUCHED_DURING f = 1 then
        (b.put Reg.map_BSTATE Bst.resident blk).count Reg.TIER_ABANDON_CNT
      else (((b.put Reg.map_BSTATE Bst.absent blk).put Reg.map_FRAME 0 blk).dropFrame f).count Reg.TIER_EVICT_CNT
    else
      let b := ((b.put Reg.map_BSTATE Bst.resident blk).put Reg.map_DIRTY 1 blk).put Reg.frame_STAMP b.stampNow f
      ((b.count Reg.TIER_DOWN_FAIL_CNT).err Pg.tier 3).retireFailed x.desc blk
  b.flushed blk x.why good

/-- Whether a fetch or write-down of a descriptor goes to Peat, and its timeout. -/
def Blk.tierSpan (b : Blk) (d : Nat) : Nat :=
  us (if b.get Reg.place_CLASS d = Cls.weights then b.get Reg.TIER_TIMEOUT_PEAT_US else b.get Reg.TIER_TIMEOUT_HOST_US)

/-! ### Settling the tier stage -/

/-- A fetch without frame and without waiting requests is dropped (R265). -/
def Blk.dropIdle (b : Blk) : Blk :=
  let idle := b.tier.fetches.filter fun x => x.frame.isNone && !x.pass &&
    !b.home.reqs.any fun q => q.wait == .fetch && q.off / 65536 == x.block
  b.each idle fun b x =>
    let b := { b with tier := { b.tier with fetches := b.tier.fetches.erase x } }
    ((b.put Reg.map_BSTATE Bst.absent x.block).count Reg.TIER_NOFRAME_CNT).err Pg.tier 5

/-- The evictor starts below FREE_LOW_PCT, or with a fetch or `place` waiting (R266). -/
def Blk.evictStart (b : Blk) : Blk := if b.evicting then { b with tier := { b.tier with evicting := true } } else b

/-- The evictor stops at FREE_HIGH_PCT with nothing waiting (R266). -/
def Blk.evictStop (b : Blk) : Blk :=
  let waits := b.tier.fetches.any (fun x => x.frame.isNone && !x.pass) || (match b.tier.job with
    | some (.place _ _) => true
    | _ => false)
  if !waits && b.get Reg.TIER_CFG_FREE_HIGH_PCT * b.get Reg.TIER_POOL_TOTAL_FRAMES ≤ 100 * b.get Reg.TIER_POOL_FREE_FRAMES then
    { b with tier := { b.tier with evicting := false } }
  else b

/-! ### Ends of fetches -/

/-- The trailer of a host block agrees (R270): PART, TENANT and BLOCK of word 0 are the block's own, and so is `crcs`, the SUB_CRC of each of
the `n` sub-blocks of 4 KiB of `data`. -/
def Blk.trailerOk (b : Blk) (d blk word n : Nat) (crcs : List Nat) (data : List Line) : Bool :=
  bits word 63 46 == bits (b.trailerWord d blk) 63 46 && word % 2 ^ 31 == blk % 2 ^ 31 && data.length == 64 * n &&
  (List.range n).all fun k => nth 0 crcs k == subCrc ((data.drop (64 * k)).take 64)

/-- A trailer or CRC failure. -/
def Blk.badTrailer (b : Blk) : Blk := (b.count Reg.TIER_BADTRL_CNT).err Pg.tier 2

/-- A request ends TIER_FAIL, and with it those joined to it (R141, R265). -/
def Blk.tierFail (b : Blk) (q : Req) : Blk := ((b.countN Reg.TIER_FAIL_CNT (1 + q.members.length)).err Pg.tier 0).finish q St.tierFail []

/-- The requests that wait on a block's fetch. -/
def Blk.fetchWaiters (b : Blk) (blk : Nat) : List Req := b.home.reqs.filter fun q => q.wait == .fetch && q.off / 65536 == blk

/-- A fetch fails (R265). -/
def Blk.fetchFailed (b : Blk) (x : Fetch) : Blk :=
  let b := { b with tier := { b.tier with fetches := b.tier.fetches.erase x } }
  let b := (b.put Reg.map_BSTATE Bst.absent x.block).put Reg.map_FRAME 0 x.block
  let b := match x.frame with
    | some f => b.dropFrame f
    | none => b
  b.each (b.fetchWaiters x.block) fun b q => b.tierFail q

/-- Fetches, pass-through reads and write-downs whose lower tier takes none fail at once (R291, R305, R461). -/
def Blk.settleLower (b : Blk) : Blk :=
  let peat (d : Nat) : Bool := b.get Reg.place_CLASS d == Cls.weights
  let b := b.each (b.tier.fetches.filter fun x => !b.zeroFill x.block x.desc && !b.lowerOpen (peat x.desc)) fun b x => b.fetchFailed x
  let shut (q : Req) : Bool := q.wait == .pass && (match b.placeOf (q.off / 2 ^ 26) with
    | some d => !b.lowerOpen (peat d)
    | none => false)
  let b := b.each (b.home.reqs.filter shut) fun b q => b.tierFail q
  b.each (b.tier.downs.filter fun x => !b.lowerWritable (peat x.desc)) fun b x => b.downEnd x false

/-- What the tier stage does by itself after a change: idle fetches go, free frames are given out, `retire` goes on. -/
def Blk.settleTier (b : Blk) : Blk :=
  let b := b.dropIdle
  let b := b.feedFetches b.tier.fetches.length
  let b := match b.tier.job with
    | some (.place d _) => b.feedPlace (b.pinsOf d + b.mapFramesOf d + 1)
    | _ => b
  b.settleLower.retireGo.settleLower.retireGo.evictStart.evictStop

/-- The fetch of a block that has its frame. -/
def Blk.fetchOf (b : Blk) (blk : Nat) : Option (Fetch × Nat) :=
  (b.tier.fetches.find? fun x => x.block == blk && !x.pass && x.frame.isSome).bind fun x => x.frame.map fun f => (x, f)

/-- A fetched block is installed: its waiting requests go on (R264). -/
def Blk.installed (b : Blk) (x : Fetch) (f : Nat) : Blk :=
  let b := { b with tier := { b.tier with fetches := b.tier.fetches.erase x } }
  let b := ((b.put Reg.map_BSTATE Bst.resident x.block).put Reg.map_DIRTY 0 x.block).touchFrame f
  { b with home := { b.home with reqs := b.home.reqs.map fun (q : Req) =>
    if q.wait = .fetch ∧ q.off / 65536 = x.block then { q with wait := .ready, stage := .key, tiered := true } else q } }

/-- The lines of a block are put into its frame as ciphertext. -/
def Blk.installLines (b : Blk) (f : Nat) (data : List Line) : Blk :=
  let b := b.fillFrame f { key := none, block := 0 }
  b.each ((List.range 1024).zip data) fun b x => b.writeRa (f * 1024 + x.1) (.raw x.2)

/-- What Peat has read of a block or unit for the tier stage; the record is taken. -/
def Blk.takePeat (b : Blk) (blk : Nat) : Option (Option (List Line)) × Blk :=
  ((b.peat.ready.find? (·.1 == blk)).map (·.2), { b with peat := { b.peat with ready := b.peat.ready.filter (·.1 != blk) } })
def Blk.takePeatPass (b : Blk) (sub : Nat) : Option (Option (List Line)) × Blk :=
  ((b.peat.passReady.find? (·.1 == sub)).map (·.2), { b with peat := { b.peat with passReady := b.peat.passReady.filter (·.1 != sub) } })

/-- A fetch completes with the block's ciphertext: from host memory with its trailer (R264, R270), from Peat as its dies were
decoded. A zero fill takes none. -/
def Blk.fetchComplete (b : Blk) (blk : Nat) (data : List Line) (word : Nat) (crcs : List Nat) : Blk :=
  match b.fetchOf blk with
  | none => b.answered_ (0, blk)
  | some (x, f) =>
    if b.stray (0, blk) 1 then b.answered_ (0, blk)
    else if b.zeroFill blk x.desc then
      let b := b.fillFrame f { key := some (b.key (b.get Reg.place_TENANT x.desc)), block := blk }
      let b := if b.get Reg.map_STORED blk = 0 then b.count Reg.TIER_FETCH_ZERO_CNT else b
      (b.installed x f).settleHome
    else if b.get Reg.place_CLASS x.desc = Cls.weights then
      match b.takePeat blk with
      | (some (some ls), b) => ((b.installLines f ls).installed x f).settleHome
      | _ => b
    else
      let b := b.answered_ (0, blk)
      if b.trailerOk x.desc blk word 16 crcs data = false then (b.badTrailer.fetchFailed x).settleHome
      else ((b.installLines f data).installed x f).settleHome

/-- A fetch fails below (R265): a host-memory read ended badly (R463), or a codeword failed every step (R288). -/
def Blk.fetchFail (b : Blk) (blk : Nat) : Blk :=
  match b.fetchOf blk with
  | none => if b.stray (0, blk) 0 then (b.answered_ (0, blk)).hostReadBad else b
  | some (x, _) =>
    if b.stray (0, blk) 1 then (b.answered_ (0, blk)).hostReadBad
    else if b.zeroFill blk x.desc then b
    else if b.get Reg.place_CLASS x.desc = Cls.weights then
      match b.takePeat blk with
      | (some none, b) => (b.fetchFailed x).settleHome
      | _ => b
    else (b.answered_ (0, blk)).hostReadBad.fetchFailed x |>.settleHome

/-- A request waiting on a fetch or pass-through of a block has waited its time (R265). -/
def Blk.waitTimeout (b : Blk) (blk : Nat) : Blk :=
  match b.home.reqs.find? fun q => (q.wait == .fetch || q.wait == .pass) && q.off / 65536 == blk &&
      (match b.placeOf (blk / 1024) with
       | some d => b.past q.since (b.tierSpan d)
       | none => false) with
  | none => b
  | some q => (((b.countN Reg.TIER_TIMEOUT_CNT (1 + q.members.length)).err Pg.tier 1).finish q St.tierTimeout []).settleHome

/-- A pass-through read has its 4 KiB: its line is returned (R274), unless a peek has already brought the owner's (R156) or the block has come into the pool since (R187). -/
def Blk.passLine (b : Blk) (q : Req) (data : List Line) : Blk :=
  let plain := xtsDecrypt (b.key q.fr.tenant.toNat) (b.tweak q.line) (nth 0 data (q.line % 64))
  (b.modReq q.id fun q => { q with wait := .ready, stage := .key, tiered := true, low := some plain }).settleHome

/-- A pass-through read's 4 KiB arrive from the lower tier, or do not (R274): `sub` numbers 4 KiB units of the range. One that no request waits for
any more is counted if it ends badly (R463). -/
def Blk.passComplete (b : Blk) (sub : Nat) (good : Bool) (data : List Line) (word crc : Nat) : Blk :=
  let waiting := b.home.reqs.filter fun q => q.wait == .pass && q.off / 4096 == sub
  if b.stray (1, sub) waiting.length then
    let b := b.answered_ (1, sub)
    if good then b else b.hostReadBad
  else
  match waiting.head?, b.placeOf (sub / 2 ^ 14) with
  | some q, some d =>
      if b.get Reg.place_CLASS d = Cls.weights then
        match b.takePeatPass sub with
        | (some (some ls), b) => b.passLine q ls
        | (some none, b) => (b.tierFail q).settleHome
        | (none, _) => b
      else
        let b := b.answered_ (1, sub)
        if good = false then (b.hostReadBad.tierFail q).settleHome
        else if b.trailerOk d (sub / 16) word 1 [crc] data = false then (b.badTrailer.tierFail q).settleHome
        else b.passLine q data
  | _, _ => b

/-- A write-down's trailer goes out and its last 4 bytes are read back (R462, steps 3 and 4). -/
def Blk.sendTrailer (b : Blk) (x : Down) : Blk :=
  let at_ := (b.lowerOf x.desc x.block).2.2
  let b := ((b.hostWrite at_ (b.trailer x.desc x.block x.crcs)).hostRead (at_ + 124) 4).asking (2, x.block)
  { b with tier := { b.tier with downs := b.tier.downs.map fun (y : Down) => if y.block = x.block then { y with trailed := true } else y } }

/-- A write-down's read-back ends (R268): that of the block lets the trailer go, that of the trailer ends the write-down (R269, R462), and one that
meets a PCIe error fails it (R463). One that met a line it may not send has failed; to Peat it has ended with its program (R289). -/
def Blk.downComplete (b : Blk) (blk : Nat) (good : Bool) : Blk :=
  match b.tier.downs.find? (·.block == blk) with
  | none => if b.stray (2, blk) 0 then (let b := b.answered_ (2, blk); if good then b else b.hostReadBad) else b
  | some x =>
    if x.bad then b.downEnd x false
    else if b.get Reg.place_CLASS x.desc = Cls.weights then b
    else
      let old := b.stray (2, blk) 1
      let b := b.answered_ (2, blk)
      if good = false then (if old then b.hostReadBad else b.hostReadBad.downEnd x false)
      else if old then b
      else if x.trailed then b.downEnd x true
      else b.sendTrailer x

/-- A write-down exceeds its time. -/
def Blk.downTimeout (b : Blk) (blk : Nat) : Blk :=
  match b.tier.downs.find? (·.block == blk) with
  | none => b
  | some x => if b.past x.since (b.tierSpan x.desc) then b.downEnd x false else b

/-- The background sweep applies due halvings to every Hiwyn block (R273). -/
def Blk.heatSweep (b : Blk) : Blk :=
  b.each ((b.entriesWith Reg.place_STATE).filter fun d => b.flag Reg.place_HIWYN d) fun b d =>
    b.each (List.range (b.placeBlocks d).2) fun b i => b.coolHeat ((b.placeBlocks d).1 + i)

end Sys2Proof.Machine
end

