-- ==== Sys2Proof/Machine/Protect.lean ====
section
/-! DEFINITION. Stacks and protection across parts: patrol scrub (R233 to R235), protection commands (R241, R248, R251 to
R253), mirror repair (R247). -/
namespace Sys2Proof.Machine

/-! ### Scrub -/

/-- The local line a resident line holds, where its frame holds a block. -/
def Blk.localOf (b : Blk) (ra : Nat) : Option Nat :=
  let f := ra / 1024
  let blk := b.get Reg.frame_BLOCK f
  if b.get Reg.frame_USED f = 1 ∧ b.get Reg.map_FRAME blk = f ∧ b.get Reg.map_BSTATE blk ≠ Bst.absent then some (blk * 1024 + ra % 1024) else none

/-- The active mirror region a local line lies in. -/
def Blk.mirrorOf (b : Blk) (line : Nat) : Option Nat :=
  (b.regionsOf (line / 2 ^ 20)).find? fun r =>
    b.get Reg.region_MODE r == 1 && b.get Reg.region_STATE r == 1 && b.get Reg.region_OWNER r == 0

/-- An uncorrectable line found by scrub (R235). -/
def Blk.scrubBad (b : Blk) (ra : Nat) : Blk :=
  if ra / 1024 < b.get Reg.TIER_POOL_TOTAL_FRAMES ∧ b.get Reg.frame_USED (ra / 1024) = 0 then
    let (t, b) := b.draw (2 ^ 128)
    (b.recordUe ra 1).writeRa ra (.enc (b.key 0) t 0)
  else
    match b.localOf ra with
    | none => b.recordUe ra 1
    | some line =>
      match b.mirrorOf line with
      | none => b.recordUe ra 1
      | some r =>
        let b := b.mending ra
        b.originate { fr := b.reqFrame Opc.rdVol (b.remoteLine r (line - b.get Reg.region_LOCAL_BASE r * 2 ^ 20)) (b.get Reg.region_TENANT r) true,
                      agent := .scrub r ra }

/-- The pass of a stack that has read all its lines is complete (R233, Table 7.5). -/
def Blk.passEnd (b : Blk) (k : Nat) : Blk :=
  if (b.store.scrubbed.filter (·.1 == k)).length < stackLines then b
  else
    let b := if b.get Reg.HBM_SCRUB_PASSES k < 0xFFFF then b.put Reg.HBM_SCRUB_PASSES (b.get Reg.HBM_SCRUB_PASSES k + 1) k else b
    { b with store := { b.store with scrubbed := b.store.scrubbed.filter (·.1 ≠ k) } }

/-- A line may be read by the pass of its stack: not read in it yet, and a new pass starts PERIOD_H after the one before. -/
def Blk.scrubDue (b : Blk) (k ra : Nat) : Bool :=
  !b.store.scrubbed.contains (k, ra) &&
  (b.store.scrubbed.any (·.1 == k) ||
   (match b.store.passAt.find? (·.1 == k) with
    | none => true
    | some x => b.past x.2 (secs (b.get Reg.HBM_SCRUB_PERIOD_H k * 3600))))

/-- A scrub step on a resident line (R233, R234). -/
def Blk.scrubStep (b : Blk) (ra : Nat) : Blk :=
  let k := b.stackOf ra
  if b.raLines ≤ ra || b.lostAt ra || !b.scrubDue k ra then b
  else
    let b := if b.store.scrubbed.any (·.1 == k) then b
      else { b with store := { b.store with passAt := (b.store.passAt.filter fun x => x.1 != k) ++ [(k, b.el)] } }
    let b := { b with store := { b.store with scrubbed := b.store.scrubbed ++ [(k, ra)] } }
    let b :=
      match b.decodeAt ra with
      | (.good s, n) => if n = 0 then b else ((b.countFix ra n).writeRa ra s).count Reg.HBM_SCRUB_FIX_CNT k
      | (.bad, _) => b.scrubBad ra
      | (.lost, _) => b
    b.passEnd k

/-- The partner's copy for a line no request waits for: it is rewritten, unless a commit has replaced it since (R234, R235, R247); `src`:
who found it. -/
def Blk.mirrorLine (b : Blk) (r ra status src : Nat) (d : Line) : Blk :=
  let due := b.store.mends.contains ra
  let b := { b with store := { b.store with mends := b.store.mends.filter (· ≠ ra) } }
  if status ≠ St.ok then (b.recordUe ra src).unprotect r
  else
    match b.localOf ra with
    | some line => if due then (b.writeRa ra (.enc (b.key (b.get Reg.region_TENANT r)) (b.tweak line) d)).recordUe ra 2 else b.recordUe ra src
    | none => b.recordUe ra src

/-- The partner's copy for a line scrub found uncorrectable (R235, R247). -/
def Blk.scrubRepaired (b : Blk) (r ra status : Nat) (d : Line) : Blk := b.mirrorLine r ra status 1 d

/-! ### Mirror repair for a request (R247) -/

/-- The partner's copy for a request: the local line is rewritten and the request served; a lost line is served from the
copy. Where the request has ended meanwhile (R55), the line is repaired all the same. -/
def Blk.repairDone (b : Blk) (id r ra0 status : Nat) (d : Line) : Blk :=
  match b.req? id with
  | none => if b.lostAt ra0 then b else b.mirrorLine r ra0 status 0 d
  | some q =>
    if q.wait ≠ .repair then b
    else
      match b.raOf q.line with
      | none => (b.modReq id fun q => { q with wait := .ready, stage := .tier }).settleHome
      | some ra =>
        if status ≠ St.ok then
          let b := if b.lostAt ra then b else b.recordUe ra 0
          ((b.unprotect r).finish q St.uncorrectable []).settleHome
        else if b.lostAt ra then (b.modReq id fun q => { q with wait := .ready, data := some d }).settleHome
        else
          let b := b.mirrorLine r ra status 0 d
          (b.modReq id fun q => { q with wait := .ready }).settleHome

/-! ### PROT_CMD -/

def protCmd : CmdReg := ⟨Reg.PROT_CMD_STATUS_DONE, Reg.PROT_CMD_STATUS_CODE, Pg.prot⟩

/-- PROT_CMD code `line_fail`. -/
def lineFail : Nat := 7

/-- A protection command finishes. -/
def Blk.protEnd (b : Blk) (code : Nat) : Blk := ({ b with prot := none }).cmdEnd protCmd code

/-- Every block of a region is pinned (R241). -/
def Blk.regionPinned (b : Blk) (r : Nat) : Bool :=
  (List.range (b.get Reg.region_SIZE r * 1024)).all fun k =>
    b.get Reg.map_BSTATE (b.get Reg.region_LOCAL_BASE r * 1024 + k) == Bst.pinned

/-- Lines of a region. -/
def Blk.regionLines (b : Blk) (r : Nat) : Nat := b.get Reg.region_SIZE r * 2 ^ 20

/-- The plaintext of a local line under the region's key, read at the store stage. -/
def Blk.readLocal (b : Blk) (tenant line : Nat) : Option Line × Blk :=
  match b.raOf line with
  | none => (none, b)
  | some ra =>
    match (b.touch (line / 1024)).readRa ra with
    | (.good s, b) => (some (s.plain (b.key tenant) (b.tweak line)), b)
    | (_, b) => (none, b)

/-- The part number of member i of a parity group. -/
def Blk.memberPart (b : Blk) (r i : Nat) : Nat := b.get Reg.region_MEMBERS r / 2 ^ (6 * i) % 64

/-- Line j of member i, as the owner names it: its own REMOTE_BASE at the member (log entry 15). -/
def Blk.memberLine (b : Blk) (r i j : Nat) : Nat := b.memberPart r i * 2 ^ 47 + b.get Reg.region_REMOTE_BASE r * 2 ^ 26 + j * 64

/-- The command's own request: its answer comes back as `prot r j`. -/
def Blk.protAsk (b : Blk) (r j opc addr : Nat) (d : Line := 0) : Blk :=
  b.originate { fr := b.reqFrame opc addr (b.get Reg.region_TENANT r) true 0 d, agent := .prot r j }

/-- The next line of a mirror copy, or its end (R248). -/
def Blk.copyNext (b : Blk) (r j : Nat) : Blk :=
  if b.regionLines r ≤ j then (b.put Reg.region_STATE 1 r).protEnd ok
  else
    match b.readLocal (b.get Reg.region_TENANT r) (b.get Reg.region_LOCAL_BASE r * 2 ^ 20 + j) with
    | (none, b) => b.protEnd lineFail
    | (some l, b) => { b.protAsk r j Opc.wrLine (b.remoteLine r j) l with prot := some (.copy r j j false) }

/-- The next member line of a parity line, its write and the next line, or the end (R252). -/
def Blk.parityNext (b : Blk) (r j got : Nat) (acc : Line) : Blk :=
  if b.regionLines r ≤ j then (b.put Reg.region_STATE 1 r).protEnd ok
  else { b.protAsk r j Opc.rdVol (b.memberLine r got j) with prot := some (.parity r j got acc) }

/-- The next survivor's line of a rebuild, or the write of the result (R253). -/
def Blk.rebuildNext (b : Blk) (r dead j got : Nat) (acc : Line) : Blk :=
  let got := if got = dead then got + 1 else got
  if b.regionLines r ≤ j then b.protEnd ok
  else if got < b.get Reg.region_K r then
    { b.protAsk r j Opc.rdVol (b.memberLine r got j) with prot := some (.rebuild r dead j got acc) }
  else
    { b.protAsk r j Opc.wrLine (b.get Reg.PROT_CMD_ARG_TARGET * 2 ^ 26 + j * 64) acc with prot := some (.rebuild r dead j got acc) }

/-- The parity line a rebuild of line j starts from. -/
def Blk.rebuildLine (b : Blk) (r dead j : Nat) : Blk :=
  if b.regionLines r ≤ j then b.protEnd ok
  else
    match b.readLocal (b.get Reg.region_TENANT r) (b.get Reg.region_LOCAL_BASE r * 2 ^ 20 + j) with
    | (none, b) => (b.err Pg.prot 1).protEnd lineFail
    | (some l, b) => b.rebuildNext r dead j 0 l

/-- A request of a protection command is answered. -/
def Blk.protStep (b : Blk) (r j status : Nat) (d : Line) : Blk :=
  match b.prot with
  | some (.copy i n _ failed) =>
    if i ≠ r ∨ n ≠ j then b
    else if status ≠ St.ok ∨ failed = true then b.protEnd lineFail
    else b.copyNext r (j + 1)
  | some (.parity i n got acc) =>
    if i ≠ r ∨ n ≠ j then b
    else if status ≠ St.ok then b.protEnd lineFail
    else if got + 1 < b.get Reg.region_K r then b.parityNext r j (got + 1) (acc ^^^ d)
    else
      let line := b.get Reg.region_LOCAL_BASE r * 2 ^ 20 + j
      match b.raOf line with
      | none => b.protEnd lineFail
      | some ra =>
        if b.lostAt ra then b.protEnd lineFail
        else (((b.touch (line / 1024)).commitLine (b.get Reg.region_TENANT r) line ra (acc ^^^ d)).watch line (acc ^^^ d)).parityNext r (j + 1) 0 0
  | some (.rebuild i dead n got acc) =>
    if i ≠ r ∨ n ≠ j then b
    else if status ≠ St.ok then (b.err Pg.prot 1).protEnd lineFail
    else if got < b.get Reg.region_K r then b.rebuildNext r dead j (got + 1) (acc ^^^ d)
    else (b.put Reg.PROT_REBUILD_POS_LINE (j + 1)).rebuildLine r dead (j + 1)
  | _ => b

/-- `activate` (R241, R248, R252). DESIGN CHOICE: a region already active or frozen is taken and copied anew (log entry 97). -/
def Blk.protActivate (b : Blk) (r : Nat) : Blk :=
  b.cmd protCmd none fun b =>
    let mode := b.get Reg.region_MODE r
    if mode ≠ 1 ∧ mode ≠ 2 then b.protEnd badRange
    else if b.regionPinned r = false then b.protEnd badState
    else if mode = 1 then (b.put Reg.region_STATE 2 r).copyNext r 0
    else if b.get Reg.region_OWNER r = 0 then (b.put Reg.region_STATE 1 r).protEnd ok
    else b.parityNext r 0 0 0

/-- `deactivate`. -/
def Blk.protDeactivate (b : Blk) (r : Nat) : Blk :=
  b.cmd protCmd none fun b => (b.put Reg.region_STATE 0 r).protEnd ok

/-- A write or atomic that passed the window stage is open in a region (R251). -/
def Blk.regionBusy (b : Blk) (r : Nat) : Bool :=
  b.home.reqs.any fun q => q.kind == .request && !isRead q.op &&
    b.get Reg.region_LOCAL_BASE r ≤ q.line / 2 ^ 20 && q.line / 2 ^ 20 < b.get Reg.region_LOCAL_BASE r + b.get Reg.region_SIZE r

/-- `freeze` finishes once every such operation has landed and its parity is acknowledged. -/
def Blk.settleFreeze (b : Blk) : Blk :=
  match b.prot with
  | some (.freeze r) => if b.regionBusy r then b else b.protEnd ok
  | _ => b

/-- `freeze` (R251). -/
def Blk.protFreeze (b : Blk) (r : Nat) : Blk :=
  b.cmd protCmd none fun b =>
    if b.get Reg.region_STATE r ≠ 1 then b.protEnd badState
    else ({ b.put Reg.region_STATE 3 r with prot := some (.freeze r) }).settleFreeze

/-- `thaw` (R251). -/
def Blk.protThaw (b : Blk) (r : Nat) : Blk :=
  b.cmd protCmd none fun b =>
    if b.get Reg.region_STATE r ≠ 3 then b.protEnd badState else (b.put Reg.region_STATE 1 r).protEnd ok

/-- `rebuild` (R253). DESIGN CHOICE: a DEAD_IDX of K or more finishes `bad_range` (log entry 97). -/
def Blk.protRebuild (b : Blk) (r dead : Nat) : Blk :=
  b.cmd protCmd none fun b =>
    if b.get Reg.region_OWNER r = 0 then b.protEnd badState
    else if b.get Reg.region_K r ≤ dead then b.protEnd badRange
    else (b.put Reg.PROT_REBUILD_POS_LINE 0).rebuildLine r dead 0

/-! ### Key slots (R239) -/

def cryptCmd : CmdReg := ⟨Reg.CRYPT_CMD_STATUS_DONE, Reg.CRYPT_CMD_STATUS_CODE, Pg.crypt⟩

/-- `zeroise`. -/
def Blk.cryptZeroise (b : Blk) (slot : Nat) : Blk := b.cmd cryptCmd none fun b => (b.dropKey slot).cmdEnd cryptCmd ok

end Sys2Proof.Machine
end

