-- ==== Sys2Proof/Machine/Engine.lean ====
section
/-! DEFINITION. What every engine shares (ch. 10): interrupts (R451), works and their requests, Mule limits (R317), threads
(R327, R328), ends of works, completion records, signals and markers (R330 to R332, R542). -/
namespace Sys2Proof.Machine

/-! ### Interrupts (R451) -/

/-- Vectors of a function's MSI-X table (Table 15.1). -/
def vectorsOf (func : Nat) : Nat := if func = 0 then 2048 else 64

/-- The write of a vector's entry (R451). -/
def Blk.sendMsix (b : Blk) (func vec : Nat) : Blk :=
  let e := Sparse.get (0, 0) b.pcie.msix (func * 2048 + vec)
  b.emit (.msix func vec e.1 e.2)

/-- Raise a vector of a function: masked, it sets its PBA bit; beyond the table, it raises nothing. -/
def Blk.raise (b : Blk) (func vec : Nat) : Blk :=
  if vectorsOf func ≤ vec then (b.count Reg.PCIE_INT_DROP_CNT).err Pg.pcie 2
  else
    let k := func * 2048 + vec
    if b.pcie.open_.contains k then b.sendMsix func vec
    else if b.pcie.pba.contains k then b
    else { b with pcie := { b.pcie with pba := b.pcie.pba ++ [k] } }

/-- Some page's INT_STATUS holds an enabled bit. -/
def Blk.intUp (b : Blk) : Bool :=
  allPages.any fun p =>
    (b.flag Reg.INT_STATUS_ERR p && b.flag Reg.INT_ENABLE_ERR p) || (b.flag Reg.INT_STATUS_CMD_DONE p && b.flag Reg.INT_ENABLE_CMD_DONE p) ||
    b.get Reg.INT_STATUS_BLOCK p &&& b.get Reg.INT_ENABLE_BLOCK p != 0

/-- The error interrupt: raised when the condition arises, and again only after it has been cleared (R451). -/
def Blk.settleInt (b : Blk) : Blk :=
  let up := b.intUp
  if up = b.pcie.errUp then b
  else
    let b := { b with pcie := { b.pcie with errUp := up } }
    if up then b.raise 0 (b.get Reg.PCIE_CTRL_ERR_VEC) else b

/-! ### The header of a descriptor (Table 10.4) -/

namespace Scope
def tile : Nat := 0
def device : Nat := 1
def fen : Nat := 2
def marsh : Nat := 3
end Scope

def Work.scope (w : Work) : Nat := dfield w.desc 1 7 6
def Work.barrier (w : Work) : Bool := dfield w.desc 1 5 5 == 1
def Work.notify (w : Work) : Bool := dfield w.desc 1 4 4 == 1
def Work.tag (w : Work) : Nat := dfield w.desc 4 31 0
def Work.sigVa (w : Work) : Nat := dfield w.desc 8 55 0

/-- A step marker (R542). -/
def Work.marker (w : Work) : Bool := w.opcode == Dop.nop && bitAt w.tag 31

/-- The read type of a descriptor's scope (Table 6.4). -/
def Work.readOpc (w : Work) : Nat := if w.scope ≤ Scope.device then Opc.rdLine else Opc.rdLineNa

/-- Descriptors of the scope make a release that waits for earlier ones of the queue (Table 6.4). -/
def Work.releases (w : Work) : Bool := w.scope != Scope.tile

/-- Bits [hi:lo] of the 64-bit word at a byte of the descriptor. -/
def Work.f (w : Work) (byte hi lo : Nat) : Nat := dfield w.desc byte hi lo

/-! ### Works -/

/-- The work with an id. -/
def Blk.work? (b : Blk) (id : Nat) : Option Work := b.eng.works.find? (·.id == id)

/-- Change one work. -/
def Blk.modWork (b : Blk) (id : Nat) (f : Work → Work) : Blk :=
  { b with eng := { b.eng with works := b.eng.works.map fun (w : Work) => if w.id = id then f w else w } }

/-- Add a work under a fresh id. -/
def Blk.addWork (b : Blk) (w : Work) : Nat × Blk :=
  (b.eng.nextWork, { b with eng := { b.eng with nextWork := b.eng.nextWork + 1, works := b.eng.works ++ [{ w with id := b.eng.nextWork }] } })

/-- Take a work away. -/
def Blk.dropWork (b : Blk) (id : Nat) : Blk := { b with eng := { b.eng with works := b.eng.works.filter (·.id ≠ id) } }

/-- Not yet ended. -/
def Work.open_ (w : Work) : Bool :=
  match w.phase with
  | .fetching | .fetched | .running => true
  | _ => false

/-- The outcome of an operation. -/
def Work.res? (w : Work) (op : Nat) : Option Res := w.hist.find? (·.op == op)

/-- An operation was issued. -/
def Work.asked (w : Work) (op : Nat) : Bool := w.out.contains op || (w.res? op).isSome

/-- An operation ended OK. -/
def Work.okOp (w : Work) (op : Nat) : Bool :=
  match w.res? op with
  | some r => r.status == St.ok
  | none => false

/-- The line an operation brought. -/
def Work.lineOf (w : Work) (op : Nat) : Line :=
  match w.res? op with
  | some r => r.data
  | none => 0

/-- The first operation of a list that failed. -/
def Work.failed (w : Work) : Option Res := w.hist.find? (·.status != St.ok)

/-! Operation numbers below 16 are kept for what every work does. -/
namespace Op
def ring : Nat := 0        -- the ring read (R328)
def armErr : Nat := 1      -- arming ended with an error
def fired : Nat := 2       -- the monitor fired, or a poll found its condition true
def noMon : Nat := 3       -- no monitor: poll (R209)
def record : Nat := 4      -- the completion record (R331)
def signal : Nat := 5      -- the signal (R331)
def poll : Nat := 6        -- a poll (R209, R210)
def first : Nat := 16      -- the operation's own
end Op

/-! ### Requests of works (R193, R317) -/

/-- A write of another work of the same tile to a line is in flight (R193). -/
def Blk.writeInFlight (b : Blk) (r : Reach) (addr : Nat) : Bool :=
  (b.orig.out ++ b.orig.waiting).any fun o =>
    (match o.agent with
     | .work x _ => x != r.work
     | _ => false) &&
    o.tile == r.tile && !isRead o.fr.opc.toNat && o.fr.addr.toNat / 64 == addr / 64

/-- An operation of a work is reached: it is issued once, in its thread's turn (R309). -/
def Blk.ask (b : Blk) (id : Nat) (q : Ask) (fr : Option Frame := none) : Blk :=
  match b.work? id with
  | none => b
  | some w =>
    if w.asked q.op then b
    else
      let b := b.modWork id fun w => { w with out := w.out ++ [q.op] }
      { b with eng := { b.eng with reach := b.eng.reach ++ [{ work := id, tile := w.tile, thread := w.thread, ask := q, fr }] } }

/-- Operations are reached, in order. -/
def Blk.asks (b : Blk) (id : Nat) (l : List Ask) : Blk := b.each l fun b q => b.ask id q

/-- A reached access must wait: its tile is halted, its Mules are at their limit, or a line it reads is being written. -/
def Blk.reachWaits (b : Blk) (tenant : Nat) (r : Reach) : Bool :=
  let full (addr : Nat) : Bool := r.ask.bulk && (b.freeMule r.tile (addr / 2 ^ 47 != b.node)).isNone
  b.eng.halted.contains r.tile ||
  (match r.fr with
   | some fr => full fr.addr.toNat
   | none =>
     match b.translate tenant r.ask.va (if r.ask.right = 0 then rightOf r.ask.opc else r.ask.right) with
     | .fail _ _ => false
     | .addr a => full a || (isRead r.ask.opc && b.writeInFlight r a))

/-- A reached access is not made any more: its work is gone, has ended or ends for a fault, or is a MOVE that has met a line that
fails (R335). -/
def Blk.reachOver (b : Blk) (r : Reach) : Bool :=
  match b.work? r.work with
  | none => true
  | some w =>
    let lost (x : Agent × Nat × Line) : Bool := (match x.1 with
      | .work k _ => k == w.id
      | _ => false) && x.2.1 != St.ok
    match w.phase with
    | .dropped | .ended => true
    | .running => w.fault || (w.opcode == Dop.move && (w.failed.isSome || b.orig.results.any lost))
    | _ => false

/-- How far a thread's turn lies behind: first its tile behind the one that issued last, then the thread behind the one of its tile that
did. -/
def Blk.turnDist (b : Blk) (r : Reach) : Nat :=
  (r.tile + 95 - b.eng.turn) % 96 * 16 + (r.thread + 15 - Sparse.get 0 b.eng.turns r.tile) % 16

/-- The first access of the thread whose turn is next; each tile's threads take turns among themselves (R309). -/
def Blk.nextReach (b : Blk) (l : List Reach) : Option Reach :=
  l.foldl (fun (o : Option Reach) r =>
    match o with
    | none => some r
    | some v => if b.turnDist r < b.turnDist v then some r else some v) none

/-- A thread has issued. -/
def Blk.tookTurn (b : Blk) (r : Reach) : Blk :=
  { b with eng := { b.eng with turn := r.tile, turns := Sparse.set 0 b.eng.turns r.tile r.thread } }

/-- Threads issue what they have reached, one access in turn each; `kept`: accesses that must wait. -/
def Blk.issueTurns : Nat → List Reach → List Reach → Blk → Blk
  | 0, todo, kept, b => { b with eng := { b.eng with reach := kept ++ todo ++ b.eng.reach } }
  | n + 1, todo, kept, b =>
    match b.nextReach todo with
    | none => { b with eng := { b.eng with reach := kept ++ b.eng.reach } }
    | some r =>
      let tenant := ((b.work? r.work).map Work.tenant).getD 0
      if b.reachOver r then issueTurns n (todo.erase r) kept (b.modWork r.work fun w => { w with out := w.out.filter (· ≠ r.ask.op) })
      else if b.reachWaits tenant r then issueTurns n (todo.erase r) (kept ++ [r]) b
      else issueTurns n (todo.erase r) kept ((b.tookTurn r).issue tenant r)

/-- Every access that may be issued is. -/
def Blk.issueReached (b : Blk) : Blk :=
  let here (r : Reach) : Reach := match b.work? r.work with
    | some w => { r with tile := w.tile, thread := w.thread }
    | none => r
  Blk.issueTurns b.eng.reach.length (b.eng.reach.map here) [] { b with eng := { b.eng with reach := [] } }

/-- An operation of a work ended. -/
def Blk.workResult (b : Blk) (id op status : Nat) (data : Line) : Blk :=
  b.modWork id fun w =>
    let w := { w with out := w.out.filter (· ≠ op) }
    match w.phase with
    | .dropped => w
    | _ => { w with hist := w.hist ++ [({ op, status, data } : Res)] }

/-! ### The end of a work -/

/-- A work ends with a status and its DETAIL; where the spec gives no DETAIL it is open. -/
def Blk.endWork (b : Blk) (id status : Nat) (detail : Option Nat) (deciding : Nat := 15) : Blk :=
  let (d, b) := match detail with
    | some d => (d, b)
    | none => b.draw (2 ^ 64)
  b.modWork id fun w => { w with phase := .ended, status, detail := some d, deciding, hist := [], snap := [], chunks := [], queries := [], watch := none }

/-- A monitor of a work is freed without firing (R211). -/
def Blk.dropMonitors (b : Blk) (id : Nat) : Blk :=
  b.each ((b.eng.monWork.filter (·.2 == id)).map (·.1)) fun b m => b.freeMonitor m fun b _ => b

/-- Works of a queue before another that have not completed. -/
def Blk.incomplete (b : Blk) (w : Work) : List Work :=
  b.eng.works.filter fun x => x.kind == 0 && x.queue == w.queue && decide (x.id < w.id) && x.phase != Phase.signalling && x.phase != Phase.dropped

/-- Works of a queue before another, not ended. -/
def Blk.earlierOpen (b : Blk) (w : Work) : List Work :=
  b.eng.works.filter fun x => x.kind == 0 && x.queue == w.queue && decide (x.id < w.id) && x.open_

/-- A work waits on nothing: its requests have ended. -/
def Work.quiet (w : Work) : Bool := w.out.isEmpty

/-! ### Threads (R308, R327, R328) -/

namespace Ts
def run : Nat := 0
def gated : Nat := 1
def draining : Nat := 2
def testing : Nat := 3
def retired : Nat := 4
end Ts

/-- Works a bound queue has in progress. -/
def Blk.worksOf (b : Blk) (q : Nat) : List Work := b.eng.works.filter fun w => w.kind == 0 && w.queue == q && (w.phase != .dropped)

/-- The free queue threads of `run` tiles that are not halted. -/
def Blk.freeThreads (b : Blk) : List (Nat × Nat) :=
  ((List.range 96).filter fun t => b.get Reg.TILE_STATE_STATE t == Ts.run && !b.eng.halted.contains t).flatMap fun t =>
    ((List.range 15).filter fun h => !b.eng.bound.any fun x => x.tile == t && x.thread == h).map fun h => (t, h)

/-- The waiting queue that is bound next (R327): aged ones first, then the highest PRIO, then the one that waited longest. -/
def Blk.nextQueue (b : Blk) : Option (Nat × Nat) :=
  let aged := b.eng.waiting.filter fun w => !decide (b.el ≤ w.2 + us (b.get Reg.QMGR_CFG_AGE_US))
  let l := if aged = [] then b.eng.waiting else aged
  let key (w : Nat × Nat) : Nat := if aged = [] then b.get Reg.qctx_PRIO w.1 else 0
  l.foldl (fun (o : Option (Nat × Nat)) w =>
    match o with
    | none => some w
    | some v => if key v < key w ∨ (key v = key w ∧ w.2 < v.2) then some w else some v) none

/-- Queues that no longer wait leave the list. -/
def Blk.trimWaiting (b : Blk) : Blk :=
  let still (w : Nat × Nat) : Bool := b.get Reg.qctx_STATE w.1 == Qst.ready && b.get Reg.qctx_TAIL w.1 != b.get Reg.qctx_HEAD w.1
  { b with eng := { b.eng with waiting := b.eng.waiting.filter still } }

/-- A bound queue's thread has stopped fetching (R328). -/
def Blk.stopsFetching (b : Blk) (x : Bound) : Bool :=
  x.closing || b.get Reg.qctx_STATE x.queue != Qst.ready || b.get Reg.qctx_HEAD x.queue == b.get Reg.qctx_TAIL x.queue ||
  b.get Reg.TILE_STATE_STATE x.tile != Ts.run || (b.get Reg.QMGR_CFG_QUANTUM ≤ x.fetched && !b.eng.waiting.isEmpty)

/-- Threads stop fetching and release their queues (R328). -/
def Blk.settleThreads (b : Blk) : Blk :=
  let b := b.trimWaiting
  let shut (x : Bound) : Bound := { x with closing := b.stopsFetching x }
  let b := { b with eng := { b.eng with bound := b.eng.bound.map shut } }
  b.each (b.eng.bound.filter fun x => x.closing && (b.worksOf x.queue).isEmpty) fun b x =>
    ({ b with eng := { b.eng with bound := b.eng.bound.filter fun (y : Bound) => decide (y.queue ≠ x.queue) } }).queueWaits x.queue

/-- Bit t: thread t of a tile holds work (Table 10.15); thread 15's upkeep is not work of a queue. -/
def Blk.threadsBusy (b : Blk) (tile : Nat) : Nat :=
  (b.eng.bound.filter (·.tile == tile)).foldl (fun n x => n ||| 2 ^ x.thread) 0

/-! ### Records (R330 to R332) -/

/-- A queue moves to `error` (R332), with the status that moved it there. -/
def Blk.queueError (b : Blk) (q status : Nat) : Blk :=
  if b.get Reg.qctx_STATE q = Qst.error ∨ b.get Reg.qctx_STATE q = Qst.off then b
  else (((b.put Reg.qctx_STATE Qst.error q).put Reg.qctx_LAST_ERR status q).count Reg.QMGR_QERR_CNT).err Pg.qmgr 2

/-- The 16 bytes of a completion record (Table 10.6). -/
def recordBytes (tag status phase stage opcode detail : Nat) : Nat :=
  tag % 2 ^ 32 + status <<< 32 + (phase <<< 7 + stage) <<< 40 + opcode <<< 48 + (detail % 2 ^ 64) <<< 64

/-- A line that holds bytes at their place. -/
def atPlace (va n : Nat) : Line := .ofNat 512 (n <<< (8 * (va % 64)))

/-- The operation that writes a record at an address. -/
def recordAsk (va rec : Nat) : Ask := { op := Op.record, opc := Opc.wrPartial, va, arg := 16, data := atPlace va rec }

/-- The operation that raises a signal: ADD of 1, w64, NORET (R331). -/
def signalAsk (va : Nat) : Ask := { op := Op.signal, opc := Opc.add, va, arg := 5, data := 1 }

/-- Ring slot of an index. -/
def Blk.slotOf (b : Blk) (q i : Nat) : Nat := i % 2 ^ b.get Reg.qctx_RING_LOG2 q

/-- The record of a descriptor (R330). -/
def Blk.recordOf (b : Blk) (w : Work) : Ask :=
  let phase := 1 - w.index / 2 ^ b.get Reg.qctx_RING_LOG2 w.queue % 2
  recordAsk (b.get Reg.qctx_CQ_VA w.queue * 2 ^ 8 + b.slotOf w.queue w.index * 16)
    (recordBytes w.tag w.status phase w.deciding w.opcode (w.detail.getD 0))

/-! ### Markers (R542 to R544) -/

/-- The bin of an interval, for a base: 0 below the base, then by doubling, 15 for the rest. -/
def binOf (base us : Nat) : Nat := ((List.range 15).find? fun i => decide (us < base * 2 ^ i)).getD 15

/-- An interval is counted into the histograms bound to a queue (R544). -/
def Blk.histCount (b : Blk) (q us : Nat) : Blk :=
  b.each ((b.entriesWith Reg.hist_V).filter fun h => b.get Reg.hist_QUEUE h == q) fun b h =>
    let f : Fld := { Reg.hist_BIN0 with bit := 64 + 32 * binOf (b.get Reg.hist_BASE_US h) us }
    if b.get f h < 2 ^ 32 - 1 then b.put f (b.get f h + 1) h else b

/-- A step marker's record is written (R542). -/
def Blk.mark_ (b : Blk) (q step : Nat) : Blk :=
  let seen := b.flag Reg.qmark_V q
  let us := Nat.min (2 ^ 32 - 1) (subMod 64 b.now (b.get Reg.qmark_LAST_TIME q) / 1000)
  let b := if seen then b.put Reg.qmark_LAST_US us q else b
  let b := b.puts q [(Reg.qmark_LAST_TIME, b.now), (Reg.qmark_STEP, step), (Reg.qmark_V, 1)]
  if seen then b.histCount q us else b

/-! ### Completion (R331, R332) -/

/-- DESCRIPTOR_COMPLETE for a descriptor whose work has ended: once the release of its scope is made, its record is
written. -/
def Blk.complete_ (b : Blk) (q i : Nat) : Blk :=
  match b.eng.works.find? fun w => w.kind == 0 && w.queue == q && w.index == i && w.phase == .ended with
  | none => b
  | some w =>
    if w.releases && !(b.earlierOpen w).isEmpty then b
    else (b.modWork w.id fun w => { w with phase := .recording }).ask w.id (b.recordOf w)

/-- Descriptors counted by their own engines. -/
def Blk.countDone (b : Blk) (op : Nat) : Blk :=
  if op = Dop.embLookup then b.count Reg.EMB_LOOKUP_CNT else if op = Dop.embUpdate then b.count Reg.EMB_UPDATE_CNT else b

/-- The last steps of a descriptor: its interrupt, its counts, and the queue's error where it stops on one. -/
def Blk.completed (b : Blk) (w : Work) : Blk :=
  let b := (b.dropWork w.id).countDone w.opcode
  let b := if w.notify && b.flag Reg.qctx_NOTIFY_EN w.queue then b.raise (b.get Reg.qctx_FUNC w.queue) (b.get Reg.qctx_VECTOR w.queue) else b
  (b.count Reg.QMGR_DESC_CNT).count Reg.TILE_DESC_CNT w.tile

/-- A descriptor's record has landed: its marker, its queue's error, then its signal. -/
def Blk.recorded (b : Blk) (w : Work) : Blk :=
  let b := b.modWork w.id fun w => { w with pins := [] }
  let b := if w.marker then b.mark_ w.queue (w.tag % 2 ^ 31) else b
  let b := if b.flag Reg.qctx_STOP_ON_ERR w.queue && decide (2 < w.status) then b.queueError w.queue w.status else b
  if w.sigVa = 0 then b.completed w
  else (b.modWork w.id fun w => { w with phase := .signalling }).ask w.id (signalAsk w.sigVa)

/-- A signal that failed (R331). -/
def Blk.sigFailed (b : Blk) : Blk := (b.count Reg.QMGR_SIG_FAIL_CNT).err Pg.qmgr 3

/-- A descriptor's record or signal has ended, well or not. -/
def Blk.recordStep (b : Blk) (w : Work) : Blk :=
  match w.phase with
  | .recording =>
    match w.res? Op.record with
    | none => if w.quiet then b.ask w.id (b.recordOf w) else b
    | some r => if r.status = St.ok then b.recorded w else (b.dropWork w.id).queueError w.queue r.status
  | .signalling =>
    match w.res? Op.signal with
    | none => if w.quiet then b.ask w.id (signalAsk w.sigVa) else b
    | some r => (if r.status = St.ok then b else b.sigFailed).completed w
  | _ => b

/-! ### Fetching (R327 to R329) -/

/-- A tile is forced into `gated` (R493). -/
def Blk.forced (b : Blk) (t : Nat) : Bool :=
  bitAt (b.get (if t < 64 then Reg.PWR_TILE_FORCE_LO_MASK else Reg.PWR_TILE_FORCE_HI_MASK)) (t % 64)

/-- A queue is bound to a thread: a gated tile is woken where no `run` tile has one free (R327, R492). -/
def Blk.queueBind (b : Blk) : Blk :=
  match b.nextQueue with
  | none => b
  | some (q, _) =>
    let b := if b.freeThreads = [] then
        match (List.range 96).filter fun t => b.get Reg.TILE_STATE_STATE t == Ts.gated && !b.forced t && !b.aon.capped.contains t with
        | [] => b
        | l => let (t, b) := b.pick 0 l; b.put Reg.TILE_STATE_STATE Ts.run t
      else b
    match b.freeThreads with
    | [] => b
    | l =>
      let (x, b) := b.pick (0, 0) l
      { b with eng := { b.eng with waiting := b.eng.waiting.filter (·.1 ≠ q),
                                   bound := b.eng.bound ++ [{ queue := q, tile := x.1, thread := x.2 }] } }

/-- The record of index i − 2^RING_LOG2 has landed (R328). -/
def Blk.slotFree (b : Blk) (q i : Nat) : Bool :=
  !b.eng.works.any fun w => w.kind == 0 && w.queue == q && w.index == subMod 32 i (2 ^ b.get Reg.qctx_RING_LOG2 q) &&
    w.phase != .signalling && w.phase != .dropped

/-- DESCRIPTOR_FETCH: the thread of a queue reads its next descriptor (R328). -/
def Blk.descFetch (b : Blk) (q : Nat) : Blk :=
  match b.eng.bound.find? (·.queue == q) with
  | none => b
  | some x =>
    let i := b.get Reg.qctx_HEAD q
    if b.stopsFetching x || b.eng.halted.contains x.tile || 16 ≤ (b.worksOf q).length || !b.slotFree q i then b
    else
      let (id, b) := b.addWork { id := 0, tenant := b.get Reg.qctx_TENANT q, queue := q, index := i, tile := x.tile, thread := x.thread }
      let b := b.put Reg.qctx_HEAD ((i + 1) % 2 ^ 32) q
      let b := { b with eng := { b.eng with bound := b.eng.bound.map fun (y : Bound) => if y.queue = q then { y with fetched := y.fetched + 1 } else y } }
      b.ask id { op := Op.ring, opc := Opc.rdLineNa, va := b.get Reg.qctx_RING_VA q * 2 ^ 10 + b.slotOf q i * 64 }

/-- An opcode that a chapter assigns (Table 10.5). -/
def assigned (op : Nat) : Bool :=
  [Dop.nop, Dop.move, Dop.graphRun, Dop.syncWait, Dop.syncSignal, Dop.syncPublish, Dop.handoff, Dop.embLookup, Dop.embUpdate,
   Dop.vseSearch, Dop.vseRerank, Dop.vseMutate, Dop.vseMerge, Dop.wstStream].contains op

/-- A nonzero RSV bit of the header, or a misaligned SIG_VA. -/
def headerBad (d : Nat) : Bool :=
  dfield d 1 3 0 != 0 || dfield d 2 15 12 != 0 || dfield d 8 63 56 != 0 || dfield d 8 2 0 != 0

/-- The header checks of R329: none where the descriptor passes. -/
def headerCheck (d tenant : Nat) : Option Nat :=
  if !assigned (dfield d 0 7 0) then some St.unsupported
  else if dfield d 2 11 0 ≠ tenant then some St.tenantBlocked
  else if headerBad d then some St.malformed
  else none

/-- A ring read has ended: the descriptor is checked, or its queue moves to `error` (R329, R332). -/
def Blk.fetchStep (b : Blk) (w : Work) : Blk :=
  match w.res? Op.ring with
  | none =>
    if w.quiet ∧ w.kind = 0 then
      b.ask w.id { op := Op.ring, opc := Opc.rdLineNa, va := b.get Reg.qctx_RING_VA w.queue * 2 ^ 10 + b.slotOf w.queue w.index * 64 }
    else b
  | some r =>
    if r.status ≠ St.ok then (b.dropWork w.id).queueError w.queue r.status
    else
      let d := r.data.toNat
      let b := b.modWork w.id fun w => { w with desc := d, phase := .fetched, hist := [] }
      match headerCheck d w.tenant with
      | some s => b.endWork w.id s none
      | none => b

end Sys2Proof.Machine
end

