-- ==== Sys2Proof/Machine/Sync.lean ====
section
/-! DEFINITION. The synchronisation descriptors (R204 to R213, R220 to R222), the handoff of state (R275, R276) and the debug
commands of the SYNC page (R216 to R219). -/
namespace Sys2Proof.Machine

/-! ### Own checks (R329, check 4) -/

/-- SYNC_WAIT is malformed (R212). -/
def waitBad (d : Nat) : Bool :=
  dfield d 16 63 56 != 0 || dfield d 16 2 0 != 0 || dfield d 40 7 2 != 0 || dfield d 41 183 0 != 0 ||
  (dfield d 32 63 0 != 0 && dfield d 40 1 0 != 3)

/-- SYNC_SIGNAL is malformed (R212). -/
def signalBad (d : Nat) : Bool :=
  dfield d 16 63 56 != 0 || dfield d 16 2 0 != 0 || dfield d 32 7 2 != 0 || dfield d 33 247 0 != 0

/-- SYNC_PUBLISH is malformed (Table 6.12, log entry 16). -/
def publishBad (d : Nat) : Bool := dfield d 16 63 56 != 0 || dfield d 16 2 0 != 0 || dfield d 32 255 0 != 0

/-- TIER_HANDOFF is malformed (Table 8.9, log entry 16). -/
def handoffBad (d : Nat) : Bool :=
  dfield d 16 63 56 != 0 || dfield d 16 2 0 != 0 || dfield d 26 7 6 != 0 || dfield d 27 7 2 != 0 || dfield d 27 1 0 == 3 ||
  dfield d 28 31 20 != 0 || dfield d 32 255 0 != 0

/-! ### SYNC_WAIT -/

def Work.wordVa (w : Work) : Nat := w.f 16 55 0

/-- The word a line read for a wait holds. -/
def Work.wordIn (w : Work) (l : Line) : Nat := lineGet l (w.wordVa % 64) 8

/-- The wait's condition on a word. -/
def Work.waitMet (w : Work) (word : Nat) : Bool := waitHolds (w.f 40 1 0) (w.f 24 63 0) (w.f 32 63 0) word

/-- The poll of a wait: the word at the store where it is local (R209), by RD_VOL where it is remote (R210). -/
def Work.pollAsk (w : Work) (remote : Bool) : Ask :=
  { op := Op.poll, opc := if remote then Opc.rdVol else Opc.rdLine, va := w.wordVa / 64 * 64 }

/-- A word homed elsewhere. -/
def Blk.remoteWord (b : Blk) (w : Work) : Bool :=
  match b.translate w.tenant w.wordVa rdRight with
  | .addr a => a / 2 ^ 47 != b.node
  | .fail _ _ => false

/-- A wait's request at the home: it takes a far atomic's turn at its line (R207). -/
def Blk.armReq (b : Blk) (id : Nat) (win : Option Nat) (off : Nat) (fr : Frame) : Blk :=
  (b.addReq { id := 0, fr := { fr with opc := .ofNat 8 Opc.add, arg := 5 }, kind := .arm id, win, off, alone := true, stage := .flock }).2.settleHome

/-- Arm a wait on a local word: its window is checked for the RD right, and the arming goes on through the home's stages to the
line (R204, R207, R212). -/
def Blk.arm (b : Blk) (w : Work) (a : Nat) : Blk :=
  let fr := b.reqFrame Opc.rdVol a w.tenant false
  match b.windowStage fr with
  | .refuse s _ _ =>
    let b := if s = St.staleEpoch then b.count Reg.WIN_STALE_CNT else if s = St.revoked then b.count Reg.WIN_REVOKED_CNT else b
    b.result (.work w.id Op.armErr) s
  | .pass win off =>
    if b.runOf off ≠ .memory then b.result (.work w.id Op.armErr) St.unsupported
    else (b.winEnter win).armReq w.id (some win) off fr

/-- A wait is served without a monitor: it is counted, and its word is read at once (R209). -/
def Blk.pollInstead (b : Blk) (w : Work) : Blk :=
  (((b.count Reg.SYNC_POLL_CNT).err Pg.sync 3).modWork w.id fun w => { w with snap := [2] }).ask w.id (w.pollAsk false)

/-- Firmware arms a wait for a thread of its own, which then waits (R202); a thread that waits arms none. -/
def Blk.fwArm (b : Blk) (x : FwWait) : Blk :=
  if b.fenced || b.eng.works.any fun w => w.kind == 4 && w.tile == x.tile.val && w.thread == x.thread.val then b
  else
    let desc := Dop.syncWait + x.value.toNat <<< 192 + x.mask.toNat <<< 256 + x.cond.toNat <<< 320
    let (id, b) := b.addWork { id := 0, kind := 4, tenant := x.tenant.toNat, tile := x.tile.val, thread := x.thread.val, desc, phase := .running, snap := [1] }
    let off := x.word.toNat * 8
    b.armReq id none off { b.reqFrame Opc.rdVol (b.node * 2 ^ 47 + off) x.tenant.toNat false with tenant := x.tenant }

/-- A firmware thread's wait goes on: the thread becomes ready once its monitor has fired (R206), or could not be armed. -/
def Blk.fwStep (b : Blk) (w : Work) : Blk :=
  if w.fault || b.fenced then (b.dropMonitors w.id).dropWork w.id else if w.hist = [] then b else b.dropWork w.id

/-- SYNC_WAIT goes on. -/
def Blk.waitStep (b : Blk) (w : Work) : Blk :=
  if waitBad w.desc then b.endWork w.id St.malformed none
  else
    match w.res? Op.armErr, w.res? Op.fired, w.res? Op.noMon, w.res? Op.poll with
    | some r, _, _, _ => b.endWork w.id r.status none
    | _, some _, _, _ => b.endWork w.id St.ok none
    | _, _, _, some r =>
      if r.status ≠ St.ok then b.endWork w.id r.status none
      else if w.waitMet (w.wordIn r.data) then b.endWork w.id St.ok none
      else b.modWork w.id fun w => { w with hist := w.hist.filter (·.op ≠ Op.poll), since := b.el, snap := [2] }
    | _, _, some _, none => if w.snap = [1] then b.pollInstead w else b
    | none, none, none, none =>
      if w.snap ≠ [] then b
      else
        match b.translate w.tenant w.wordVa rdRight with
        | .fail s c => (b.xltFault w.tenant w.wordVa c).endWork w.id s none
        | .addr a =>
          if a / 2 ^ 47 ≠ b.node then (b.modWork w.id fun w => { w with snap := [2] }).ask w.id (w.pollAsk true)
          else if b.mayArm w.tenant = false then b.pollInstead w
          else (b.modWork w.id fun w => { w with snap := [1] }).arm w a

/-- A poll interval of a polled wait has passed: its word is read again (R209, R210). -/
def Blk.syncPoll (b : Blk) (q i : Nat) : Blk :=
  match b.eng.works.find? fun w => w.queue == q && w.index == i && w.opcode == Dop.syncWait && w.phase == .running && w.snap == [2] with
  | none => b
  | some w =>
    if w.quiet ∧ b.past w.since (ns (b.get Reg.SYNC_CFG_POLL_NS)) = true then b.ask w.id (w.pollAsk (b.remoteWord w)) else b

/-! ### SYNC_SIGNAL (R213) -/

/-- The atomic of an OP. -/
def signalOpc (op : Nat) : Nat :=
  match op with
  | 0 => Opc.add
  | 1 => Opc.swap
  | 2 => Opc.or
  | _ => Opc.maxU

/-- SYNC_SIGNAL goes on. -/
def Blk.signalStep (b : Blk) (w : Work) : Blk :=
  if signalBad w.desc then b.endWork w.id St.malformed none
  else
    match w.res? Op.first with
    | some r => b.endWork w.id r.status none
    | none => b.ask w.id { op := Op.first, opc := signalOpc (w.f 32 1 0), va := w.wordVa, arg := 5, data := .ofNat 512 (w.f 24 63 0) }

/-! ### SYNC_PUBLISH (R220, R221) -/

/-- The CAS of a word. -/
def casAsk (op va old new right : Nat) : Ask :=
  { op, opc := Opc.cas, va, arg := 1, data := .ofNat 512 (old + new <<< 64), right }

/-- The word a publish read last: by its read, then by each swap that came back (R221); none before any. -/
def Work.lastRead (w : Work) : Option Nat :=
  (w.hist.filter fun r => r.status == St.ok).foldl (fun _ r => some (if r.op = Op.first then w.wordIn r.data else lineGet r.data 0 8)) none

/-- The loop of R221, over swaps already made: `k` swaps have failed and `cur` was read last. The limit of tries is met by the last swap made, as
the limit is then. -/
def Blk.publishLoop (w : Work) : Nat → Nat → Nat → Blk → Blk
  | 0, _, _, b => b
  | n + 1, k, cur, b =>
    let new := w.f 24 47 0 <<< 16 + w.f 30 15 0
    let version := cur / 2 ^ 16
    if w.f 24 47 0 < version ∨ (version = w.f 24 47 0 ∧ cur % 2 ^ 16 ≠ w.f 30 15 0) then
      (b.count Reg.SYNC_PUBLISH_CONFLICT_CNT).endWork w.id St.versionConflict (some cur)
    else if version = w.f 24 47 0 then b.endWork w.id St.ok (some cur)
    else
      match w.res? (Op.first + 1 + k) with
      | none => b.ask w.id (casAsk (Op.first + 1 + k) w.wordVa cur new (rdRight + atRight))
      | some r =>
        if r.status ≠ St.ok then b.endWork w.id r.status (some cur)
        else
          let old := lineGet r.data 0 8
          if old = cur then b.endWork w.id St.ok (some cur)
          else if b.get Reg.SYNC_CFG_PUBLISH_TRIES ≤ k + 1 ∧ w.asked (Op.first + 2 + k) = false then
            ((b.count Reg.SYNC_PUBLISH_TRIES_CNT).err Pg.sync 4).endWork w.id St.internal (some old)
          else publishLoop w n (k + 1) old b

/-- SYNC_PUBLISH goes on. -/
def Blk.publishStep (b : Blk) (w : Work) : Blk :=
  if publishBad w.desc then b.endWork w.id St.malformed none
  else
    match w.res? Op.first with
    | none => b.ask w.id { op := Op.first, opc := Opc.rdVol, va := w.wordVa / 64 * 64, right := rdRight + atRight }
    | some r =>
      if r.status ≠ St.ok then b.endWork w.id r.status none
      else Blk.publishLoop w (w.hist.length + 1) 0 (w.wordIn r.data) b

/-! ### TIER_HANDOFF (R275, R276) -/

/-- A record word (Table 8.8). -/
def recordWord (phase holder target epoch deadline : Nat) : Nat :=
  (deadline % 2 ^ 32) + (epoch % 2 ^ 16) <<< 32 + (target % 64) <<< 50 + (holder % 64) <<< 56 + phase <<< 62

/-- The time counter in µs modulo 2^32. -/
def Blk.nowUs (b : Blk) : Nat := b.now / 1000 % 2 ^ 32

/-- The new word of a handoff operation on the record as read; none where it changes nothing. -/
def Blk.handoffNew (b : Blk) (w : Work) (cur : Nat) : Option Nat :=
  let phase := bits cur 63 62
  let holder := bits cur 61 56
  let target := bits cur 55 50
  let epoch := bits cur 47 32
  let deadline := bits cur 31 0
  let self := b.node % 64
  if epoch ≠ w.f 24 15 0 then none
  else
    match w.f 27 1 0 with
    | 0 =>
      if phase ≠ 0 ∨ holder ≠ self then none
      else some (recordWord 1 self (w.f 26 5 0) (epoch + 1) (b.nowUs + w.f 28 19 0))
    | 1 =>
      let ahead := subMod 32 deadline b.nowUs
      if phase ≠ 1 ∨ target ≠ self ∨ ahead < b.get Reg.TIER_HANDOFF_CFG_GUARD_US ∨ 2 ^ 31 ≤ ahead then none
      else some (recordWord 0 self 0 (epoch + 1) 0)
    | _ =>
      if phase ≠ 1 ∨ holder ≠ self ∨ 2 ^ 31 ≤ subMod 32 b.nowUs deadline then none
      else some (recordWord 0 self 0 (epoch + 1) 0)

/-- TIER_HANDOFF goes on; `snap` keeps the word its swap puts. -/
def Blk.handoffStep (b : Blk) (w : Work) : Blk :=
  if handoffBad w.desc then b.endWork w.id St.malformed none
  else
    match w.res? Op.first with
    | none => b.ask w.id { op := Op.first, opc := Opc.rdVol, va := w.wordVa / 64 * 64, right := rdRight + atRight }
    | some r =>
      if r.status ≠ St.ok then b.endWork w.id r.status none
      else
        let cur := w.wordIn r.data
        match w.snap with
        | [] =>
          match b.handoffNew w cur with
          | none => b.endWork w.id St.ok (some cur)
          | some new => (b.modWork w.id fun w => { w with snap := [new] }).ask w.id (casAsk (Op.first + 1) w.wordVa cur new (rdRight + atRight))
        | new :: _ =>
          match w.res? (Op.first + 1) with
          | none => b.ask w.id (casAsk (Op.first + 1) w.wordVa cur new (rdRight + atRight))
          | some c =>
            if c.status ≠ St.ok then b.endWork w.id c.status none
            else if lineGet c.data 0 8 = cur then b.endWork w.id St.ok (some new)
            else b.endWork w.id St.ok (some (lineGet c.data 0 8))

/-! ### SYNC_DBG_CMD (R216 to R219) -/

/-- A debug command acts only at D2; otherwise it is denied and counted. -/
def Blk.dbgSync (b : Blk) (run : Blk → Blk) : Blk :=
  b.cmd syncCmd none fun b =>
    if b.get Reg.DBG_STATE_LEVEL = 2 then run b
    else ((b.count Reg.SYNC_DBG_DENIED_CNT).err Pg.sync 2).cmdEnd syncCmd denied

/-- `set_word` (R217): one commit at the store stage by the system tenant. -/
def Blk.syncSetWord (b : Blk) (target : Nat) : Blk :=
  b.dbgSync fun b =>
    if 2 ^ 44 ≤ target then b.cmdEnd syncCmd badRange
    else
      let off := target * 8
      let fr : Frame := { opc := .ofNat 8 Opc.wrPartial, tc := 1, pl := true, src := .ofNat 16 b.node, dst := .ofNat 16 b.node, arg := 8,
                          addr := .ofNat 64 (b.node * 2 ^ 47 + off), data := atPlace off (b.get Reg.SYNC_DBG_VALUE_VALUE) }
      (b.addReq { id := 0, fr, kind := .debug, off, alone := true, stage := .flock }).2.settleHome

/-- The word a monitor watches, as it stands in the store; where its block has left the pool, as the monitor saw it last, at its arming or at
the last commit since (R204); open where it cannot be read. -/
def Blk.monitorWord (b : Blk) (m : Nat) : Nat × Blk :=
  let word := b.get Reg.monitor_WORD m
  match b.raOf (word / 8) with
  | none => (((b.eng.monSeen.find? fun x => x.1 == m).map (·.2)).getD 0, b)
  | some ra =>
    match (b.decodeAt ra).1 with
    | .good s => (lineGet (s.plain (b.key (b.get Reg.monitor_TENANT m)) (b.tweak (word / 8))) (8 * (word % 8)) 8, b)
    | _ => b.draw (2 ^ 64)

/-- `fire` (R218). -/
def Blk.syncFire (b : Blk) (target : Nat) : Blk :=
  b.dbgSync fun b =>
    let m := target % 2 ^ 16
    if b.get Reg.monitor_STATE m ≠ 1 then b.cmdEnd syncCmd badState
    else
      let (old, b) := b.monitorWord m
      let new := b.get Reg.monitor_VALUE m
      ((b.fire m old).dbgLog 2 target old new).cmdEnd syncCmd ok

end Sys2Proof.Machine
end

