-- ==== Sys2Proof/Machine/Move.lean ====
section
/-! DEFINITION. MOVE (R333 to R335), and the templates and stages of GRAPH_RUN (R336 to R340) up to the point where a stage runs
like a descriptor. -/
namespace Sys2Proof.Machine

/-! ### Ranges (R190 to R192, R340) -/

/-- A declared range of whole lines: written or read, first line and the one after the last (R191). -/
structure Rng where
  wr : Bool
  lo : Nat
  hi : Nat
  deriving DecidableEq, Repr

/-- The range of `n` bytes at an address. -/
def Rng.of (wr : Bool) (va n : Nat) : Rng := { wr, lo := va / 64, hi := (va + n + 63) / 64 }

/-- Two ranges conflict: they share a line that one of them writes (R190). -/
def Rng.conflicts (a c : Rng) : Bool := (a.wr || c.wr) && decide (a.lo < c.hi) && decide (c.lo < a.hi)

/-- A read and a write range over `n` bytes. -/
def Rng.both (va n : Nat) : List Rng := [Rng.of false va n, Rng.of true va n]

/-- As tracked: more than 16 ranges become the smallest span that covers them (R192). -/
def tracked (l : List Rng) : List Rng :=
  if l.length ≤ 16 then l
  else
    match l with
    | [] => []
    | r :: rs => [rs.foldl (fun (a : Rng) x => { wr := a.wr || x.wr, lo := Nat.min a.lo x.lo, hi := Nat.max a.hi x.hi }) r]

/-! ### MOVE -/

/-- MOVE is malformed (R333). -/
def moveBad (d : Nat) : Bool :=
  let src := dfield d 16 55 0
  let dst := dfield d 24 55 0
  let len := dfield d 32 35 0
  dfield d 16 63 56 != 0 || dfield d 24 63 56 != 0 || dfield d 32 63 36 != 0 || dfield d 40 191 0 != 0 ||
  src % 64 != 0 || dst % 64 != 0 || len == 0 || len % 64 != 0 || (decide (src < dst + len) && decide (dst < src + len))

/-- Operation numbers of line i: its read and its write. -/
def moveRd (i : Nat) : Nat := Op.first + 2 * i
def moveWr (i : Nat) : Nat := Op.first + 2 * i + 1

/-- Lines from the lowest on whose writes have landed. -/
def Work.landed (w : Work) (n : Nat) : Nat := ((List.range n).find? fun i => !w.okOp (moveWr i)).getD n

/-- The failed line with the lowest source address (R335). -/
def Work.firstFailed (w : Work) : Option Res :=
  (w.hist.filter (·.status != St.ok)).foldl (fun (o : Option Res) r =>
    match o with
    | none => some r
    | some s => if r.op < s.op then some r else some s) none

/-- MOVE goes on: lines are read and, once read, written by the tile's Mules (R334), which hold at most 640 lines (R317). -/
def Blk.moveStep (b : Blk) (w : Work) : Blk :=
  if moveBad w.desc then b.endWork w.id St.malformed none
  else
    let src := w.f 16 55 0
    let dst := w.f 24 55 0
    let n := w.f 32 35 0 / 64
    match w.firstFailed with
    | some r => if w.quiet then b.endWork w.id r.status (some (64 * w.landed n)) else b
    | none =>
      if w.landed n = n then b.endWork w.id St.ok (some (64 * n))
      else
        let writes := ((List.range n).filter fun i => w.okOp (moveRd i) && !w.asked (moveWr i)).map fun i =>
          ({ op := moveWr i, opc := Opc.wrLine, va := dst + 64 * i, data := w.lineOf (moveRd i), bulk := true } : Ask)
        let reads := (((List.range n).filter fun i => !w.asked (moveRd i)).take (640 - w.out.length)).map fun i =>
          ({ op := moveRd i, opc := w.readOpc, va := src + 64 * i, bulk := true } : Ask)
        (b.asks w.id writes).asks w.id reads

/-! ### GRAPH_RUN -/

/-- A body RSV bit of GRAPH_RUN is set. -/
def graphRsv (d : Nat) : Bool := dfield d 16 63 56 != 0 || dfield d 24 63 56 != 0 || dfield d 36 223 0 != 0

def Work.argBase (w : Work) : Nat := w.f 24 55 0
def Work.argLen (w : Work) : Nat := w.f 32 31 0

/-! The template header line (Table 10.10). -/
def Work.header (w : Work) : Nat := (w.lineOf Op.first).toNat
def Work.stages (w : Work) : Nat := dfield w.header 0 3 0
def Work.resOff (w : Work) : Nat := dfield w.header 4 31 0
def Work.waitMask (w : Work) (i : Nat) : Nat := dfield w.header (8 + 2 * i) 14 0
def Work.patch (w : Work) (i : Nat) : Nat := dfield w.header 48 (7 * i + 6) (7 * i)

/-- Add the arena's base to bits [55:0] of the word at a byte of a descriptor (R337). -/
def addBase (base byte d : Nat) : Nat := putBits d (8 * byte) 56 (dfield d byte 55 0 + base)

/-- Stage i as it runs: its template line, patched (R337). -/
def Work.stageDesc (w : Work) (i : Nat) : Nat :=
  let d := (w.lineOf (Op.first + 1 + i)).toNat
  let p := w.patch i
  let d := if bitAt p 0 && dfield d 8 55 0 != 0 then addBase w.argBase 8 d else d
  (List.range 6).foldl (fun d k => if bitAt p (k + 1) then addBase w.argBase (16 + 8 * k) d else d) d

/-- The template is malformed (R336). -/
def Work.templateBad (w : Work) : Bool :=
  let n := w.stages
  n == 0 || graphRsv w.desc || w.resOff % 16 != 0 || decide (w.argLen < w.resOff + 16 * n) ||
  ((List.range 15).any fun i => w.waitMask i >>> i != 0 || (decide (n ≤ i) && (w.waitMask i != 0 || w.patch i != 0))) ||
  ((List.range n).any fun i => dfield (w.lineOf (Op.first + 1 + i)).toNat 0 7 0 == Dop.graphRun)

/-- The template has been read. -/
def Work.templateRead (w : Work) : Bool :=
  w.okOp Op.first && (List.range w.stages).all fun i => w.okOp (Op.first + 1 + i)

/-! A running graph's `snap`: stages started, then each stage's status plus one once it has completed. -/
def Work.started (w : Work) : Nat := w.snap.headD 0
def Work.stageStatus (w : Work) (i : Nat) : Option Nat :=
  match nth 0 w.snap (i + 1) with
  | 0 => none
  | s + 1 => some s
/-- A stage completed with a status in 0x00 to 0x02. -/
def Work.stageGood (w : Work) (i : Nat) : Bool :=
  match w.stageStatus i with
  | some s => decide (s ≤ 2)
  | none => false
/-- A stage completed with another status. -/
def Work.stageFailed (w : Work) (i : Nat) : Bool := (w.stageStatus i).isSome && !w.stageGood i
/-- Stages that completed with 0x00 to 0x02. -/
def Work.valid (w : Work) : Nat := (List.range 15).foldl (fun n i => if w.stageGood i then n + 2 ^ i else n) 0
/-- STARTED and VALID (R339). -/
def Work.graphDetail (w : Work) : Nat := w.started <<< 32 + w.valid

/-- A stage may start: not started, and every stage it waits for completed well (R338). -/
def Work.mayStart (w : Work) (i : Nat) : Bool :=
  decide (i < w.stages) && !bitAt w.started i && (List.range 15).all fun j => !bitAt (w.waitMask i) j || w.stageGood j

/-- Start stage i: it passes the header checks like a fetched descriptor (R337, R338). -/
def Blk.startStage (b : Blk) (w : Work) (i : Nat) : Blk :=
  let d := w.stageDesc i
  let (id, b) := b.addWork { id := 0, kind := 1, tenant := w.tenant, queue := w.queue, index := w.index, tile := w.tile, thread := w.thread,
                             parent := w.id, stage := i, desc := d, phase := .fetched }
  let b := b.modWork w.id fun w => { w with snap := (w.started ||| 2 ^ i) :: w.snap.drop 1 }
  match headerCheck d w.tenant with
  | some s => b.endWork id s none i
  | none => b

/-- The graph's end, once no stage is in progress and none may start (R339). -/
def Blk.graphEnd (b : Blk) (w : Work) : Blk :=
  match (List.range 15).find? w.stageFailed with
  | some i => b.endWork w.id ((w.stageStatus i).getD 0) (some w.graphDetail) i
  | none =>
    let s (x : Nat) : Bool := (List.range 15).any fun i => w.stageStatus i == some x
    b.endWork w.id (if s St.short then St.short else if s St.droppedSome then St.droppedSome else St.ok) (some w.graphDetail)

/-- Stages of a graph in progress. -/
def Blk.stagesOf (b : Blk) (w : Work) : List Work := b.eng.works.filter fun x => x.kind == 1 && x.parent == w.id

/-- A graph whose ranges may run: its stages start, run and end. -/
def Blk.graphRunning (b : Blk) (w : Work) : Blk :=
  let ready := if (List.range 15).any w.stageFailed then [] else (List.range 15).filter w.mayStart
  if ready ≠ [] then
    b.each ready fun b i =>
      match b.work? w.id with
      | some w => b.startStage w i
      | none => b
  else if (b.stagesOf w).isEmpty then b.graphEnd w
  else b

/-- A graph ends for a fault or because the part is FENCED: no further stage starts, and its stages in progress end first (R339, R340). -/
def Blk.graphStop (b : Blk) (w : Work) (status : Nat) : Blk :=
  if (b.stagesOf w).isEmpty = false then b
  else if w.snap = [] then b.endWork w.id status (some 0)
  else
    match (List.range 15).find? w.stageFailed with
    | some i => b.endWork w.id (if status = St.internal then status else (w.stageStatus i).getD 0) (some w.graphDetail) i
    | none => b.endWork w.id status (some w.graphDetail)

/-- GRAPH_RUN goes on: the template is read once, checked, and its stages run once `clear` says that no earlier descriptor
conflicts with the graph's ranges. -/
def Blk.graphStep (b : Blk) (w : Work) (clear : Bool) : Blk :=
  let tv := w.f 16 55 0
  if w.snap ≠ [] then b.graphRunning w
  else
    match w.failed with
    | some r => if w.quiet then b.endWork w.id r.status (some 0) else b
    | none =>
      if !w.okOp Op.first then b.ask w.id { op := Op.first, opc := w.readOpc, va := tv }
      else if !w.templateRead then
        b.asks w.id ((List.range w.stages).map fun i => { op := Op.first + 1 + i, opc := w.readOpc, va := tv + 64 * (i + 1) })
      else if w.templateBad then b.endWork w.id St.malformed (some 0)
      else if clear then
        let w := { w with snap := List.replicate 16 0 }
        (b.modWork w.id fun x => { x with snap := w.snap }).graphRunning w
      else b

/-- The record of a stage (R338). -/
def Work.stageRecord (w g : Work) : Ask :=
  recordAsk ((g.argBase + g.resOff + 16 * w.stage) % 2 ^ 56) (recordBytes w.tag w.status 1 w.stage w.opcode (w.detail.getD 0))

/-- GRAPH_STAGE_COMPLETE: a stage whose work has ended writes its record once the release of its scope is made. -/
def Blk.stageComplete (b : Blk) (q i stage : Nat) : Blk :=
  match b.eng.works.find? fun w => w.kind == 1 && w.queue == q && w.index == i && w.stage == stage && w.phase == .ended with
  | none => b
  | some w =>
    match b.work? w.parent with
    | none => b
    | some g =>
      if w.releases && !(b.earlierOpen g).isEmpty then b
      else (b.modWork w.id fun w => { w with phase := .recording }).ask w.id (w.stageRecord g)

/-- A stage has completed: its graph notes its status. -/
def Blk.stageDone (b : Blk) (w : Work) (status : Nat) : Blk :=
  ((b.dropWork w.id).countDone w.opcode).modWork w.parent fun g => { g with snap := modNth (fun _ => status + 1) (w.stage + 1) g.snap }

/-- A stage's record or signal has ended; a record that could not be written fails the stage (log entry 17). -/
def Blk.stageStep (b : Blk) (w : Work) : Blk :=
  match w.phase, b.work? w.parent with
  | .recording, some g =>
    match w.res? Op.record with
    | none => if w.quiet then b.ask w.id (w.stageRecord g) else b
    | some r =>
      if r.status ≠ St.ok then b.stageDone w (if w.status ≤ 2 then r.status else w.status)
      else
        let b := b.modWork w.id fun w => { w with pins := [] }
        let b := if w.marker then b.mark_ w.queue (w.tag % 2 ^ 31) else b
        if w.sigVa = 0 then b.stageDone w w.status
        else (b.modWork w.id fun w => { w with phase := .signalling }).ask w.id (signalAsk w.sigVa)
  | .signalling, some _ =>
    match w.res? Op.signal with
    | none => if w.quiet then b.ask w.id (signalAsk w.sigVa) else b
    | some r => (if r.status = St.ok then b else b.sigFailed).stageDone w w.status
  | _, _ => b

end Sys2Proof.Machine
end

