-- ==== Sys2Proof/Machine/Queue.lean ====
section
/-! DEFINITION. The queue manager's commands (R319 to R321, Table 10.7), queues reset (R211, R468), and the
tile's snapshot (R7). -/
namespace Sys2Proof.Machine

def qmgrCmd : CmdReg := ⟨Reg.QMGR_CMD_STATUS_DONE, Reg.QMGR_CMD_STATUS_CODE, Pg.qmgr⟩

/-- A queue command finishes. -/
def Blk.qmgrEnd (b : Blk) (code : Nat) : Blk := b.cmdEndRej qmgrCmd 4 code

/-- Every page of `n` bytes at a virtual address translates to this part with a right (R321). -/
def Blk.pagesHere (b : Blk) (tenant va n need : Nat) : Bool :=
  (List.range ((va % 2 ^ 26 + n + 2 ^ 26 - 1) / 2 ^ 26)).all fun k =>
    match b.translate tenant (va / 2 ^ 26 * 2 ^ 26 + k * 2 ^ 26) need with
    | .addr a => a / 2 ^ 47 == b.node
    | .fail _ _ => false

/-- `enable` may not act on a context (R321). -/
def Blk.enableBad (b : Blk) (q : Nat) : Bool :=
  let lg := b.get Reg.qctx_RING_LOG2 q
  let ring := b.get Reg.qctx_RING_VA q * 2 ^ 10
  let cq := b.get Reg.qctx_CQ_VA q * 2 ^ 8
  let t := b.get Reg.qctx_TENANT q
  decide (lg < 4) || decide (20 < lg) || ring % (64 * 2 ^ lg) != 0 || cq % (16 * 2 ^ lg) != 0 ||
  !b.pagesHere t ring (64 * 2 ^ lg) rdRight || !b.pagesHere t cq (16 * 2 ^ lg) wrRight

/-- `enable`; while `selftest_full` runs it finishes `busy` (R548), and `resume` too. -/
def Blk.queueEnable (b : Blk) (q : Nat) : Blk :=
  b.cmd qmgrCmd (some 4) fun b =>
    if b.aon.full.isSome then b.qmgrEnd busy
    else if b.get Reg.qctx_STATE q ≠ Qst.off then b.qmgrEnd badState
    else if b.enableBad q then b.qmgrEnd badRange
    else ((b.clearEntry .t_qmark q).puts q [(Reg.qctx_HEAD, 0), (Reg.qctx_TAIL, 0), (Reg.qctx_STATE, Qst.ready)]).qmgrEnd ok

/-- `stop`: DONE once the descriptors in progress have completed. -/
def Blk.queueStop (b : Blk) (q : Nat) : Blk :=
  b.cmd qmgrCmd (some 4) fun b =>
    if b.get Reg.qctx_STATE q ≠ Qst.ready then b.qmgrEnd badState
    else { (b.put Reg.qctx_STATE Qst.stopped q) with eng := { b.eng with stopping := some (q, 2) } }

/-- `resume`. -/
def Blk.queueResume (b : Blk) (q : Nat) : Blk :=
  b.cmd qmgrCmd (some 4) fun b =>
    if b.aon.full.isSome then b.qmgrEnd busy
    else if b.get Reg.qctx_STATE q = Qst.stopped ∨ b.get Reg.qctx_STATE q = Qst.error then
      ((b.put Reg.qctx_STATE Qst.ready q).queueWaits q).qmgrEnd ok
    else b.qmgrEnd badState

/-- A work of a queue: a descriptor or a stage. -/
def Work.ofQueue (w : Work) (q : Nat) : Bool := w.kind ≤ 1 && w.queue == q

/-- Work x's operation op is still to be sent for the first time. -/
def Blk.unsent (b : Blk) (x op : Nat) : Bool :=
  (b.orig.waiting.any fun o => o.agent == .work x op && o.sent == 0) || b.eng.reach.any fun r => r.work == x && r.ask.op == op

/-- A queue's work as its reset leaves it: only what it has issued is still out. -/
def Blk.dropped (b : Blk) (w : Work) : Work :=
  { w with phase := Phase.dropped, hist := [], snap := [], pins := [], chunks := [], out := w.out.filter fun op => !b.unsent w.id op }

/-- A queue is reset (Table 10.7): its works issue no further lines and write no record, its monitors are freed. -/
def Blk.resetQueue (b : Blk) (q : Nat) : Blk :=
  let b := b.put Reg.qctx_STATE Qst.off q
  let mine := b.eng.works.filter (·.ofQueue q)
  let b := b.each mine fun b w => b.dropMonitors w.id
  let works := (b.eng.works.map fun w => if w.ofQueue q then b.dropped w else w).filter fun w => !(w.ofQueue q && w.out.isEmpty)
  let keep (o : Out) : Bool := !(mine.any fun w => match o.agent with
    | .work x _ => x == w.id && o.sent == 0
    | _ => false)
  { b with orig := { b.orig with waiting := b.orig.waiting.filter keep },
           eng := { b.eng with works := works, reach := b.eng.reach.filter (fun r => !mine.any fun w => w.id == r.work), bound := b.eng.bound.filter (·.queue != q), waiting := b.eng.waiting.filter (·.1 != q) } }

/-- `reset`: DONE once the lines its descriptors issued have completed. -/
def Blk.queueReset (b : Blk) (q : Nat) : Blk :=
  b.cmd qmgrCmd (some 4) fun b =>
    { (b.resetQueue q) with eng := { (b.resetQueue q).eng with stopping := some (q, 4) } }

/-- A queue command that waited for descriptors in progress finishes. -/
def Blk.settleStop (b : Blk) : Blk :=
  let done := { b with eng := { b.eng with works := b.eng.works.filter fun w => !(w.phase == Phase.dropped && w.out.isEmpty) } }
  match done.eng.stopping with
  | none => done
  | some (q, op) =>
    let busy := if op = 2 then !(done.worksOf q).isEmpty else done.eng.works.any fun w => w.ofQueue q
    if busy then done else { done with eng := { done.eng with stopping := none } }.qmgrEnd ok

/-! ### Reset of a tenant (R468) -/

def rstCmd : CmdReg := ⟨Reg.GLB_RST_STATUS_DONE, Reg.GLB_RST_STATUS_CODE, Pg.glb⟩

/-- The queues of a tenant. -/
def Blk.queuesOf (b : Blk) (tenant : Nat) : List Nat :=
  (b.entriesWith Reg.qctx_STATE).filter fun q => b.get Reg.qctx_TENANT q == tenant

/-- Every monitor of a tenant is freed (R211). -/
def Blk.freeMonitorsOf (b : Blk) (tenant : Nat) : Blk :=
  b.each ((b.entriesWith Reg.monitor_STATE).filter fun m => b.get Reg.monitor_TENANT m == tenant) fun b m => b.freeMonitor m fun b _ => b

/-- `tenant`: every queue of the tenant is reset, its waits end, firmware's threads' among them (R211), and its monitors are freed. -/
def Blk.resetTenant (b : Blk) (tenant : Nat) : Blk :=
  let b := b.each (b.queuesOf tenant) fun b q => b.resetQueue q
  let b := (b.each (b.eng.works.filter fun w => w.kind == 4 && w.tenant == tenant) fun b w => (b.dropMonitors w.id).dropWork w.id).freeMonitorsOf tenant
  { b with eng := { b.eng with tenantRst := some tenant } }

/-- It finishes once the lines of those queues have completed. -/
def Blk.settleTenant (b : Blk) : Blk :=
  match b.eng.tenantRst with
  | none => b
  | some t =>
    if b.eng.works.any fun w => w.phase == Phase.dropped && w.tenant == t then b
    else { b with eng := { b.eng with tenantRst := none, rstDbg := false } }.cmdEnd rstCmd ok

/-- TILE_SNAP (R7): the step count, which has moved by an open amount, and the time counter are latched together. -/
def Blk.tileSnap (b : Blk) (t : Nat) : Blk :=
  let (d, b) := b.draw (2 ^ 48)
  let b := b.countN Reg.TILE_STEP_CNT d t
  (b.put Reg.TILE_STEP_SNAP_STEPS (b.get Reg.TILE_STEP_CNT t) t).put Reg.TILE_TIME_SNAP_TIME b.now t

end Sys2Proof.Machine
end

