-- ==== Sys2Proof/Machine/Sedge.lean ====
section
/-! DEFINITION. The tile's Sedge and its circular-buffer windows (R311 to R316). -/
namespace Sys2Proof.Machine

/-! ### Banks and their owners (R311 to R313) -/

/-- The bank of a Sedge offset: bits [20:17]; [16:0] give the byte within it. -/
def bankOf (off : Nat) : Nat := off / 2 ^ 17 % 16

/-- The byte `j` beyond an offset. -/
def sedgeAt (off j : Nat) : Nat := (off + j) % 2 ^ 21

/-- The owner byte of a bank. -/
def Blk.bankOwner (b : Blk) (tile bank : Nat) : Nat :=
  (if bank < 8 then b.get Reg.SEDGE_OWN_LO_OWN tile else b.get Reg.SEDGE_OWN_HI_OWN tile) / 2 ^ (8 * (bank % 8)) % 256

/-- Set the owner byte of a bank. -/
def Blk.setOwner (b : Blk) (tile bank o : Nat) : Blk :=
  let f := if bank < 8 then Reg.SEDGE_OWN_LO_OWN else Reg.SEDGE_OWN_HI_OWN
  b.put f (putBits (b.get f tile) (8 * (bank % 8)) 8 o) tile

/-- An owner byte that may be written (Table 10.2). -/
def ownerOk (o : Nat) : Bool := o / 32 ≤ 4

/-- The owner byte of a window, and of a thread. -/
def windowOwner (w : Nat) : Nat := 4 * 32 + w
def threadOwner (h : Nat) : Nat := 32 + h
/-- An owner byte of KIND `mule`. -/
def isMule (o : Nat) : Bool := o / 32 == 2

/-- A byte of Sedge; what one holds that nothing has written is open. -/
def Blk.sedgeByte (b : Blk) (tile off : Nat) : Nat × Blk :=
  match Sparse.get 0 b.eng.sedge (tile * 2 ^ 21 + off) with
  | 0 => b.draw 256
  | v + 1 => (v, b)

/-- The bytes from an offset on, as a number, each place given by `place`. -/
def Blk.sedgeRead (b : Blk) (tile : Nat) (place : Nat → Nat) (n : Nat) : Nat × Blk :=
  (List.range n).foldl (fun (x : Nat × Blk) j =>
    let (v, b) := x.2.sedgeByte tile (place j)
    (x.1 + v <<< (8 * j), b)) (0, b)

/-- Bytes written, each at the place `place` gives. -/
def Blk.sedgeWrite (b : Blk) (tile : Nat) (place : Nat → Nat) (bytes : List Byte) : Blk :=
  let put (m : List (Nat × Nat)) (x : Byte × Nat) : List (Nat × Nat) := Sparse.set 0 m (tile * 2 ^ 21 + place x.2) (x.1.toNat + 1)
  { b with eng := { b.eng with sedge := bytes.zipIdx.foldl put b.eng.sedge } }

/-- The window's fields are per window w: 16 bytes apart. -/
def cbw (tile w : Nat) : Nat := tile * 8 + w

/-- Where window offset x lies: BASE + (x mod 2^SIZE_LOG2) (R315). -/
def Blk.cbwPlace (b : Blk) (tile w x : Nat) : Nat :=
  (b.get Reg.CBW_CFG_BASE (cbw tile w) * 64 + x % 2 ^ b.get Reg.CBW_CFG_SIZE_LOG2 (cbw tile w)) % 2 ^ 21

/-- The banks an access touches. -/
def Blk.touches (b : Blk) (tile : Nat) (a : SedgeAcc) : List Nat :=
  let of_ (place : Nat → Nat) (n : Nat) : List Nat := ((List.range n).map fun j => bankOf (place j)).eraseDups
  match a.act with
  | .read off n => of_ (sedgeAt off.toNat) n
  | .write off l => of_ (sedgeAt off.toNat) l.length
  | .own k _ => [k.val]
  | .winRead w x n => of_ (fun j => b.cbwPlace tile w.val (x.toNat + j)) n
  | .winWrite w x l => of_ (fun j => b.cbwPlace tile w.val (x.toNat + j)) l.length
  | .advance .. => []

/-- Bytes of a circular-buffer window are reached through the window alone. -/
def SedgeAct.window : SedgeAct → Option Nat
  | .winRead w _ _ => some w.val
  | .winWrite w _ _ => some w.val
  | .advance w _ _ => some w.val
  | _ => none

/-- The owner in whose right an access is made: its window, the thread a Mule moves data for where that thread owns the bank (R314), or the
party itself, as always in the write of an owner byte (R313). -/
def SedgeAcc.right (a : SedgeAcc) (owner : Nat) : Nat :=
  match a.act, a.act.window with
  | .own .., _ => a.by_.toNat
  | _, some w => windowOwner w
  | _, none => if isMule a.by_.toNat && owner == threadOwner a.serves.val then owner else a.by_.toNat

/-- An access by a party that may not make it (R312); a read of this kind gives zero; the descriptor it was made for ends INTERNAL. -/
def Blk.sedgeFault (b : Blk) (tile : Nat) (a : SedgeAcc) : Blk :=
  let b := (b.count Reg.SEDGE_OWNER_FAULT_CNT tile).err (Pg.tile tile) 0
  let b := match a.act with
    | .read .. | .winRead .. => b.emit (.sedge tile a.by_.toNat 0)
    | _ => b
  let hit (w : Work) : Work := if w.kind = 0 ∧ w.queue = a.q.toNat ∧ w.index = a.i ∧ w.open_ = true then { w with fault := true } else w
  { b with eng := { b.eng with works := b.eng.works.map hit } }

/-- An access of the old owner of a bank that has not finished (R313). -/
def Blk.bankBusy (b : Blk) (tile bank : Nat) : Bool :=
  b.eng.held.any fun x => x.1 == tile && (b.touches tile x.2).contains bank && x.2.right (b.bankOwner tile bank) == b.bankOwner tile bank

/-- A bank is being handed to an owner in whose right an access is made, and the handover has not taken effect. -/
def Blk.handing (b : Blk) (tile bank : Nat) (a : SedgeAcc) : Bool :=
  b.eng.handover.any fun h => h.1 == tile && h.2.1 == bank && h.2.2 != 0 && a.right h.2.2 == h.2.2

/-- How an access stands: it is made now, waits, or is refused. -/
inductive Stand where
  | go | wait | bad
  deriving DecidableEq, Repr

/-- An access of banks: each must be owned in its right (R312), and a bank of no owner accepts none but the
write that gives it one (log entry 60); where one is being handed over to it, it
waits (R313). -/
def Blk.bankStand (b : Blk) (tile : Nat) (a : SedgeAcc) : Stand :=
  let l := b.touches tile a
  let own_ : Bool := match a.act with
    | .own .. => true
    | _ => false
  let owns (k : Nat) : Bool := (own_ || b.bankOwner tile k != 0) && a.right (b.bankOwner tile k) == b.bankOwner tile k
  if l.all owns then .go
  else if l.all fun k => owns k || b.handing tile k a then .wait
  else .bad

/-- An access through a window (R316): by the party of its role, in an enabled window, within the limits its counts set. -/
def Blk.windowStand (b : Blk) (tile : Nat) (a : SedgeAcc) (w : Nat) : Stand :=
  let k := cbw tile w
  let prod := b.get Reg.CBW_PTR_PROD k
  let cons := b.get Reg.CBW_PTR_CONS k
  let held := subMod 32 prod cons
  let room := 2 ^ b.get Reg.CBW_CFG_SIZE_LOG2 k - held
  let role (producer : Bool) : Bool := b.flag Reg.CBW_CFG_EN k && a.by_.toNat == b.get (if producer then Reg.CBW_CFG_PRODUCER else Reg.CBW_CFG_CONSUMER) k
  let within (producer fits : Bool) : Stand := if role producer = false then .bad else if fits then .go else .wait
  match a.act with
  | .winWrite _ x l => within true (decide (subMod 32 x.toNat prod + l.length ≤ room))
  | .winRead _ x n => within false (decide (subMod 32 x.toNat cons + n ≤ held))
  | .advance _ p c => within p (decide (if p then subMod 32 c.toNat prod ≤ room else subMod 32 c.toNat cons ≤ held))
  | _ => .bad

/-- How an access stands now. -/
def Blk.stand (b : Blk) (tile : Nat) (a : SedgeAcc) : Stand :=
  match a.act.window with
  | none => b.bankStand tile a
  | some w =>
    match b.windowStand tile a w with
    | .go => b.bankStand tile a
    | s => s

/-- What an access that is made does. -/
def Blk.sedgeDo (b : Blk) (tile : Nat) (a : SedgeAcc) : Blk :=
  let read (place : Nat → Nat) (n : Nat) : Blk :=
    let (v, b) := b.sedgeRead tile place n
    b.emit (.sedge tile a.by_.toNat v)
  match a.act with
  | .read off n => read (sedgeAt off.toNat) n
  | .write off l => b.sedgeWrite tile (sedgeAt off.toNat) l
  | .winRead w x n => read (fun j => b.cbwPlace tile w.val (x.toNat + j)) n
  | .winWrite w x l => b.sedgeWrite tile (fun j => b.cbwPlace tile w.val (x.toNat + j)) l
  | .advance w p c => b.put (if p then Reg.CBW_PTR_PROD else Reg.CBW_PTR_CONS) c.toNat (cbw tile w.val)
  | .own k new =>
    if ownerOk new.toNat = false then b
    else if b.bankBusy tile k.val then
      { b with eng := { b.eng with handover := (b.eng.handover.filter fun h => !(h.1 == tile && h.2.1 == k.val)) ++ [(tile, k.val, new.toNat)] } }
    else b.setOwner tile k.val new.toNat

/-- One access: made, refused, or held until it may be made. -/
def Blk.sedgeTry (b : Blk) (x : Nat × SedgeAcc) : Blk :=
  match b.stand x.1 x.2 with
  | .go => b.sedgeDo x.1 x.2
  | .wait => { b with eng := { b.eng with held := b.eng.held ++ [x] } }
  | .bad => b.sedgeFault x.1 x.2

/-- Handovers whose old owner has nothing left at the bank take effect (R313). -/
def Blk.handOver (b : Blk) : Blk :=
  b.each b.eng.handover fun b h =>
    if b.bankBusy h.1 h.2.1 then b
    else { b with eng := { b.eng with handover := b.eng.handover.erase h } }.setOwner h.1 h.2.1 h.2.2

/-- One pass over what waits at Sedge, in order, then the handovers. -/
def Blk.sedgePass (b : Blk) : Blk := (({ b with eng := { b.eng with held := [] } }).each b.eng.held Blk.sedgeTry).handOver

/-- What waits at Sedge goes on until nothing more may. -/
def Blk.settleSedge : Nat → Blk → Blk
  | 0, b => b
  | n + 1, b => settleSedge n b.sedgePass

/-- Accesses that meet in one step: a thread's or function's first, then those of Mules, each of which waits while the core side holds
its bank, for 3 steps at most (R314). -/
def Blk.sedgeMeet (b : Blk) (tile : Nat) (l : List SedgeAcc) : Blk :=
  let core := l.filter fun a => !isMule a.by_.toNat
  let mules := l.filter fun a => isMule a.by_.toNat
  let waits (a : SedgeAcc) : Nat := Nat.min 3 (core.filter fun c => (b.touches tile c).any (b.touches tile a).contains).length
  let b := b.countN Reg.MULE_BANK_WAIT_CNT (mules.foldl (fun n a => n + waits a) 0) tile
  let b := b.each (core ++ mules) fun b a => b.sedgeTry (tile, a)
  Blk.settleSedge (b.eng.held.length + b.eng.handover.length) b

/-- SEDGE_OWNER_WRITE (R313): accesses that parties make at the tile's Sedge, then the write of a bank's owner byte by `by_`. -/
def Blk.ownerWrite (b : Blk) (tile : Nat) (bank : Fin 16) (by_ new : Byte) (q : Queue) (i : Nat) (before : List SedgeAcc) : Blk :=
  (b.sedgeMeet tile before).sedgeMeet tile [{ by_, act := .own bank new, q, i }]

/-- CBW_COUNT_ADVANCE (R316): accesses that parties make through the window, then the advance of the producer's or the consumer's count. -/
def Blk.countAdvance (b : Blk) (tile : Nat) (w : Fin 8) (by_ : Byte) (producer : Bool) (count : BitVec 32) (q : Queue) (i : Nat)
    (before : List SedgeAcc) : Blk :=
  (b.sedgeMeet tile before).sedgeMeet tile [{ by_, act := .advance w producer count, q, i }]

/-! ### Setting up a window (R315) -/

/-- A window's size and base are such as Table 10.15 and R315 give. -/
def CbwSetup.fits (x : CbwSetup) : Bool :=
  12 ≤ x.sizeLog2.val && x.sizeLog2.val ≤ 20 && x.base.toNat % 2 ^ x.sizeLog2.val == 0

/-- The owner byte of the row unit. -/
def rowUnit : Nat := 3 * 32 + 1

/-- A window that a Mule fills and the row unit empties (R442). -/
def Blk.rowWindow (b : Blk) (tile w : Nat) : Bool :=
  b.flag Reg.CBW_CFG_EN (cbw tile w) && isMule (b.get Reg.CBW_CFG_PRODUCER (cbw tile w)) && b.get Reg.CBW_CFG_CONSUMER (cbw tile w) == rowUnit

/-- Lines pass through a window: its producer writes each at PROD and goes on, and its consumer takes all that is there. -/
def Blk.throughWindow (b : Blk) (tile w : Nat) (lines : List Line) : Blk :=
  let k := cbw tile w
  let b := b.each lines fun b l =>
    let p := b.get Reg.CBW_PTR_PROD k
    (b.sedgeWrite tile (fun j => b.cbwPlace tile w (p + j)) (lineBytes l)).put Reg.CBW_PTR_PROD (p + 64) k
  b.put Reg.CBW_PTR_CONS (b.get Reg.CBW_PTR_PROD k) k

/-- The banks a window touches. -/
def CbwSetup.banks (x : CbwSetup) : List Nat :=
  (List.range (2 ^ (x.sizeLog2.val - 12))).map (fun j => bankOf (x.base.toNat + j * 2 ^ 12)) |>.eraseDups

/-- Firmware sets up and enables a window: the enable is ignored where a bank it touches is not the window's (R315). -/
def Blk.cbwEnable (b : Blk) (tile : Nat) (x : CbwSetup) : Blk :=
  if x.fits = false then b
  else if x.banks.all fun k => b.bankOwner tile k == windowOwner x.w.val then
    Blk.settleSedge b.eng.held.length
      (b.puts (cbw tile x.w.val) [(Reg.CBW_CFG_BASE, x.base.toNat / 64), (Reg.CBW_CFG_SIZE_LOG2, x.sizeLog2.val),
        (Reg.CBW_CFG_PRODUCER, x.producer.toNat), (Reg.CBW_CFG_CONSUMER, x.consumer.toNat), (Reg.CBW_CFG_EN, 1)])
  else b.err (Pg.tile tile) 0

end Sys2Proof.Machine
end

