-- ==== Sys2Proof/Machine/Peat.lean ====
section
/-! DEFINITION. The flash tier (ch. 09): dies and channels, the map, reads up the ladder, the log that takes write-downs, row
closing, upkeep, checkpoints and mount. What a die answers is the command's operand. -/
namespace Sys2Proof.Machine

def peatCmd : CmdReg := ⟨Reg.PEAT_CMD_STATUS_DONE, Reg.PEAT_CMD_STATUS_CODE, Pg.peat⟩

/-! ### Places on the dies (R278 to R280) -/

/-- The channel and die index of position p in group g (R279). -/
def chanOf (g p : Nat) : Nat := 16 * (g / 16) + p
def dieOf (g : Nat) : Nat := g % 16

/-- Index of a group's super-block in `sb`, and of a die's block in `blk` (Table 9.8). -/
def sbIdx (g s : Nat) : Nat := g * 8192 + s
def blkIdx (chan die s : Nat) : Nat := (chan * 16 + die) * 8192 + s

/-! Kinds of a die's block (Table 9.8). -/
namespace Bk
def good : Nat := 0
def factory : Nat := 1
def grown : Nat := 2
def deadDie : Nat := 3
end Bk

/-! States of a super-block (Table 9.8). -/
namespace Ss
def free : Nat := 0
def open_ : Nat := 1
def full : Nat := 2
def gc : Nat := 3
def retired : Nat := 4
def ckpt : Nat := 5
end Ss

/-- Multi-plane blocks per die and pages per block of the dies found. -/
def Blk.nandBlocks (b : Blk) : Nat := b.get Reg.PEAT_GEOM_BLOCKS
def Blk.nandPages (b : Blk) : Nat := b.get Reg.PEAT_GEOM_PAGES

/-- The enabled channels with dies. -/
def Blk.nandChans (b : Blk) : List Nat := (List.range 32).filter fun c => b.flag Reg.PCH_CTRL_ENABLE c && b.get Reg.PCH_CTRL_DIE_EN c != 0

/-- Dies enabled on a channel. -/
def Blk.diesOn (b : Blk) (c : Nat) : List Nat := (List.range 16).filter fun d => bitAt (b.get Reg.PCH_CTRL_DIE_EN c) d

/-- The parity groups populated (R279). -/
def Blk.nandGroups (b : Blk) : List Nat :=
  (List.range 32).filter fun g => (b.nandChans.contains (16 * (g / 16))) && (b.diesOn (16 * (g / 16))).contains (dieOf g)

/-- Member p of a super-block is good. -/
def Blk.memberGood (b : Blk) (g s p : Nat) : Bool := b.get Reg.blk_KIND (blkIdx (chanOf g p) (dieOf g) s) == Bk.good

/-- The good members of a super-block. -/
def Blk.goodMembers (b : Blk) (g s : Nat) : List Nat := (List.range 16).filter fun p => b.memberGood g s p

/-- The position that holds a row's parity (R280). -/
def Blk.parityPos (b : Blk) (g s r : Nat) : Nat :=
  (((List.range 16).map fun i => (s + r + i) % 16).find? fun p => b.memberGood g s p).getD 16

/-- The positions of a row that hold data. -/
def Blk.dataPos (b : Blk) (g s r : Nat) : List Nat := (b.goodMembers g s).filter fun p => p != b.parityPos g s r

/-- Slots of the configured dies (R282). -/
def Blk.nandSlots (b : Blk) : Nat := b.get Reg.PEAT_GEOM_DIES * b.nandBlocks * b.nandPages

/-- Units the map region takes: map, `blk` and `sb` tables (R283). -/
def Blk.mapUnits (b : Blk) : Nat :=
  (8 * (b.nandSlots * 7 / 8) + 8 * 8192 * b.get Reg.PEAT_GEOM_DIES + 16 * 8192 * b.nandGroups.length + 2 ^ 26 - 1) / 2 ^ 26

/-! ### The map -/

/-- The slot a logical block's map entry names. -/
def Blk.slotOfLbn (b : Blk) (lbn : Nat) : Slot :=
  { g := b.get Reg.lmap_GROUP lbn, sb := b.get Reg.lmap_SB lbn, row := b.get Reg.lmap_ROW lbn, pos := b.get Reg.lmap_POS lbn }

/-- A slot becomes invalid: its super-block holds one valid block fewer. -/
def Blk.lessValid (b : Blk) (g s : Nat) : Blk := b.put Reg.sb_VALID (b.get Reg.sb_VALID (sbIdx g s) - 1) (sbIdx g s)

/-- The map no longer names a copy of a block; one that was lost no longer counts in its super-block (R302). -/
def Blk.unmapLbn (b : Blk) (lbn : Nat) : Blk :=
  if b.flag Reg.lmap_V lbn = false then b
  else if b.peat.lost.contains lbn then { (b.clearEntry .t_lmap lbn) with peat := { b.peat with lost := b.peat.lost.erase lbn } }
  else (b.lessValid (b.get Reg.lmap_GROUP lbn) (b.get Reg.lmap_SB lbn)).clearEntry .t_lmap lbn

/-- The map names a new copy of a block (R289). -/
def Blk.mapLbn (b : Blk) (lbn : Nat) (x : Slot) : Blk :=
  let b := (b.unmapLbn lbn).puts lbn [(Reg.lmap_V, 1), (Reg.lmap_GROUP, x.g), (Reg.lmap_SB, x.sb), (Reg.lmap_ROW, x.row), (Reg.lmap_POS, x.pos)]
  b.put Reg.sb_VALID (b.get Reg.sb_VALID (sbIdx x.g x.sb) + 1) (sbIdx x.g x.sb)

/-- The valid blocks of a super-block that can be read. -/
def Blk.validIn (b : Blk) (g s : Nat) : List Nat :=
  (b.entriesWith Reg.lmap_V).filter fun k => b.get Reg.lmap_GROUP k == g && b.get Reg.lmap_SB k == s && !b.peat.lost.contains k

/-- What is done on the dies since the last checkpoint (R304). -/
def Blk.logPeat (b : Blk) (e : PeatEvent) : Blk := { b with peat := { b.peat with log := b.peat.log ++ [e] } }

/-! ### Super-blocks -/

/-- The super-blocks of the populated groups. -/
def Blk.allSb (b : Blk) : List (Nat × Nat) := b.nandGroups.flatMap fun g => (List.range b.nandBlocks).map fun s => (g, s)

/-- The state of a super-block. -/
def Blk.sbState (b : Blk) (x : Nat × Nat) : Nat := b.get Reg.sb_SSTATE (sbIdx x.1 x.2)

/-- A super-block takes no more blocks; its open row is closed in its time (R290). -/
def Blk.dropOpen (b : Blk) (g s : Nat) : Blk :=
  let here (o : OpenSb) : Bool := o.g == g && o.sb == s
  { b with peat := { b.peat with open_ := b.peat.open_.filter fun o => !here o
                                 closing := b.peat.closing ++ b.peat.open_.filter fun o => here o && o.used != [] } }

/-- GOOD of a super-block follows its members; fewer than 8 retire it (R300). -/
def Blk.refreshSb (b : Blk) (g s : Nat) : Blk :=
  let n := (b.goodMembers g s).length
  let b := b.put Reg.sb_GOOD n (sbIdx g s)
  if n < 8 then (b.put Reg.sb_SSTATE Ss.retired (sbIdx g s)).dropOpen g s else b

/-- The free super-blocks, and those not retired. -/
def Blk.freeSbs (b : Blk) : List (Nat × Nat) := b.allSb.filter fun x => b.sbState x == Ss.free
def Blk.liveSbs (b : Blk) : List (Nat × Nat) := b.allSb.filter fun x => b.sbState x != Ss.retired

/-- The cycles of a super-block. -/
def Blk.pe (b : Blk) (x : Nat × Nat) : Nat := b.get Reg.sb_PE (sbIdx x.1 x.2)

/-- The element of a list with the least key, the earliest on a tie. -/
def leastBy {α : Type} (key : α → Nat) : List α → Option α
  | [] => none
  | x :: xs =>
    match leastBy key xs with
    | none => some x
    | some y => if key y < key x then some y else some x

/-- MIN_PE, MAX_PE and AVG_PE (Table 9.7), over super-blocks not retired. -/
def Blk.minPe (b : Blk) : Nat := ((leastBy b.pe b.liveSbs).map b.pe).getD 0
def Blk.maxPe (b : Blk) : Nat := b.liveSbs.foldl (fun n x => Nat.max n (b.pe x)) 0
def Blk.avgPe (b : Blk) : Nat := (b.liveSbs.foldl (fun n x => n + b.pe x) 0) / Nat.max 1 b.liveSbs.length

/-- WEAR is set once AVG_PE reaches 90 % of RATED_PE. -/
def Blk.checkWear (b : Blk) : Blk :=
  if 9 * b.get Reg.PEAT_WL_RATED_PE ≤ 10 * b.avgPe ∧ bitAt (b.get Reg.ERR_STICKY_ERR Pg.peat) 7 = false then b.err Pg.peat 7 else b

/-! ### PEAT_STATE (R303) -/

/-- A block of a die is marked (Table 9.8), on the die as well (R300). -/
def Blk.markKind (b : Blk) (i kind : Nat) : Blk :=
  { b.put Reg.blk_KIND kind i with peat := { b.peat with kinds := b.peat.kinds ++ [(i, kind)] } }

/-- Dead dies of a group. -/
def Blk.deadIn (b : Blk) (g : Nat) : Nat :=
  ((List.range 16).filter fun p => bitAt (b.get Reg.PCH_STATE_DIE_DEAD (chanOf g p)) (dieOf g)).length

/-- Data slots of super-blocks not retired. -/
def Blk.dataSlots (b : Blk) : Nat :=
  b.liveSbs.foldl (fun n x => n + (b.get Reg.sb_GOOD (sbIdx x.1 x.2) - 1) * b.nandPages) 0

/-- The relocation of a super-block with a member on a dead die is due or runs. -/
def Blk.deadReloc (b : Blk) : Bool := b.peat.deadDue != []

/-- What PEAT_STATE is once mounted. -/
def Blk.mountedState (b : Blk) : Nat :=
  let l := b.get Reg.PEAT_LOGICAL_BLOCKS_COUNT
  if b.nandGroups.any fun g => decide (1 < b.deadIn g) then Ps.failed
  else if 100 * b.dataSlots < 102 * l then Ps.readOnly
  else if b.deadReloc || decide (100 * b.dataSlots < 104 * l) then Ps.degraded
  else Ps.ok

/-- Free super-blocks are below `pct2`/2 % of those not retired. -/
def Blk.freeBelow (b : Blk) (pct2 : Nat) : Bool := decide (200 * b.freeSbs.length < pct2 * b.liveSbs.length)

/-- PEAT_STATE follows; entering `read_only` or `failed` is recorded. -/
def Blk.refreshPeat (b : Blk) : Blk :=
  let old := b.get Reg.PEAT_STATE_STATE
  if old < Ps.ok then b
  else
    let s := b.mountedState
    let b := b.put Reg.PEAT_STATE_STATE s
    if s = old then b
    else if s = Ps.readOnly then b.err Pg.peat 5
    else if s = Ps.failed then b.err Pg.peat 6
    else b

/-! ### Reads (R286 to R288, R295, R299) -/

/-- A page of a member is read once more (R295). -/
def Blk.countRead (b : Blk) (x : Slot) : Blk :=
  let i := blkIdx (chanOf x.g x.pos) (dieOf x.g) x.sb
  let b := b.count Reg.PCH_READ_CNT (chanOf x.g x.pos)
  if b.get Reg.blk_READS i < 2 ^ 32 - 1 then b.put Reg.blk_READS (b.get Reg.blk_READS i + 1) i else b

/-- An erase. -/
def NandOp.erase (o : NandOp) : Bool := o.job == .erase

/-- An operation occupies a slot's die. -/
def NandOp.onDie (o : NandOp) (x : Slot) : Bool := o.at_.g == x.g && o.at_.pos == x.pos

/-- The die of a slot is dead (R301). -/
def Blk.dieGone (b : Blk) (x : Slot) : Bool := bitAt (b.get Reg.PCH_STATE_DIE_DEAD (chanOf x.g x.pos)) (dieOf x.g)

/-- The other good members of a slot's row. -/
def Blk.othersOf (b : Blk) (x : Slot) : List Nat := (b.goodMembers x.g x.sb).filter (· != x.pos)

/-- The pages a read takes: its own, but on a dead die; and its row's others, on a dead die or at step 4 (R286, R301). -/
def Blk.readDies (b : Blk) (r : NandRead) : List Slot :=
  (if b.dieGone r.at_ then [] else [r.at_]) ++
  (if r.row || b.dieGone r.at_ then (b.othersOf r.at_).map fun p => { r.at_ with pos := p } else [])

/-- The demand reads queued at an operation's die. -/
def Blk.readsAt (b : Blk) (o : NandOp) : List NandRead := b.peat.reads.filter fun r => !r.move && (b.readDies r).any o.onDie

/-- A demand read suspends the operation of its die, within SUSPEND_MAX (R299). -/
def Blk.suspendFor (b : Blk) (x : Slot) : Blk :=
  b.each (b.peat.ops.filter fun o => o.onDie x && !o.suspended && decide (o.suspends < b.get Reg.PEAT_TIMING_SUSPEND_MAX)) fun b o =>
    let b := b.count Reg.PCH_SUSPEND_CNT (chanOf x.g x.pos)
    let sus (p : NandOp) : NandOp :=
      if p.id = o.id then { p with suspended := true, suspends := p.suspends + 1, waits := (b.readsAt o).map (·.id) } else p
    { b with peat := { b.peat with ops := b.peat.ops.map sus } }

/-- A codeword fails every step (R288); `row`: its row was read for it, so that a failure finds another member of the row unreadable too (R302). -/
def Blk.readFail (b : Blk) (x : Slot) (row : Bool) : Blk :=
  let b := (b.count Reg.PEAT_READ_FAIL_CNT).err Pg.peat 0
  let b := if row then b.err Pg.peat 4 else b
  { b with peat := { b.peat with fails := if b.peat.fails.contains (x.g, x.sb) then b.peat.fails else b.peat.fails ++ [(x.g, x.sb)] } }

/-- A page is read of its die. -/
def Blk.readPage (b : Blk) (x : Slot) : Blk := b.emit (.flash 0 (chanOf x.g x.pos) (dieOf x.g) (x.sb * 4096 + x.row))

/-- A read goes to its dies; the pages of a dead die come from their rows alone (R301). Those of a row are counted as its codewords are made from
it. -/
def Blk.readAt (b : Blk) (r : NandRead) : Blk :=
  let b := { b with peat := { b.peat with nextId := b.peat.nextId + 1, reads := b.peat.reads ++ [{ r with id := b.peat.nextId, since := b.el }] } }
  (if b.dieGone r.at_ then b else b.countRead r.at_).each (b.readDies r) fun b x => b.readPage x

/-- A demand read of a block begins at the die its map entry names; one of a block that was lost fails (R302). -/
def Blk.startRead (b : Blk) (blk lbn : Nat) (pass : Bool) (sub : Nat) : Blk :=
  if b.peat.lost.contains lbn then
    let b := ((b.count Reg.PEAT_READ_FAIL_CNT).err Pg.peat 0).err Pg.peat 4
    if pass then { b with peat := { b.peat with passReady := b.peat.passReady ++ [(sub, none)] } }
    else { b with peat := { b.peat with ready := b.peat.ready ++ [(blk, none)] } }
  else
    let r : NandRead := { id := 0, pass, blk, sub, lbn, at_ := b.slotOfLbn lbn }
    (b.readAt r).each (b.readDies r) fun b x => b.suspendFor x

/-- A slot's row, and whether its parity is programmed (R290). -/
def Slot.rowOf (x : Slot) : Nat × Nat × Nat := (x.g, x.sb, x.row)
def Blk.guarded (b : Blk) (x : Slot) : Bool := !b.peat.bare.contains x.rowOf

/-- The steps of the ladder that a slot's codewords have (R286, R290, R301). -/
def Blk.steps (b : Blk) (x : Slot) : List Nat :=
  let row := if b.guarded x then [4] else []
  if b.dieGone x then row else 1 :: (List.replicate (b.get Reg.PEAT_TIMING_READ_RETRY_MAX) 2 ++ 3 :: row)

/-- The bytewise XOR of two pages or codewords; the shorter counts as zero beyond its end. -/
def xorLines : List Line → List Line → List Line
  | [], ys => ys
  | x :: xs, [] => x :: xs
  | x :: xs, y :: ys => (x ^^^ y) :: xorLines xs ys

/-- In how many bits two runs of lines differ. -/
def bitsApart (x y : List Line) : Nat :=
  (xorLines x y).foldl (fun n l => (List.range 512).foldl (fun n i => n + (if l.getLsbD i then 1 else 0)) n) 0

/-- Bytes 8 to 15 of a codeword's metadata, and its CRC (Table 9.3). -/
def cwWord (tenant cw kind lbn : Nat) : Nat := lbn + kind <<< 46 + cw <<< 48 + tenant <<< 52
def cwCrc (data : List Line) (wseq word : Nat) : Nat := crc32c (data.flatMap lineBytes ++ bytesLE 8 wseq ++ bytesLE 8 word)

/-- A try decodes: hard decoding corrects at least 100 bit errors (R281); what step 4 decodes is the XOR of the row's `others` other pages. -/
def Try.decodes (t : Try) (others : Nat) : Bool :=
  (t.good || (t.step != 3 && decide (t.corrected ≤ 100))) &&
  (t.step != 4 || (t.row.length == others && bitsApart ((t.row.foldl xorLines []).take 64) t.data ≤ t.corrected))

/-- A try of the ladder is accepted (R287). -/
def tryOk (t : Try) (others lbn cw tenant : Nat) : Bool :=
  t.decodes others && t.lbn == lbn && t.cw == cw && t.tenant == tenant && t.data.length == 64 &&
  t.crc == cwCrc t.data t.wseq (cwWord t.tenant t.cw t.kind t.lbn)

/-- The counts of the tries made at one codeword; the hard decode's read was counted as it began. -/
def Blk.countTry (b : Blk) (x : Slot) (t : Try) : Blk :=
  let c := chanOf x.g x.pos
  if t.step = 2 then (b.count Reg.PCH_RETRY_CNT c).countRead x
  else if t.step = 3 then ((b.countRead x).countRead x).countRead x
  else if t.step = 4 then b.each (b.othersOf x) fun b p => b.countRead { x with pos := p }
  else b

/-- The tries made at a codeword settle it: in the ladder's order up to the first that is accepted, or each of its steps in vain. -/
def settles (ok : Try → Bool) : List Nat → List Try → Bool
  | [], ts => ts == []
  | _ :: _, [] => false
  | n :: ns, t :: ts => t.step == n && (if ok t then ts == [] else settles ok ns ts)

/-- One codeword up the ladder: its tries in order until one is accepted; its data, or none. -/
def Blk.ladder (b : Blk) (r : NandRead) (cw tenant : Nat) (row : Bool) : List Try → Option (List Line) × Blk
  | [] => (none, b.readFail r.at_ row)
  | t :: ts =>
    let ok := tryOk t (b.othersOf r.at_).length r.lbn cw tenant
    let b := b.countTry r.at_ t
    if ok then
      let b := b.count Reg.PEAT_READ_CW_CNT
      let b := if t.step = 2 ∨ t.step = 3 then b.count Reg.PEAT_SOFT_CNT else b
      (some t.data, if t.step = 4 then (b.count Reg.PEAT_PARITY_RECOVER_CNT).err Pg.peat 1 else b)
    else b.ladder r cw tenant row ts

/-- The codewords of a read in order; none when one fails. -/
def Blk.ladders (b : Blk) (r : NandRead) (tenant : Nat) : List Nat → List (List Try) → Option (List Line) × Blk
  | [], _ => (some [], b)
  | cw :: cws, ts =>
    match b.ladder r cw tenant ((b.steps r.at_).contains 4) (ts.headD []) with
    | (a, b) =>
      match b.ladders r tenant cws ts.tail with
      | (c, b) => (a.bind fun x => c.map fun y => x ++ y, b)

/-- The codewords a read asks for. -/
def NandRead.words (r : NandRead) : List Nat := if r.pass then [r.sub % 16] else List.range 16

/-- The TENANT a read's codewords must carry (R287): its descriptor's; a block that upkeep reads keeps its own, that of the first try which but
for TENANT is accepted. -/
def Blk.tenantOf (b : Blk) (r : NandRead) (tries : List (List Try)) : Nat :=
  if r.move then
    let others := (b.othersOf r.at_).length
    (((r.words.zip tries).flatMap fun x => x.2.filter fun t => tryOk t others r.lbn x.1 t.tenant).head?.map (·.tenant)).getD 0
  else match b.placeOf (r.blk / 1024) with
    | some d => b.get Reg.place_TENANT d
    | none => 0

/-- The tries made settle every codeword of a read. -/
def Blk.readSettled (b : Blk) (r : NandRead) (tenant : Nat) (tries : List (List Try)) : Bool :=
  tries.length == r.words.length &&
  (r.words.zip tries).all fun x => settles (fun t => tryOk t (b.othersOf r.at_).length r.lbn x.1 tenant) (b.steps r.at_) x.2

/-- A die is held by an operation that goes on (R299). -/
def Blk.dieBusy (b : Blk) (x : Slot) : Bool := b.peat.ops.any fun o => o.onDie x && !o.suspended

/-- A die that a read takes is held by an operation that goes on. -/
def Blk.readBusy (b : Blk) (r : NandRead) : Bool := (b.readDies r).any b.dieBusy

/-- What a read gave goes to the fetch or the pass-through it was for, where that still waits; a block that relocation moves waits for its program
while the map names what was read (R292), or is lost (R302). -/
def Blk.readDone (b : Blk) (r : NandRead) (tenant : Nat) (got : Option (List Line)) : Blk :=
  if r.move then
    if b.flag Reg.lmap_V r.lbn = false ∨ b.slotOfLbn r.lbn ≠ r.at_ then b
    else
      match got with
      | none => { (b.lessValid r.at_.g r.at_.sb) with peat := { b.peat with lost := b.peat.lost ++ [r.lbn] } }
      | some ls =>
        let wl := match b.peat.reloc with
          | some (_, _, order) => order == 6
          | none => false
        { b with peat := { b.peat with todo := b.peat.todo ++ [(.copy r.lbn r.at_ tenant ls wl, none)] } }
  else if r.pass then
    if !r.stale && b.home.reqs.any fun q => q.wait == .pass && q.off / 4096 == r.sub then
      { b with peat := { b.peat with passReady := b.peat.passReady ++ [(r.sub, got)] } }
    else b
  else if (b.fetchOf r.blk).isSome then { b with peat := { b.peat with ready := b.peat.ready ++ [(r.blk, got)] } }
  else b

/-- A read of a codeword comes to its row (R286, step 4). -/
def needsRow (tries : List (List Try)) : Bool := tries.flatten.any (·.step == 4)

/-- A read's row is read as well: a demand read suspends the operations of its dies (R299). -/
def Blk.readRow (b : Blk) (r : NandRead) : Blk :=
  let b := { b with peat := { b.peat with reads := b.peat.reads.map fun (p : NandRead) => if p.id = r.id then r else p } }
  let b := b.each (b.othersOf r.at_) fun b p => b.readPage { r.at_ with pos := p }
  if r.move then b else b.each (b.readDies r) fun b x => b.suspendFor x

/-- A read of a die completes: its codewords are decoded up the ladder (R286). `tries`: for each codeword asked for, what each
step of the ladder gave, as far as it went. It waits for an operation that one of its dies may not suspend again. -/
def Blk.nandRead (b : Blk) (id : Nat) (tries : List (List Try)) : Blk :=
  match b.peat.reads.find? (·.id == id) with
  | none => b
  | some r =>
    let tenant := b.tenantOf r tries
    let rowed : NandRead := { r with row := r.row || needsRow tries }
    let b := if b.readSettled r tenant tries && rowed.row && !r.row && !b.dieGone r.at_ then b.readRow rowed else b
    if b.readBusy rowed = true ∨ b.readSettled r tenant tries = false then b
    else
      let b := { b with peat := { b.peat with reads := b.peat.reads.filter (·.id ≠ id) } }
      match b.ladders r tenant r.words tries with
      | (got, b) => b.readDone r tenant got

/-- A suspended operation resumes once the reads it was suspended for are done; reads that came since suspend it again, within
SUSPEND_MAX (R299). -/
def Blk.programResume (b : Blk) (id : Nat) : Blk :=
  match b.peat.ops.find? fun o => o.id == id && o.suspended && o.waits.all (fun w => !b.peat.reads.any (·.id == w)) with
  | none => b
  | some o =>
    let again (p : NandOp) : NandOp := if p.id = id then { p with suspended := false, waits := [], since := b.el } else p
    let b := { b with peat := { b.peat with ops := b.peat.ops.map again } }
    match b.readsAt o with
    | [] => b
    | _ :: _ => b.suspendFor o.at_

/-! ### The log (R289 to R291, R297) -/

/-- A group's open super-block for a use, opened from the free ones where it has none: the lowest PE, or the highest for
relocations of row 6 (R297). -/
def Blk.openSb (b : Blk) (g : Nat) (wl : Bool) : Option OpenSb × Blk :=
  match b.peat.open_.find? fun o => o.g == g && o.wl == wl with
  | some o => (some o, b)
  | none =>
    match leastBy (fun x => if wl then 2 ^ 16 - b.pe x else b.pe x) (b.freeSbs.filter (·.1 == g)) with
    | none => (none, b)
    | some x =>
      let o : OpenSb := { g, sb := x.2, wl }
      let time := b.now / 1000000000 % 2 ^ 32
      let b := ((b.put Reg.sb_SSTATE Ss.open_ (sbIdx g x.2)).put Reg.sb_PROG_TIME time (sbIdx g x.2)).logPeat (.opened g x.2 time)
      (some o, { b with peat := { b.peat with open_ := b.peat.open_ ++ [o], progAt := Sparse.set 0 b.peat.progAt (sbIdx g x.2) b.el } })

/-- A row by its place, and a change to it, open or closing. -/
def OpenSb.rowOf (o : OpenSb) : Nat × Nat × Nat := (o.g, o.sb, o.row)
def Blk.modRow (b : Blk) (r : Nat × Nat × Nat) (f : OpenSb → OpenSb) : Blk :=
  let g (o : OpenSb) : OpenSb := if o.rowOf = r then f o else o
  { b with peat := { b.peat with open_ := b.peat.open_.map g, closing := b.peat.closing.map g } }

/-- A row of an open super-block takes no more blocks; the next row opens, until the last. -/
def Blk.shutRow (b : Blk) (o : OpenSb) : Blk :=
  let next (p : OpenSb) : List OpenSb :=
    if p.rowOf ≠ o.rowOf then [p]
    else if o.row + 1 < b.nandPages then [{ p with row := o.row + 1, used := [], since := b.el, sum := [] }]
    else []
  { b with peat := { b.peat with open_ := b.peat.open_.flatMap next, closing := b.peat.closing ++ [o] } }

/-- The data positions of a row not yet given out. -/
def Blk.unfilled (b : Blk) (o : OpenSb) : List Nat := (b.dataPos o.g o.sb o.row).filter fun p => !o.used.contains p

/-- The next free slot of the log, outside the row `avoid`: open rows are taken in turn across groups. -/
def Blk.takeSlot (wl : Bool) (avoid : Option (Nat × Nat × Nat)) : Nat → Nat → Blk → Option Slot × Blk
  | 0, _, b => (none, b)
  | n + 1, i, b =>
    match b.nandGroups with
    | [] => (none, b)
    | gs =>
      match b.openSb (nth 0 gs (i % gs.length)) wl with
      | (none, b) => takeSlot wl avoid n (i + 1) b
      | (some o, b) =>
        if avoid = some o.rowOf then takeSlot wl avoid n (i + 1) b
        else
          match b.unfilled o with
          | [] => takeSlot wl avoid n i (b.shutRow o)
          | p :: rest =>
            let o' := { o with used := o.used ++ [p], since := if o.used = [] then b.el else o.since }
            let b := b.modRow o.rowOf fun _ => o'
            let b := { b with peat := { b.peat with rr := i + 1, bare := if o.used = [] then b.peat.bare ++ [o.rowOf] else b.peat.bare } }
            (some { g := o.g, sb := o.sb, row := o.row, pos := p }, if rest = [] then b.shutRow o' else b)

/-- A slot for one more program; none while the log is full. -/
def Blk.newSlot (b : Blk) (wl : Bool) (avoid : Option (Nat × Nat × Nat)) : Option Slot × Blk :=
  Blk.takeSlot wl avoid (2 * b.nandGroups.length + 2) b.peat.rr b

/-- A codeword of 72 lines: 64 of data, the metadata, the LDPC parity (R281). -/
def codeword (wseq tenant kind lbn : Nat) (data : List Line) (cw : Nat) : List Line :=
  let part := (data.drop (64 * cw)).take 64
  let word := cwWord tenant cw kind lbn
  let md := wseq + word <<< 64 + cwCrc part wseq word <<< 128
  part ++ toLines 8 (md + (Config.ldpc part md).toNat <<< 256)

/-- A multi-plane page: the sixteen codewords of a tier block (R281). -/
def pageOf (wseq tenant kind lbn : Nat) (data : List Line) : List Line := (List.range 16).flatMap (codeword wseq tenant kind lbn data)

/-- An operation goes to its die, behind the demand reads queued there. -/
def Blk.dieOp (b : Blk) (job : NandJob) (x : Slot) (wseq : Nat) (page : List Line) : Blk :=
  let o : NandOp := { id := b.peat.nextId, job, at_ := x, wseq, page, since := b.el }
  let waits := (b.readsAt o).map (·.id)
  let b := { b with peat := { b.peat with nextId := b.peat.nextId + 1, ops := b.peat.ops ++ [{ o with waits, suspended := waits != [] }] } }
  if job = .erase then b.emit (.flash 2 (chanOf x.g x.pos) (dieOf x.g) (x.sb * 4096)) else b.emit (.program (chanOf x.g x.pos) (dieOf x.g) (x.sb * 4096 + x.row) page)

/-- A page of data is programmed in a slot, with a WSEQ of its own. -/
def Blk.program (b : Blk) (job : NandJob) (x : Slot) (tenant kind lbn : Nat) (data : List Line) : Blk :=
  let w := b.peat.wseq
  { b with peat := { b.peat with wseq := w + 1 } }.dieOp job x w (pageOf w tenant kind lbn data)

/-- A `pad` fills a slot (R290): what it carries beside KIND is not stated. -/
def Blk.programPad (b : Blk) (x : Slot) : Blk :=
  let (d, b) := b.draw (2 ^ (512 * 1024))
  let (t, b) := b.draw (2 ^ 12)
  let (l, b) := b.draw (2 ^ 34)
  b.program .pad x t 2 l (toLines 1024 d)

/-- A program waits for a slot. -/
def Blk.putOff (b : Blk) (job : NandJob) (avoid : Option (Nat × Nat × Nat)) : Blk :=
  { b with peat := { b.peat with todo := b.peat.todo ++ [(job, avoid)] } }

/-- A block is programmed in the next slot, from its frame or as relocation read it, or waits for one (R289, R291, R292). A frame with a line that may
not be sent makes its write-down fail (R268); a copy is dropped once the map names another slot than it was read from. -/
def Blk.startJob (b : Blk) (job : NandJob) (avoid : Option (Nat × Nat × Nat)) : Blk :=
  match job with
  | .down blk lbn =>
    if b.peat.held then b.putOff job avoid
    else if b.badLines blk then
      { b with tier := { b.tier with downs := b.tier.downs.map fun (x : Down) => if x.block = blk then { x with bad := true } else x } }
    else
      match b.newSlot false avoid with
      | (none, b) => b.putOff job avoid
      | (some x, b) =>
        let (data, b) := b.blockCipher blk
        let tenant := match b.placeOf (blk / 1024) with
          | some d => b.get Reg.place_TENANT d
          | none => 0
        b.program job x tenant 0 lbn data
  | .copy lbn src tenant data wl =>
    if b.flag Reg.lmap_V lbn = false ∨ b.slotOfLbn lbn ≠ src then b
    else
      match b.newSlot wl avoid with
      | (none, b) => b.putOff job avoid
      | (some x, b) => b.program job x tenant 0 lbn data
  | _ => b

/-! ### Erases (R280, R292, R295) -/

/-- What an erase makes of a super-block's tables: READS are zero again, and it is free while enough members are good (R292, R295). -/
def Blk.eraseTable (b : Blk) (g s : Nat) : Blk :=
  let i := sbIdx g s
  let b := b.each (List.range 16) fun b p => b.put Reg.blk_READS 0 (blkIdx (chanOf g p) (dieOf g) s)
  let b := b.puts i [(Reg.sb_PE, Nat.min (2 ^ 16 - 1) (b.get Reg.sb_PE i + 1)), (Reg.sb_SCRUB_BITS, 0), (Reg.sb_VALID, 0)]
  let b := b.refreshSb g s
  if b.get Reg.sb_SSTATE i = Ss.retired then b else b.put Reg.sb_SSTATE Ss.free i

/-- A super-block is erased: nothing it held or was due for is left. -/
def Blk.eraseSb (b : Blk) (g s : Nat) : Blk :=
  let b := (b.count Reg.PEAT_ERASE_CNT).eraseTable g s
  let gone (e : PeatEvent) : Bool := match e with
    | .wrote _ x _ => x.g == g && x.sb == s
    | _ => false
  let b := { b with peat := { b.peat with
      log := (b.peat.log.filter fun (e : PeatEvent) => !gone e) ++ [PeatEvent.erased g s], bare := b.peat.bare.filter fun r => !(r.1 == g && r.2.1 == s)
      fails := b.peat.fails.filter (· != (g, s)), noParity := b.peat.noParity.filter (· != (g, s))
      deadDue := b.peat.deadDue.filter (· != (g, s)), scrubDue := b.peat.scrubDue.filter (· != (g, s)) } }
  let b := Blk.checkWear b
  let stop := !b.freeBelow (2 * b.get Reg.PEAT_GC_GC_STOP_PCT)
  { b with peat := { b.peat with gc := b.peat.gc && !stop } }.refreshPeat

/-- A member of a super-block is being erased. -/
def Blk.erasing (b : Blk) (g s : Nat) : Bool := b.peat.ops.any fun o => o.erase && o.at_.g == g && o.at_.sb == s

/-- A super-block is erased as a whole once none of its members is being erased any more (R280). -/
def Blk.eraseEnds (b : Blk) (g s : Nat) : Blk := if b.erasing g s then b else b.eraseSb g s

/-- The erase of a super-block begins, on the die of each of its good members. -/
def Blk.startErase (b : Blk) (g s : Nat) : Blk :=
  (b.each (b.goodMembers g s) fun b p => b.dieOp .erase { g, sb := s, row := 0, pos := p } 0 []).eraseEnds g s

/-! ### Bad blocks and dead dies (R291, R300, R301) -/

/-- The operations on a row have ended. -/
def Blk.rowQuiet (b : Blk) (r : Nat × Nat × Nat) : Bool := !b.peat.ops.any fun o => !o.erase && o.at_.rowOf == r

/-- A closing row is done with: after the last, its super-block is full. -/
def Blk.rowEnds (b : Blk) (o : OpenSb) : Blk :=
  let b := { b with peat := { b.peat with closing := b.peat.closing.filter fun p => p.rowOf != o.rowOf } }
  if o.row + 1 < b.nandPages ∨ b.sbState (o.g, o.sb) ≠ Ss.open_ then b else b.put Reg.sb_SSTATE Ss.full (sbIdx o.g o.sb)

/-- A closing row whose slots are programmed has its parity programmed (R290); none is, where bad blocks have left no position for it. -/
def Blk.rowGoes (b : Blk) (o : OpenSb) : Blk :=
  if b.unfilled o ≠ [] ∨ b.rowQuiet o.rowOf = false then b
  else
    let p := b.parityPos o.g o.sb o.row
    if p = 16 ∨ o.used.contains p then b.rowEnds o
    else b.dieOp .parity { g := o.g, sb := o.sb, row := o.row, pos := p } 0 o.sum

/-- The slots of a closing row that are unfilled are programmed as `pad` (R290). -/
def Blk.padRow (b : Blk) (o : OpenSb) : Blk :=
  let pads := b.unfilled o
  let b := b.modRow o.rowOf fun o => { o with used := o.used ++ pads }
  b.each pads fun b p => b.programPad { g := o.g, sb := o.sb, row := o.row, pos := p }

/-- A row closes (R290). -/
def Blk.closeRow (b : Blk) (o : OpenSb) : Blk :=
  (if b.peat.open_.any fun p => p.rowOf == o.rowOf then b.shutRow o else b).padRow o

/-- The blocks of a dead die are marked (R301). -/
def Blk.markDead (b : Blk) (c d : Nat) : Blk :=
  b.each (List.range b.nandBlocks) fun b s => (b.put Reg.blk_KIND Bk.deadDie (blkIdx c d s)).refreshSb (16 * (c / 16) + d) s

/-- The super-blocks that hold blocks of a dead die are due for relocation (R301). -/
def Blk.moveDead (b : Blk) (c d : Nat) : Blk :=
  let g := 16 * (c / 16) + d
  let due := (List.range b.nandBlocks).filter fun s =>
    b.sbState (g, s) == Ss.open_ || b.sbState (g, s) == Ss.full || b.sbState (g, s) == Ss.gc || decide (0 < b.get Reg.sb_VALID (sbIdx g s))
  { b with peat := { b.peat with deadDue := b.peat.deadDue ++ due.map fun s => (g, s) } }

/-- The block's program, or the copy's, is repeated (R291). -/
def Blk.repeatJob (b : Blk) (job : NandJob) (avoid : Option (Nat × Nat × Nat)) : Blk :=
  match job with
  | .down .. | .copy .. => b.putOff job avoid
  | _ => b

/-- A die is declared dead (R301): its programs are repeated elsewhere, and the super-blocks that hold blocks of it are due for relocation. -/
def Blk.dieDead (b : Blk) (c d : Nat) : Blk :=
  if bitAt (b.get Reg.PCH_STATE_DIE_DEAD c) d = true ∨ (b.diesOn c).contains d = false then b
  else
    let b := (b.put Reg.PCH_STATE_DIE_DEAD (b.get Reg.PCH_STATE_DIE_DEAD c ||| 2 ^ d) c).err Pg.peat 3
    let g := 16 * (c / 16) + d
    let b := (b.markDead c d).moveDead c d
    let onDie (o : NandOp) : Bool := o.at_.g == g && o.at_.pos == c % 16
    let cut := b.peat.ops.filter onDie
    let b := { b with peat := { b.peat with ops := b.peat.ops.filter fun o => !onDie o } }
    (b.each cut fun b o => if o.erase then b.eraseEnds g o.at_.sb else b.repeatJob o.job none).refreshPeat

/-- Blocks of a die marked `grown` within the last hour (R301). -/
def Blk.grownOn (b : Blk) (c d : Nat) : Nat :=
  (b.peat.grownAt.filter fun e => e.1 == c * 16 + d && !b.past e.2 (secs 3600)).length

/-- Sixteen blocks of a die were marked within the last hour. -/
def Blk.wornDie (b : Blk) (c d : Nat) : Bool := decide (16 ≤ b.grownOn c d)

/-- Mark a member's block `grown` (R291); the sixteenth of a die within one hour declares it dead (R301). -/
def Blk.growBad (b : Blk) (x : Slot) : Blk :=
  let c := chanOf x.g x.pos
  let d := dieOf x.g
  let b := b.markKind (blkIdx c d x.sb) Bk.grown
  let b := ((b.count Reg.PEAT_GROWN_BAD_CNT).count Reg.PCH_STATUS_FAIL_CNT c).err Pg.peat 2
  let b := { b with peat := { b.peat with grownAt := b.peat.grownAt ++ [(c * 16 + d, b.el)] } }
  let b := (b.logPeat (.marked (blkIdx c d x.sb) Bk.grown)).refreshSb x.g x.sb
  if b.wornDie c d then b.dieDead c d else b.refreshPeat

/-- A die has not answered for 10 ms (R301): a read or an operation that it is not suspended from. -/
def Blk.dieSilent (b : Blk) (c d : Nat) : Bool :=
  let x : Slot := { g := 16 * (c / 16) + d, sb := 0, row := 0, pos := c % 16 }
  (b.peat.reads.any fun r => r.at_.g == x.g && r.at_.pos == x.pos && !b.dieBusy x && b.past r.since (us 10000)) ||
  b.peat.ops.any fun o => o.onDie x && !o.suspended && b.past o.since (us 10000)

/-- DIE_TIMEOUT (R301). -/
def Blk.dieTimeout (b : Blk) (c d : Nat) : Blk := if b.dieSilent c d || b.wornDie c d then b.dieDead c d else b

/-! ### Programs complete -/

/-- What a program that passed has done: the map names a write-down's new slot, and the write-down is complete (R289), or a copy's while it still names the slot that was read
(R292); a row's parity guards it (R290). -/
def Blk.jobPassed (b : Blk) (o : NandOp) : Blk :=
  match o.job with
  | .down blk lbn =>
    let b := ((b.mapLbn lbn o.at_).count Reg.PEAT_PROG_BLK_CNT).logPeat (.wrote lbn o.at_ o.wseq)
    let b := { b with peat := { b.peat with
      reads := b.peat.reads.map fun (r : NandRead) => if r.pass ∧ r.lbn = lbn then { r with stale := true } else r
      passReady := b.peat.passReady.filter fun x => x.1 / 16 != blk } }
    match b.tier.downs.find? (·.block == blk) with
    | some x => b.downEnd x true
    | none => b
  | .copy lbn src _ _ _ =>
    let b := b.logPeat (.wrote lbn o.at_ o.wseq)
    if b.flag Reg.lmap_V lbn = true ∧ b.slotOfLbn lbn = src then (b.mapLbn lbn o.at_).count Reg.PEAT_RELOC_BLK_CNT else b
  | .void lbn => b.logPeat (.wrote lbn o.at_ o.wseq)
  | .parity =>
    let b := { b with peat := { b.peat with bare := b.peat.bare.filter (· != o.at_.rowOf) } }
    b.each (b.peat.closing.filter fun p => p.rowOf == o.at_.rowOf) fun b p => b.rowEnds p
  | .pad | .erase => b

/-- A program completes: with pass status it counts in its row's parity; with fail status the member's block is marked and the
program is repeated in another row (R289, R291). -/
def Blk.programDone (b : Blk) (id : Nat) (pass : Bool) : Blk :=
  match b.peat.ops.find? fun o => o.id == id && !o.erase && !o.suspended with
  | none => b
  | some o =>
    let b := { b with peat := { b.peat with ops := b.peat.ops.filter (·.id ≠ id) } }
    let b := b.count Reg.PCH_PROG_CNT (chanOf o.at_.g o.at_.pos)
    if pass then ((b.modRow o.at_.rowOf fun r => { r with sum := xorLines r.sum o.page }).jobPassed o).refreshPeat
    else (b.growBad o.at_).repeatJob o.job (some o.at_.rowOf)

/-- ROW_CLOSE_US after a row's first program the row closes (R290). -/
def Blk.rowTimeout (b : Blk) (g s : Nat) : Blk :=
  let due (o : OpenSb) : Bool :=
    o.g == g && o.sb == s && o.used != [] && (b.unfilled o != [] || !b.peat.closing.contains o) && b.past o.since (us (b.get Reg.PEAT_TIMING_ROW_CLOSE_US))
  match (b.peat.closing ++ b.peat.open_).find? due with
  | none => b
  | some o => b.closeRow o

/-! ### Relocation and erase (R292 to R294) -/

/-- A super-block that can be relocated. -/
def Blk.movable (b : Blk) (x : Nat × Nat) : Bool :=
  b.sbState x == Ss.full || b.sbState x == Ss.open_ || (b.sbState x == Ss.retired && decide (0 < b.get Reg.sb_VALID (sbIdx x.1 x.2)))

/-- The super-block the highest-order trigger of Table 9.5 chooses, with its order. -/
def Blk.trigger (b : Blk) : Option ((Nat × Nat) × Nat) :=
  let all := b.allSb.filter b.movable
  let old (x : Nat × Nat) : Bool := decide (secs (b.get Reg.PEAT_RET_RET_MAX_AGE_D * 86400) < b.el - Sparse.get 0 b.peat.progAt (sbIdx x.1 x.2))
  let one := b.allSb.find? fun x => (b.peat.fails.contains x || b.peat.deadDue.contains x) &&
    (b.sbState x == Ss.full || b.sbState x == Ss.open_ || b.sbState x == Ss.retired)
  let two := all.find? fun x => b.peat.noParity.contains x
  let three := all.find? fun x => (List.range 16).any fun p =>
    decide (b.get Reg.PEAT_DISTURB_RD_THRESH ≤ b.get Reg.blk_READS (blkIdx (chanOf x.1 p) (dieOf x.1) x.2))
  let four := all.find? fun x => decide (b.get Reg.PEAT_RET_RET_BITS ≤ b.get Reg.sb_SCRUB_BITS (sbIdx x.1 x.2)) || old x
  let five := if b.peat.gc || b.freeBelow (2 * b.get Reg.PEAT_GC_GC_START_PCT) then
      leastBy (fun x => b.get Reg.sb_VALID (sbIdx x.1 x.2) * 2 ^ 32 + b.get Reg.sb_PROG_TIME (sbIdx x.1 x.2)) (all.filter fun x => b.sbState x == Ss.full)
    else none
  let six := if b.get Reg.PEAT_WL_WL_DELTA < b.maxPe - b.minPe then leastBy b.pe (all.filter fun x => b.sbState x == Ss.full) else none
  let tag (o : Option (Nat × Nat)) (n : Nat) : Option ((Nat × Nat) × Nat) := o.map fun x => (x, n)
  (tag one 1) <|> (tag two 2) <|> (tag three 3) <|> (tag four 4) <|> (tag five 5) <|> (tag six 6)

/-- RELOCATION_START (R294): the super-block takes no more blocks. -/
def Blk.relocStart (b : Blk) : Blk :=
  if b.peat.reloc.isSome ∨ b.get Reg.PEAT_STATE_STATE < Ps.ok then b
  else
    match b.trigger with
    | none => b
    | some (x, order) =>
      let b := (if b.sbState x = Ss.retired then b else b.put Reg.sb_SSTATE Ss.gc (sbIdx x.1 x.2)).dropOpen x.1 x.2
      { b with peat := { b.peat with reloc := some (x.1, x.2, order), gc := b.peat.gc || order == 5 } }

/-- A job copies a block. -/
def NandJob.copies (j : NandJob) (lbn : Nat) : Bool := match j with
  | .copy k .. => k == lbn
  | _ => false

/-- A block is on its way from the super-block in relocation. -/
def Blk.moving (b : Blk) (lbn : Nat) : Bool :=
  b.peat.reads.any (fun r => r.move && r.lbn == lbn) || b.peat.ops.any (·.job.copies lbn) || b.peat.todo.any (·.1.copies lbn)

/-- A demand read is queued at a die of a channel. -/
def Blk.demandOn (b : Blk) (c : Nat) : Bool := b.peat.reads.any fun r => !r.move && (b.readDies r).any fun x => chanOf x.g x.pos == c

/-- Upkeep may read on a channel: no demand read waits there, or upkeep has had nothing of the channel for 10 ms and is due its least share of it
(R298, log entry 98). -/
def Blk.upkeepTurn (b : Blk) (c : Nat) : Bool :=
  !b.demandOn c ||
  (b.get Reg.PEAT_GC_UPKEEP_MIN_PCT != 0 && (b.peat.upkeepAt.find? (·.1 == c)).all fun x => b.past x.2 (us 10000))

/-- Upkeep has a channel. -/
def Blk.tookChannel (b : Blk) (c : Nat) : Blk := { b with peat := { b.peat with upkeepAt := b.peat.upkeepAt.filter (·.1 != c) ++ [(c, b.el)] } }

/-- Relocation reads each valid block of its super-block (R292), in upkeep's turn on its channel. -/
def Blk.relocGoes (b : Blk) : Blk :=
  match b.peat.reloc with
  | none => b
  | some (g, s, _) =>
    b.each ((b.validIn g s).filter fun lbn => !b.moving lbn) fun b lbn =>
      let x := b.slotOfLbn lbn
      if b.upkeepTurn (chanOf x.g x.pos) then
        (b.readAt { id := 0, pass := false, blk := 0, lbn, at_ := x, move := true }).tookChannel (chanOf x.g x.pos)
      else b

/-- RELOCATION_COMPLETE: the valid blocks have been copied, every read and program of the super-block that had begun has ended, and its erase
begins (R292, R293). -/
def Blk.relocDone (b : Blk) : Blk :=
  match b.peat.reloc with
  | none => b
  | some (g, s, _) =>
    if b.validIn g s ≠ [] ∨ (b.peat.reads.any fun r => r.at_.g == g && r.at_.sb == s) = true ∨
        (b.peat.ops.any fun o => o.at_.g == g && o.at_.sb == s) = true ∨ (b.peat.closing.any fun o => o.g == g && o.sb == s) = true then b
    else { b with peat := { b.peat with reloc := none } }.startErase g s

/-- ERASE_COMPLETE: the erase of one member's block has ended, with fail status where `pass` is false (R291); the super-block's erase ends with its
last (R280, R292). -/
def Blk.eraseDone (b : Blk) (id : Nat) (pass : Bool) : Blk :=
  match b.peat.ops.find? fun o => o.id == id && o.erase && !o.suspended with
  | none => b
  | some o =>
    let x := o.at_
    let b := { b with peat := { b.peat with ops := b.peat.ops.filter (·.id ≠ id) } }
    let b := b.count Reg.PCH_ERASE_CNT (chanOf x.g x.pos)
    (if pass || !b.memberGood x.g x.sb x.pos then b else b.growBad x).eraseEnds x.g x.sb

/-- The super-blocks still due for a scrub after a mount (R296): those with a valid block that this period has not scrubbed. -/
def Blk.scrubLeft (b : Blk) : List (Nat × Nat) :=
  b.peat.scrubDue.filter fun y => (b.validIn y.1 y.2).any fun k => !b.peat.scrubbed.contains k

/-- The most bits corrected in a codeword that was accepted. -/
def Blk.mostFixed (b : Blk) (r : NandRead) (tenant : Nat) (tries : List (List Try)) : Nat :=
  (r.words.zip tries).foldl (fun n x =>
    match x.2.find? fun t => tryOk t (b.othersOf r.at_).length r.lbn x.1 tenant with
    | some t => Nat.max n t.corrected
    | none => n) 0

/-- The period of the retention scrub restarts once it is over and what was due since the last mount has been scrubbed or relocated (R296). -/
def Blk.scrubPeriod (b : Blk) : Blk :=
  if b.past b.peat.scrubAt (secs (86400 * b.get Reg.PEAT_RET_RET_PERIOD_D)) && b.scrubLeft == [] then
    { b with peat := { b.peat with scrubbed := [], scrubAt := b.el, scrubDue := [] } }
  else b

/-- RETENTION_SCRUB (R296): a valid block is read, once in each period, in upkeep's turn on its channel; its codewords go up the ladder (`tries`),
and the largest correction of its super-block is kept. None in P3. -/
def Blk.retentionScrub (b : Blk) (lbn : Nat) (tries : List (List Try)) : Blk :=
  if b.flag Reg.lmap_V lbn = false ∨ b.peat.lost.contains lbn = true ∨ b.get Reg.PEAT_STATE_STATE < Ps.ok ∨ b.aon.mode = .p3 then b
  else
    let b := b.scrubPeriod
    let x := b.slotOfLbn lbn
    let r : NandRead := { id := 0, pass := false, blk := 0, lbn, at_ := x, move := true, row := needsRow tries }
    let tenant := b.tenantOf r tries
    if b.peat.scrubbed.contains lbn || !b.upkeepTurn (chanOf x.g x.pos) || b.readBusy r || !b.readSettled r tenant tries then b
    else
      let i := sbIdx x.g x.sb
      let bits := b.mostFixed r tenant tries
      let b := (if b.dieGone x then b else b.countRead x).each (b.readDies r) fun b y => b.readPage y
      let (_, b) := b.ladders r tenant r.words tries
      let b := b.put Reg.sb_SCRUB_BITS (Nat.max (b.get Reg.sb_SCRUB_BITS i) (Nat.min 255 bits)) i
      { b with peat := { b.peat with scrubbed := b.peat.scrubbed ++ [lbn] } }.tookChannel (chanOf x.g x.pos)

/-! ### Checkpoints and mount (R304) -/

/-- The tables of the map region. -/
def mapSpace (k : Nat) : Bool := k / 2 ^ 60 == Space.t_lmap.code || k / 2 ^ 60 == Space.t_sb.code || k / 2 ^ 60 == Space.t_blk.code

/-- The tier blocks of the map region. -/
def Blk.ckptPages (b : Blk) : Nat := b.get Reg.PEAT_MAP_UNITS_UNITS * 1024

/-- The data slots of a super-block. -/
def Blk.roomOf (b : Blk) (x : Nat × Nat) : Nat := ((b.goodMembers x.1 x.2).length - 1) * b.nandPages

/-- `k` blocks of the map region are programmed as `map_ckpt` in one row from block `at_` on, and its parity with them. What the pages hold of the
region is open (log entry 88). -/
def Blk.ckptRow (b : Blk) (g s r at_ k : Nat) : Blk :=
  let page (w : List Line × Blk) (x : Nat × Nat) : List Line × Blk :=
    let (d, b) := w.2.draw (2 ^ (512 * 1024))
    let q := b.peat.wseq
    let ls := pageOf q 0 1 (at_ + x.1) (toLines 1024 d)
    let b := ({ b with peat := { b.peat with wseq := q + 1 } }.count Reg.PCH_PROG_CNT (chanOf g x.2)).emit (.program (chanOf g x.2) (dieOf g) (s * 4096 + r) ls)
    (xorLines w.1 ls, b)
  let (sum, b) := ((List.range k).zip (b.dataPos g s r)).foldl page ([], b)
  let p := b.parityPos g s r
  (b.count Reg.PCH_PROG_CNT (chanOf g p)).emit (.program (chanOf g p) (dieOf g) (s * 4096 + r) sum)

/-- The rows of a super-block from row `r` on take the blocks of the map region from `at_` on, `left` of them: how many are left. A program that
fails (`bad`: blocks of the dies whose programs do) marks its block, and is repeated in another row (R291). -/
def Blk.ckptRows (g s : Nat) (bad : List (Nat × Nat × Nat)) : Nat → Nat → Nat → Nat → Blk → Nat × Blk
  | 0, _, _, left, b => (left, b)
  | n + 1, r, at_, left, b =>
    if left = 0 then (0, b)
    else
      let b := b.each ((b.goodMembers g s).filter fun p => bad.contains (chanOf g p, dieOf g, s)) fun b p =>
        (b.count Reg.PCH_PROG_CNT (chanOf g p)).growBad { g, sb := s, row := r, pos := p }
      if b.sbState (g, s) = Ss.retired then (left, b)
      else
        let k := Nat.min left (b.dataPos g s r).length
        ckptRows g s bad n (r + 1) (at_ + k) (left - k) (b.ckptRow g s r at_ k)

/-- Free super-blocks, those with the lowest PE first, take the map region: how many of its blocks are left, and the super-blocks taken. -/
def Blk.ckptTake (bad : List (Nat × Nat × Nat)) : Nat → Nat → List (Nat × Nat) → Blk → Nat × List (Nat × Nat) × Blk
  | 0, left, got, b => (left, got, b)
  | n + 1, left, got, b =>
    if left = 0 then (0, got, b)
    else
      match leastBy b.pe b.freeSbs with
      | none => (left, got, b)
      | some x =>
        let b := b.put Reg.sb_SSTATE Ss.ckpt (sbIdx x.1 x.2)
        let (left, b) := Blk.ckptRows x.1 x.2 bad b.nandPages 0 (b.ckptPages - left) left b
        ckptTake bad n left (got ++ [x]) b

/-- A checkpoint that could not be written. -/
def Blk.ckptFail (b : Blk) : Blk := { (b.err Pg.peat 9) with peat := { (b.err Pg.peat 9).peat with ckptAt := b.el } }

/-- A checkpoint can be written now: Peat is mounted, and super-blocks enough are free. -/
def Blk.ckptAble (b : Blk) : Bool :=
  decide (Ps.ok ≤ b.get Reg.PEAT_STATE_STATE) && decide (b.ckptPages ≤ b.freeSbs.foldl (fun n x => n + b.roomOf x) 0)

/-- A checkpoint is written (R304): the map region goes to free super-blocks as `map_ckpt` blocks, and those of the one before are erased; one that
does not find room leaves the one before as it was. -/
def Blk.checkpoint (b : Blk) (bad : List (Nat × Nat × Nat)) : Bool × Blk :=
  let old := b.allSb.filter fun x => b.sbState x == Ss.ckpt && !b.erasing x.1 x.2
  if b.ckptAble = false then (false, b.ckptFail)
  else
    match Blk.ckptTake bad (b.freeSbs.length) b.ckptPages [] b with
    | (0, _, b) =>
      let b := { b with peat := { b.peat with ckptAt := b.el, ckpt := some (b.fs.filter fun e => mapSpace e.1), ckptKey := b.key 0, log := [] } }
      (true, b.each old fun b x => b.startErase x.1 x.2)
    | (_ + 1, got, b) => (false, b.ckptFail.each got fun b x => b.startErase x.1 x.2)

/-- PEAT_CMD `checkpoint`; `bad`: blocks of the dies whose programs fail. -/
def Blk.peatCheckpoint (b : Blk) (bad : List (Nat × Nat × Nat)) : Blk :=
  b.cmd peatCmd none fun b =>
    let (good, b) := b.checkpoint bad
    b.cmdEnd peatCmd (if good then ok else badState)

/-- CKPT_TIMER. -/
def Blk.ckptTimer (b : Blk) (bad : List (Nat × Nat × Nat)) : Blk :=
  if b.get Reg.PEAT_STATE_STATE < Ps.ok ∨ b.past b.peat.ckptAt (secs (b.get Reg.PEAT_CKPT_CKPT_S)) = false then b
  else (b.checkpoint bad).2

/-- The map region's tables are replaced by those of a checkpoint. -/
def Blk.setMap (b : Blk) (l : List (Nat × Nat)) : Blk :=
  { b with fs := l.foldl (fun m e => Sparse.set 0 m e.1 e.2) (b.fs.filter fun e => !mapSpace e.1) }

/-- The blocks written since the checkpoint, in WSEQ order. -/
def insertWrote (x : Nat × Slot × Nat) : List (Nat × Slot × Nat) → List (Nat × Slot × Nat)
  | [] => [x]
  | y :: ys => if x.2.2 ≤ y.2.2 then x :: y :: ys else y :: insertWrote x ys
def wroteOf : List PeatEvent → List (Nat × Slot × Nat)
  | [] => []
  | .wrote lbn x w :: es => insertWrote (lbn, x, w) (wroteOf es)
  | _ :: es => wroteOf es

/-- What mount learns of super-blocks and blocks since the checkpoint; an entry that names a super-block erased since names no copy, unless its
block is lost. -/
def Blk.replayPeat (b : Blk) (e : PeatEvent) : Blk :=
  match e with
  | .wrote .. => b
  | .opened g s time =>
    let b := b.put Reg.sb_PROG_TIME time (sbIdx g s)
    if b.sbState (g, s) = Ss.retired then b else b.put Reg.sb_SSTATE Ss.full (sbIdx g s)
  | .erased g s => (b.each (b.validIn g s) fun b lbn => b.clearEntry .t_lmap lbn).eraseTable g s
  | .marked i kind => (b.put Reg.blk_KIND kind i).refreshSb (16 * (i / 8192 / 16 / 16) + i / 8192 % 16) (i % 8192)

/-- The dies declared dead. -/
def Blk.deadDies (b : Blk) : List (Nat × Nat) :=
  b.nandChans.flatMap fun c => ((b.diesOn c).filter fun d => bitAt (b.get Reg.PCH_STATE_DIE_DEAD c) d).map fun d => (c, d)

/-- Mount: the newest checkpoint, then each later block that decodes, in WSEQ order (R304); `bad`: WSEQs of copies that do
not. No row is open any more; those left without parity are due for relocation, and every super-block for a scrub (R296). -/
def Blk.mount (b : Blk) (bad : List Nat) : Blk :=
  if b.get Reg.PEAT_STATE_STATE ≠ Ps.mounting then b
  else
    match b.peat.ckpt with
    | none => b.put Reg.PEAT_STATE_STATE Ps.unformatted
    | some l =>
      if b.peat.ckptKey ≠ b.key 0 then b.put Reg.PEAT_STATE_STATE Ps.unformatted
      else
      let b := (b.setMap l).each b.peat.log Blk.replayPeat
      let b := b.each ((wroteOf b.peat.log).filter fun x => !bad.contains x.2.2) fun b x => b.mapLbn x.1 x.2.1
      let b := b.each b.deadDies fun b x => (b.markDead x.1 x.2).moveDead x.1 x.2
      let b := b.each (b.allSb.filter fun x => b.sbState x == Ss.open_ || b.sbState x == Ss.gc) fun b x => b.put Reg.sb_SSTATE Ss.full (sbIdx x.1 x.2)
      let torn := b.allSb.filter fun x => b.peat.bare.any fun r => (r.1, r.2.1) == x
      let b := { b with peat := { b.peat with open_ := [], closing := [], noParity := torn, scrubbed := []
                                              scrubDue := b.allSb.filter fun x => b.validIn x.1 x.2 != [] } }
      let b := b.put Reg.PEAT_LOGICAL_BLOCKS_COUNT b.peat.logical
      (b.put Reg.PEAT_STATE_STATE Ps.ok).refreshPeat

/-! ### Commands -/

/-- The factory marks of dies not erased before are read, and every mark a known die bears stands in the table (R300). -/
def Blk.factoryMarks (b : Blk) (marks : List (Nat × Nat × Nat)) : Blk :=
  let fresh := marks.filter fun m => !b.peat.known.contains (m.1 * 16 + m.2.1)
  let b := b.each fresh fun b m => b.markKind (blkIdx m.1 m.2.1 m.2.2) Bk.factory
  let b := b.each b.peat.kinds fun b x => b.put Reg.blk_KIND x.2 x.1
  let b := b.each b.deadDies fun b x => b.markDead x.1 x.2
  { b with peat := { b.peat with known := b.nandChans.flatMap fun c => (b.diesOn c).map fun d => c * 16 + d } }

/-- `format` (R282, R300, R306); `marks`: the factory marks the dies report. The map is cleared and the erases begin; Peat is `unformatted` until they
have ended (log entry 88). -/
def Blk.peatFormat (b : Blk) (marks : List (Nat × Nat × Nat)) : Blk :=
  b.cmd peatCmd none fun b =>
    let st := b.get Reg.PEAT_STATE_STATE
    if st = Ps.absent ∨ st = Ps.mounting ∨ (b.entriesWith Reg.place_STATE).any (fun d => b.get Reg.place_CLASS d == Cls.weights) then
      b.cmdEnd peatCmd badState
    else
      let b := (b.factoryMarks marks).clearSpace .t_lmap
      let p := b.peat
      let free (o : NandOp) : NandOp := if o.erase then o else { o with job := .pad }
      { b with peat := { nextId := p.nextId, wseq := p.wseq, rr := p.rr, ckptAt := p.ckptAt, known := p.known, kinds := p.kinds, grownAt := p.grownAt
                         reads := p.reads, ops := p.ops.map free, scrubAt := b.el, fmt := some b.allSb } }.put
        Reg.PEAT_STATE_STATE Ps.unformatted

/-- A `format` goes on: each super-block's erase begins once the reads and operations on it have ended (R293); with the last erase LOGICAL_BLOCKS is
set, Peat is mounted with an empty map, and a checkpoint of it is written. -/
def Blk.formatGoes (b : Blk) : Blk :=
  match b.peat.fmt with
  | none => b
  | some l =>
    let busy (x : Nat × Nat) : Bool :=
      b.peat.reads.any (fun r => r.at_.g == x.1 && r.at_.sb == x.2) || b.peat.ops.any fun o => o.at_.g == x.1 && o.at_.sb == x.2
    let b := { b with peat := { b.peat with fmt := some (l.filter busy) } }
    let b := b.each (l.filter fun x => !busy x) fun b x => (b.refreshSb x.1 x.2).startErase x.1 x.2
    if b.peat.fmt ≠ some [] ∨ (b.peat.ops.any (·.erase)) = true then b
    else
      let b := { b with peat := { b.peat with fmt := none, logical := b.nandSlots * 7 / 8, scrubAt := b.el } }
      let b := b.put Reg.PEAT_LOGICAL_BLOCKS_COUNT b.peat.logical
      (((b.put Reg.PEAT_STATE_STATE Ps.ok).refreshPeat).checkpoint []).2.cmdEnd peatCmd ok

/-- `trim` (R285). -/
def Blk.peatTrim (b : Blk) : Blk :=
  b.cmd peatCmd none fun b =>
    let first := b.get Reg.PEAT_CMD_ARG0_FIRST_LBN
    let n := b.get Reg.PEAT_CMD_ARG1_COUNT
    if b.get Reg.PEAT_STATE_STATE = Ps.mounting then b.cmdEnd peatCmd badState
    else if b.get Reg.PEAT_LOGICAL_BLOCKS_COUNT < first + n then b.cmdEnd peatCmd badRange
    else if (b.entriesWith Reg.place_STATE).any fun d =>
        b.get Reg.place_CLASS d == Cls.weights && meet first n (b.get Reg.place_LOWER_BASE d) (b.get Reg.place_SIZE d * 1024) then
      b.cmdEnd peatCmd overlap
    else
      let b := b.each ((b.entriesWith Reg.lmap_V).filter fun k => first ≤ k && k < first + n) fun b k => b.unmapLbn k
      (b.countN Reg.PEAT_TRIM_CNT n).refreshPeat.cmdEnd peatCmd ok

/-! ### Channels (R278, R301) -/

namespace Pst
def off : Nat := 0
def training : Nat := 1
def up : Nat := 2
def failed : Nat := 3
end Pst

/-- The population is a supported one (Table 9.1). -/
def Blk.populated (b : Blk) : Bool :=
  (b.nandChans == List.range 16 || b.nandChans == List.range 32) &&
  b.nandChans.all fun c => b.get Reg.PCH_CTRL_DIE_EN c == b.get Reg.PCH_CTRL_DIE_EN 0

/-- The dies that the channels enable. -/
def Blk.nandDies (b : Blk) : Nat := b.nandChans.foldl (fun n c => n + (b.diesOn c).length) 0

/-- Every channel of a supported population has trained or failed: the dies are known, and Peat mounts where they hold a checkpoint. -/
def Blk.peatFound (b : Blk) : Blk :=
  if b.populated = false ∨ b.nandChans.any (fun c => b.get Reg.PCH_STATE_STATE c < Pst.up) = true ∨ b.get Reg.PEAT_STATE_STATE ≠ Ps.absent then b
  else
    let b := b.put Reg.PEAT_GEOM_DIES b.nandDies
    let b := b.put Reg.PEAT_MAP_UNITS_UNITS b.mapUnits
    let b := b.each b.deadDies fun b x => b.markDead x.1 x.2
    if b.peat.ckpt.isSome then (b.put Reg.PEAT_STATE_STATE Ps.mounting).put Reg.PEAT_LOGICAL_BLOCKS_COUNT b.peat.logical
    else b.put Reg.PEAT_STATE_STATE Ps.unformatted

/-- A die's parameter page reports a supported geometry (Table 9.1). -/
def Geom.ok (g : Geom) : Bool :=
  512 ≤ g.blocks && g.blocks ≤ 8192 && 256 ≤ g.pages && g.pages ≤ 4096 && g.data == 16384 && 2048 ≤ g.spare && g.planes == 4 && g.suspend

/-- The dies of a channel report supported geometries, each of them, with the one figure of blocks and pages that PEAT_GEOM holds. -/
def Blk.geometryOk (b : Blk) (c : Nat) (dies : List Geom) : Bool :=
  let blocks := if b.nandBlocks = 0 then (dies.head?.map (·.blocks)).getD 0 else b.nandBlocks
  let pages := if b.nandBlocks = 0 then (dies.head?.map (·.pages)).getD 0 else b.nandPages
  dies.length == (b.diesOn c).length && dies.all fun g => g.ok && g.blocks == blocks && g.pages == pages

/-- PEAT_GEOM shows the geometry the dies report. -/
def Blk.showGeom (b : Blk) : List Geom → Blk
  | [] => b
  | g :: _ => (b.put Reg.PEAT_GEOM_BLOCKS g.blocks).put Reg.PEAT_GEOM_PAGES g.pages

/-- CHANNEL_TRAIN: an enabled channel has trained, or not, and its dies, lowest index first, report their geometry (R278, R301). -/
def Blk.channelTrain (b : Blk) (c : Nat) (good : Bool) (dies : List Geom) : Blk :=
  if b.get Reg.PCH_STATE_STATE c ≠ Pst.training then b
  else if good = false then
    ((b.put Reg.PCH_STATE_STATE Pst.failed c).each (b.diesOn c) fun b d => b.dieDead c d).peatFound
  else if b.geometryOk c dies = false then b.err Pg.peat 8
  else ((b.put Reg.PCH_STATE_STATE Pst.up c).showGeom dies).peatFound

/-! ### What Peat does by itself -/

/-- Write-downs wait behind garbage collection while free super-blocks are very few (R298). -/
def Blk.peatHeld (b : Blk) : Blk :=
  let start := b.get Reg.PEAT_GC_GC_START_PCT
  let held := if b.peat.held then b.freeBelow (2 * start) else b.freeBelow start
  { b with peat := { b.peat with held } }

/-- What was read for a fetch or a pass-through that no longer waits is let go. -/
def Blk.trimReads (b : Blk) : Blk :=
  { b with peat := { b.peat with
      ready := b.peat.ready.filter fun x => (b.fetchOf x.1).isSome
      passReady := b.peat.passReady.filter fun x => b.home.reqs.any fun q => q.wait == .pass && q.off / 4096 == x.1 } }

/-- Programs that wait for a slot try again, those of a kind. -/
def Blk.startTodo (b : Blk) (kind : NandJob × Option (Nat × Nat × Nat) → Bool) : Blk :=
  let todo := b.peat.todo
  let c : Blk := { b with peat := { b.peat with todo := todo.filter fun w => !kind w } }
  c.each (todo.filter kind) fun b w => b.startJob w.1 w.2

/-- Fetches, pass-through reads, write-downs and then upkeep reach their dies (R298). -/
def Blk.settlePeat (b : Blk) : Blk :=
  let b := b.formatGoes
  if b.get Reg.PEAT_STATE_STATE < Ps.ok then b
  else
    let peat (d : Nat) : Bool := b.get Reg.place_CLASS d == Cls.weights
    let b := b.trimReads
    let b := b.each (b.tier.fetches.filter fun x => x.frame.isSome && peat x.desc && !b.zeroFill x.block x.desc &&
        !(b.peat.reads.any fun r => !r.pass && r.blk == x.block) && !(b.peat.ready.any (·.1 == x.block))) fun b x =>
      b.startRead x.block (b.lowerOf x.desc x.block).2.1 false 0
    let b := b.each (b.home.reqs.filter fun q => q.wait == .pass) fun b q =>
      match b.placeOf (q.off / 2 ^ 26) with
      | none => b
      | some d =>
        let sub := q.off / 4096
        if peat d && !(b.peat.reads.any fun r => r.pass && !r.stale && r.sub == sub) && !(b.peat.passReady.any (·.1 == sub)) then
          b.startRead (q.off / 65536) (b.lowerOf d (q.off / 65536)).2.1 true sub
        else b
    let b := b.each (b.peat.open_.filter fun o => o.used != [] && b.unfilled o == []) fun b o => b.shutRow o
    let b := (b.each b.peat.closing fun b o => b.rowGoes o).peatHeld
    let copies (w : NandJob × Option (Nat × Nat × Nat)) : Bool := match w.1 with
      | .copy .. => true
      | _ => false
    let b := b.startTodo fun w => !copies w
    let started (blk : Nat) : Bool := (b.peat.ops.map (·.job) ++ b.peat.todo.map (·.1)).any fun j => match j with
      | .down k _ => k == blk
      | _ => false
    let b := b.each (b.tier.downs.filter fun x => peat x.desc && !x.bad && !started x.block) fun b x =>
      b.startJob (.down x.block (b.lowerOf x.desc x.block).2.1) none
    (b.startTodo copies).relocGoes

end Sys2Proof.Machine
end

