-- ==== Sys2Proof/Machine/Exchange.lean ====
section
/-! DEFINITION. What the embedding and search engines share: plans over lines read, version slots (R392 to R394, R409, R422) and
the exchange of chunks between parts (R380 to R387, R413). -/
namespace Sys2Proof.Machine

/-! ### Plans over lines read -/

/-- A plan's outcome: operations it still needs, the status that stops it, or its value. -/
inductive Plan (α : Type) where
  | need (l : List Ask)
  | bad (s : Nat)
  | val (a : α)

/-- Go on with a value. -/
def Plan.andThen {α β : Type} (g : Plan α) (f : α → Plan β) : Plan β :=
  match g with
  | .need l => .need l
  | .bad s => .bad s
  | .val a => f a

/-- A function of a value. -/
def Plan.map {α β : Type} (g : Plan α) (f : α → β) : Plan β := g.andThen fun a => .val (f a)

/-- Two plans together: needs first, then the first status. -/
def Plan.both {α β : Type} (x : Plan α) (y : Plan β) : Plan (α × β) :=
  match x, y with
  | .need a, .need c => .need (a ++ c)
  | .need a, _ => .need a
  | _, .need c => .need c
  | .bad s, _ => .bad s
  | _, .bad s => .bad s
  | .val a, .val c => .val (a, c)

/-- Plans together, in order. -/
def Plan.all {α : Type} : List (Plan α) → Plan (List α)
  | [] => .val []
  | x :: xs => (x.both (Plan.all xs)).map fun p => p.1 :: p.2

/-- The number of an operation on a line: `gen` sets apart accesses of the same line, `k` kinds of access (0 reads, 1 writes,
2 volatile reads, 3 atomics; 7 lines of chunks). -/
def lop (gen line k : Nat) : Nat := Op.first + 8 * (gen * 2 ^ 52 + line) + k

/-- A line as an operation brought it. -/
def Work.took (w : Work) (q : Ask) : Plan Nat :=
  match w.res? q.op with
  | none => .need [q]
  | some r => if r.status = St.ok then .val r.data.toNat else .bad r.status

/-- The reads of the lines that hold n bytes at an address, with the type of the work's scope, by a Mule or, `port`, through the scan unit's own
port (R426). -/
def Work.rdAsks (w : Work) (gen va n : Nat) (port : Bool := false) : List Ask :=
  if n = 0 then []
  else (List.range ((va + n - 1) / 64 + 1 - va / 64)).map fun i =>
    { op := lop gen (va / 64 + i) 0, opc := w.readOpc, va := 64 * (va / 64 + i), bulk := !port }

/-- The n bytes at an address, read with the type of the work's scope. -/
def Work.rd (w : Work) (gen va n : Nat) (port : Bool := false) : Plan Nat :=
  if n = 0 then .val 0
  else
    (Plan.all ((w.rdAsks gen va n port).map w.took)).map fun l => (pack 512 l >>> (8 * (va % 64))) % 2 ^ (8 * n)

/-- The 8-byte word at an address, read by RD_VOL. -/
def Work.rdVol (w : Work) (gen va : Nat) : Plan Nat :=
  (w.took { op := lop gen (va / 64) 2, opc := Opc.rdVol, va := va / 64 * 64 }).map fun l => (l >>> (8 * (va % 64 / 8 * 8))) % 2 ^ 64

/-- The writes of whole lines from an address on: `n` bytes rounded up, the rest zero. -/
def lineWrites (gen va n v : Nat) : List Ask :=
  (List.range ((n + 63) / 64)).map fun i =>
    { op := lop gen (va / 64 + i) 1, opc := Opc.wrLine, va := va / 64 * 64 + 64 * i, data := .ofNat 512 (v % 2 ^ (8 * n) >>> (512 * i)),
      bulk := true }

/-- The writes of n bytes at an address, line by line: whole lines, or the part of a line (R9). -/
def pieceWrites (gen va n v : Nat) : List Ask :=
  let first := va / 64
  (List.range ((va + n + 63) / 64 - first)).map fun i =>
    let lo := Nat.max va (64 * (first + i))
    let len := Nat.min (va + n) (64 * (first + i) + 64) - lo
    let d := (v >>> (8 * (lo - va))) % 2 ^ (8 * len)
    if len = 64 then { op := lop gen (first + i) 1, opc := Opc.wrLine, va := lo, data := .ofNat 512 d, bulk := true }
    else { op := lop gen (first + i) 1, opc := Opc.wrPartial, va := lo, arg := len, data := atPlace lo d, bulk := true }

/-- Carry writes out: none where some is not done yet. -/
def Work.wrote (w : Work) (l : List Ask) : Plan Unit := (Plan.all (l.map w.took)).map fun _ => ()

/-- Follow a plan: issue what it needs; a status or a value goes on. -/
def Blk.follow {α : Type} (b : Blk) (id : Nat) (g : Plan α) (bad : Blk → Nat → Blk) (go : Blk → α → Blk) : Blk :=
  match g with
  | .need l => b.asks id l
  | .bad s => bad b s
  | .val a => go b a

/-- End a work with a status once nothing of it is out. -/
def Blk.endQuiet (b : Blk) (w : Work) (status : Nat) (detail : Option Nat) : Blk :=
  if w.quiet then b.endWork w.id status detail else b

/-! ### Version slots -/

/-- A field of slot B lies 24 bytes above slot A's. -/
def inSlot (f : Fld) (s : Nat) : Fld := { f with bit := f.bit + 192 * s }

/-- The two engines' fields of a versioned entry: state, its slots' states and versions, NEWEST, the version word. -/
structure Ver where
  eng : Nat
  page : Nat
  state : Fld
  sstate : Fld
  version : Fld
  newest : Fld
  word : Fld
  miss : Fld
  retired : Fld
  grace : Fld
  deriving DecidableEq, Repr

def embVer : Ver :=
  ⟨0, Pg.emb, Reg.table_STATE, Reg.table_SSTATE_A, Reg.table_VERSION_A, Reg.table_NEWEST, Reg.table_VERSION_VA, Reg.EMB_VERSION_MISS_CNT,
   Reg.EMB_RETIRE_CNT, Reg.EMB_CFG_RETIRE_GRACE_MS⟩
def vseVer : Ver :=
  ⟨1, Pg.vse, Reg.index_STATE, Reg.index_SSTATE_A, Reg.index_VERSION_A, Reg.index_NEWEST, Reg.index_VERSION_VA, Reg.VSE_VERSION_MISS_CNT,
   Reg.VSE_RETIRE_CNT, Reg.VSE_CFG_RETIRE_GRACE_MS⟩

/-- Descriptors and chunks that hold a slot. -/
def Blk.pinCount (b : Blk) (eng entry slot : Nat) : Nat := (b.eng.works.filter fun w => w.pins.contains (eng, entry, slot)).length

/-- A slot is staged. -/
def Blk.staged (b : Blk) (v : Ver) (entry slot : Nat) : Bool := b.get (inSlot v.sstate slot) entry == 1

/-- The staged slot that holds a version. -/
def Blk.slotWith (b : Blk) (v : Ver) (entry version : Nat) : Option Nat :=
  [0, 1].find? fun s => b.staged v entry s && b.get (inSlot v.version s) entry == version

/-- A work pins a slot. -/
def Blk.pin (b : Blk) (id eng entry slot : Nat) : Blk := b.modWork id fun w => { w with pins := w.pins ++ [(eng, entry, slot)] }

/-- Note since when NEWEST exceeds the versions of an entry's staged slots (R394). -/
def Blk.notePassed (b : Blk) (v : Ver) (entry : Nat) : Blk :=
  let other := b.eng.passed.filter fun p => !(p.1 == v.eng && p.2.1 == entry)
  let here := ([0, 1].filter fun s => b.staged v entry s && decide (b.get (inSlot v.version s) entry < b.get v.newest entry)).map fun s =>
    (v.eng, entry, s, match b.eng.passed.find? fun p => p.1 == v.eng && p.2.1 == entry && p.2.2.1 == s with
      | some p => p.2.2.2
      | none => b.el)
  { b with eng := { b.eng with passed := other ++ here } }

/-- Raise NEWEST to a version that is higher. -/
def Blk.raiseNewest (b : Blk) (v : Ver) (entry version : Nat) : Blk :=
  if b.get v.newest entry < version then (b.put v.newest version entry).notePassed v entry else b

/-- A version word was read: NEWEST, and the slot is pinned; none where no slot matches (R392). -/
def Blk.pinVersion (b : Blk) (v : Ver) (id entry version : Nat) : Option Nat × Blk :=
  let b := b.raiseNewest v entry version
  match b.slotWith v entry version with
  | some s => (some s, b.pin id v.eng entry s)
  | none => (none, (b.count v.miss).err v.page 0)

/-- A slot may be released (R394): staged, versioned, unpinned, superseded for RETIRE_GRACE_MS. -/
def Blk.mayRetire (b : Blk) (v : Ver) (entry slot : Nat) : Bool :=
  b.staged v entry slot && b.get v.word entry != 0 && b.pinCount v.eng entry slot == 0 &&
  decide (b.get (inSlot v.version slot) entry < b.get v.newest entry) &&
  b.eng.passed.any fun p => p.1 == v.eng && p.2.1 == entry && p.2.2.1 == slot && b.past p.2.2.2 (ms (b.get v.grace))

/-- Release a slot. -/
def Blk.retireSlot (b : Blk) (v : Ver) (entry slot : Nat) : Blk :=
  if b.mayRetire v entry slot then ((b.put (inSlot v.sstate slot) 0 entry).count v.retired).notePassed v entry else b

/-! ### The header of a chunk -/

/-- Line 0 of a chunk as a number. -/
def Chunk.head (c : Chunk) : Nat := (c.lines.headD 0).toNat
/-- KIND. -/
def Chunk.kind (c : Chunk) : Nat := dfield c.head 0 7 0
/-- SERIAL, at bytes 12 to 15 of every request. -/
def Chunk.withSerial (c : Chunk) (serial : Nat) : Chunk :=
  { c with serial, lines := match c.lines with
      | [] => []
      | l :: ls => linePut l 12 4 serial :: ls }
/-- The bytes of the lines after the first. -/
def Chunk.body (c : Chunk) : Nat := pack 512 ((c.lines.drop 1).map BitVec.toNat)

/-! ### Sending -/

/-- Channels toward each peer. -/
def xchgChans (eng : Nat) : Nat := if eng = 0 then 8 else 4

/-- The bits below CHAN. -/
def chanShift (eng : Nat) : Nat := if eng = 0 then 16 else 17

/-- The unit of the aperture: the part takes its peers' to lie at its own OFFSET_PAGE (log entry 18). -/
def Blk.xapBase (b : Blk) (eng : Nat) : Nat := b.get (if eng = 0 then Reg.EMB_XAP_BASE_BASE else Reg.VSE_XAP_BASE_BASE)

/-- Where a channel of a peer's aperture begins, for requests or replies (Table 12.4). -/
def Blk.xchgAddr (b : Blk) (eng peer chan : Nat) (reply : Bool) : Nat :=
  peer * 2 ^ 47 + b.xapBase eng * 2 ^ 26 + b2n reply * 2 ^ 25 + (b.node % 64) * 2 ^ 19 + chan * 2 ^ chanShift eng

/-- A line of a chunk or reply (R383, R385), sent in its thread's turn (R309). -/
def Blk.sendChunkLine (b : Blk) (w : Work) (eng peer chan op line : Nat) (data : Line) (reply final : Bool) : Blk :=
  let addr := b.xchgAddr eng peer chan reply + line * 64
  let fr := b.reqFrame (if final then Opc.wrLineFinal else Opc.wrLine) addr w.tenant true 0 data final
  b.ask w.id { op, opc := fr.opc.toNat, va := 0 } (some fr)

/-- A channel toward a peer may take a chunk: it awaits none, and no line of an earlier one is outstanding (R383). -/
def Blk.chanFree (b : Blk) (eng peer chan : Nat) : Bool :=
  let place := (b.xchgAddr eng peer chan false) / 2 ^ chanShift eng
  (b.chan eng peer chan).wait.isNone && ((b.orig.out ++ b.orig.waiting).map Out.fr ++ b.eng.reach.filterMap Reach.fr).all fun f =>
    f.addr.toNat / 2 ^ chanShift eng != place

/-- The operation of a chunk's line. -/
def chunkOp (c : Chunk) (line : Nat) : Nat := lop (c.no * 2 + c.retry) line 7

/-- Change one chunk of a work. -/
def Blk.modChunk (b : Blk) (id no : Nat) (f : Chunk → Chunk) : Blk :=
  b.modWork id fun w => { w with chunks := w.chunks.map fun (c : Chunk) => if c.no = no then f c else c }

/-- Send a chunk on a channel. -/
def Blk.sendChunk (b : Blk) (w : Work) (eng : Nat) (c : Chunk) (chan : Nat) : Blk :=
  let (serial, b) := b.draw (2 ^ 32)
  let c := { c.withSerial serial with chan, phase := CPhase.sent, epoch := b.get Reg.tenant_ctx_COMP_EPOCH w.tenant }
  let b := b.setChan { b.chan eng c.peer chan with rep := [], trailer := none, wait := some (w.id, c.no, serial), waitFrom := none }
  let b := b.modChunk w.id c.no fun _ => c
  let b := if eng = 0 then b.countN Reg.EMB_ROW_REMOTE_CNT c.keys.length else b
  b.each (c.lines.zipIdx) fun b l => b.sendChunkLine w eng c.peer chan (chunkOp c l.2) l.2 l.1 false (decide (l.2 + 1 = c.lines.length))

/-- A channel awaits nothing more. -/
def Blk.freeChan (b : Blk) (c : Chan) : Blk := b.setChan { c with wait := none, waitFrom := none, rep := [], trailer := none }

/-- A chunk has ended with a status. -/
def Blk.endChunk (b : Blk) (id no status : Nat) : Blk := b.modChunk id no fun c => { c with phase := CPhase.done, status }

/-- A line of a chunk was refused: STALE_EPOCH is translated again and the chunk reissued once (R51, R387), `base`: an address in
its shard, `right`: what it is translated for; otherwise the chunk ends with the status. -/
def Blk.chunkRefused (b : Blk) (w : Work) (eng : Nat) (c : Chunk) (status base right : Nat) : Blk :=
  let b := b.freeChan (b.chan eng c.peer c.chan)
  let now := b.get Reg.tenant_ctx_COMP_EPOCH w.tenant
  if status = St.staleEpoch ∧ b.fenced = false ∧ c.retry = 0 ∧ now ≠ c.epoch ∧ notOlder now c.epoch = true then
    match b.translate w.tenant base right with
    | .fail s cause => (b.xltFault w.tenant base cause).endChunk w.id c.no s
    | .addr a => b.modChunk w.id c.no fun c => { c with retry := 1, peer := a / 2 ^ 47, phase := CPhase.waiting }
  else b.endChunk w.id c.no status

/-- A chunk for another part goes on: it takes a free channel, and once its FINAL line is acknowledged its wait begins. -/
def Blk.chunkStep (b : Blk) (w : Work) (eng : Nat) (c : Chunk) (base right : Nat) : Blk :=
  match c.phase with
  | .done => b
  | .waiting =>
    match (List.range (xchgChans eng)).find? fun k => b.chanFree eng c.peer k with
    | some k => b.sendChunk w eng c k
    | none => b
  | .sent =>
    let ops := (List.range c.lines.length).map (chunkOp c)
    match w.hist.find? fun r => ops.contains r.op && r.status != St.ok with
    | some r => b.chunkRefused w eng c r.status base right
    | none =>
      let ch := b.chan eng c.peer c.chan
      if ch.waitFrom.isNone ∧ w.okOp (chunkOp c (c.lines.length - 1)) = true then b.setChan { ch with waitFrom := some b.el } else b

/-! ### Trailers and timeouts (R386, R387) -/

/-- A reply trailer is taken: its chunk ends, or the trailer and its rows are discarded. -/
def Blk.replyTrailer (b : Blk) (eng peer chan : Nat) : Blk :=
  let c := b.chan eng peer chan
  match c.wait, c.trailer with
  | some (id, no, serial), some t =>
    if lineGet t 4 4 ≠ serial then (b.setChan { c with rep := [], trailer := none }).xchgBad eng
    else
      let status := asStatus (lineGet t 0 1)
      let b := b.freeChan c
      let b := if status = St.staleEpoch then b.err (if eng = 0 then Pg.emb else Pg.vse) 0 else b
      b.modChunk id no fun k => { k with phase := CPhase.done, status, rep := c.rep, missing := lineGet t 8 56 }
  | _, _ => b

/-- No trailer within TIMEOUT_US: the chunk ends as R103 gives. -/
def Blk.chunkTimeout (b : Blk) (eng peer chan : Nat) : Blk :=
  let c := b.chan eng peer chan
  match c.wait, c.waitFrom with
  | some (id, no, _), some since =>
    if c.trailer.isSome ∨ b.past since b.reqTimeout = false then b
    else
      let b := if eng = 0 then (b.count Reg.EMB_XCHG_TIMEOUT_CNT).err Pg.emb 1 else (b.count Reg.VSE_XCHG_TIMEOUT_CNT).err Pg.vse 1
      (b.freeChan c).endChunk id no (if peer < 64 ∧ bitAt (b.get Reg.WIN_PEER_DEAD_DEAD) peer = true then St.peerDead else St.internal)
  | _, _ => b

/-- A channel whose work a reset took waits from now on for its timeout. -/
def Blk.settleChans (b : Blk) : Blk :=
  b.each (b.eng.chans.filter fun c => match c.wait with
    | some (id, _, _) => c.waitFrom.isNone && (match b.work? id with
      | some w => w.phase == Phase.dropped
      | none => true)
    | none => false) fun b c => b.setChan { c with waitFrom := some b.el }

/-! ### Serving (R384, R385) -/

/-- The free tiles that may serve a chunk. -/
def Blk.servers (b : Blk) : List Nat :=
  (List.range 96).filter fun t => b.get Reg.TILE_STATE_STATE t == Ts.run && !b.eng.halted.contains t

/-- The queue thread that serves a chunk on a tile: the first that no queue is bound to, else thread 0; thread 15 serves none (R308, log
entry 18). -/
def Blk.spareThread (b : Blk) (tile : Nat) : Nat :=
  ((List.range 15).find? fun h => !b.eng.bound.any fun x => x.tile == tile && x.thread == h).getD 0

/-- A request chunk is taken up for a peer: on some tile, with the scope its header gives. -/
def Blk.takeChunk (b : Blk) (eng peer chan : Nat) (kind : Nat → Bool) : Blk :=
  let c := b.chan eng peer chan
  let lines := (List.range (c.req.length)).map fun i => match c.req.find? fun l => l.1 == i with
    | some l => l.2
    | none => 0
  if c.reqFinal = false ∨ c.serving = true ∨ kind (dfield (lines.headD 0).toNat 0 7 0) = false then b
  else
    match b.servers with
    | [] => b
    | ts =>
      let (t, b) := b.pick 0 ts
      let b := b.setChan { c with serving := true }
      (b.addWork { id := 0, kind := 2, tenant := c.tenant, tile := t, thread := b.spareThread t, desc := (lineGet (lines.headD 0) 1 1 % 4) <<< 14,
                   phase := .running, snap := [eng, peer, chan],
                   chunks := [{ no := 0, here := true, peer, chan, serial := lineGet (lines.headD 0) 12 4, lines }] }).2

/-- A trailer line (Table 12.6). -/
def trailerLine (status kind serial missing : Nat) : Line := .ofNat 512 (status + kind <<< 8 + serial <<< 32 + missing <<< 64)

/-- An owner answers: the reply's lines, then the trailer at a line; the channel is free for the next request. -/
def Blk.answerChunk (b : Blk) (w : Work) (eng : Nat) (c : Chunk) (lines : List Line) (at_ : Nat) (trailer : Line) : Blk :=
  let ch := b.chan eng c.peer c.chan
  let b := b.setChan { ch with serving := false, req := [], reqFinal := false, tenant := 0 }
  let b := b.modWork w.id fun w => { w with chunks := [], snap := [], pins := [] }
  let b := b.each lines.zipIdx fun b l => b.sendChunkLine w eng c.peer c.chan (lop 1 l.2 7) l.2 l.1 true false
  b.sendChunkLine w eng c.peer c.chan (lop 1 at_ 7) at_ trailer true true

end Sys2Proof.Machine
end

