-- ==== Sys2Proof/Machine/Emb.lean ====
section
/-! DEFINITION. Embedding look-up, pooling and sparse update (ch. 12). -/
namespace Sys2Proof.Machine

/-! ### Rows (R366) -/

/-- ROW_BYTES. -/
def rowBytes (fmt dim : Nat) : Nat := if fmt = 7 then dim + 2 else segBytes fmt dim

/-- What a format asks of DIM. -/
def dimOk (fmt dim : Nat) : Bool := (!isMx fmt || dim % 32 == 0) && (fmt != 6 || dim % 2 == 0)

/-- Rounded up to whole lines. -/
def up64 (n : Nat) : Nat := (n + 63) / 64 * 64

/-- The exact values of a row. -/
def decodeRow (fmt dim raw : Nat) : List Num :=
  if fmt = 7 then (List.range dim).map fun i => decodeRow8 (raw >>> (8 * dim) % 2 ^ 16) (elemAt 7 raw i)
  else decodeSeg fmt dim raw

/-- Values as a row. -/
def encodeRow (fmt : Nat) (v : List Num) : Nat :=
  if fmt = 7 then pack 8 (encodeRow8 v).2 + (encodeRow8 v).1 <<< (8 * v.length) else encodeSeg fmt v

/-- An FP32 encoding of a whole number. -/
def f32OfNat (n : Nat) : Nat := fp32.round (.fin false n 0)

/-! ### Locating keys (R367 to R370) -/

/-- RPO. -/
def Blk.rpo (b : Blk) (t : Nat) : Nat := (b.get Reg.table_ROWS t + b.get Reg.table_NOWN t - 1) / b.get Reg.table_NOWN t

/-- h of R369. -/
def keyHash (key : Nat) : Nat := key * 0x9E3779B97F4A7C15 % 2 ^ 64

/-- The padding key. -/
def noKey : Nat := 2 ^ 64 - 1

/-- A key that R368 and R370 allow. -/
def Blk.keyValid (b : Blk) (t key : Nat) : Bool := key != noKey && (b.flag Reg.table_SHARD t || decide (key < b.get Reg.table_ROWS t))

/-- The shard of a key. -/
def Blk.shardOf (b : Blk) (t key : Nat) : Nat :=
  if b.flag Reg.table_SHARD t then (keyHash key / 2 ^ 32 * b.get Reg.table_NOWN t) >>> 32 else key / b.rpo t

/-- The base of a shard of a slot. -/
def Blk.shardVa (b : Blk) (t slot k : Nat) : Nat := b.get (inSlot Reg.table_VA_BASE_A slot) t + k * 2 ^ b.get Reg.table_SHARD_LOG2 t

/-- The row at a place of a shard. -/
def Blk.rowVa (b : Blk) (t slot k e : Nat) : Nat :=
  b.shardVa t slot k + (if b.flag Reg.table_SHARD t then 2 ^ (b.get Reg.table_DIR_LOG2 t + 3) else 0) + e * 2 ^ b.get Reg.table_STRIDE_LOG2 t

/-- Its optimizer state. -/
def Blk.optVa (b : Blk) (t slot k e : Nat) : Nat :=
  b.get (inSlot Reg.table_OPT_VA_A slot) t + k * 2 ^ b.get Reg.table_SHARD_LOG2 t + e * 2 ^ b.get Reg.table_OPT_STRIDE_LOG2 t

/-- Probe a directory (hash_locate of R369). -/
def probe (w : Work) (gen dir lg key : Nat) : Nat → Nat → Plan (Option Nat)
  | 0, _ => .val none
  | n + 1, e => (w.rd gen (dir + 8 * e) 8).andThen fun stored =>
      if stored = key then .val (some e) else if stored = noKey then .val none else probe w gen dir lg key n ((e + 1) % 2 ^ lg)

/-- The place of a key in its shard; none where it is missing. -/
def Blk.locate (b : Blk) (w : Work) (gen t slot key : Nat) : Plan (Option Nat) :=
  if b.flag Reg.table_SHARD t then
    let lg := b.get Reg.table_DIR_LOG2 t
    probe w gen (b.shardVa t slot (b.shardOf t key)) lg key 32 (keyHash key % 2 ^ 32 % 2 ^ lg)
  else .val (some (key % b.rpo t))

/-- The table's ROW_BYTES, and its rows' and gradients' lines. -/
def Blk.tableRow (b : Blk) (t : Nat) : Nat := rowBytes (b.get Reg.table_FORMAT t) (b.get Reg.table_DIM t)
def Blk.rowLines (b : Blk) (t : Nat) : Nat := (b.tableRow t + 63) / 64
def Blk.gradLines (b : Blk) (t : Nat) : Nat := (b.get Reg.table_DIM t * 4 + 63) / 64

/-- The row of a key. -/
def Blk.gather (b : Blk) (w : Work) (gen t slot key : Nat) : Plan (Option Nat) :=
  (b.locate w gen t slot key).andThen fun
    | none => .val none
    | some e => (w.rd gen (b.rowVa t slot (b.shardOf t key) e) (b.tableRow t)).map some

/-! ### Chunks (Table 12.5) -/

/-- A request's lines: header, keys, gradients. -/
def embLines (kind scope t version opt lr mu eps gl : Nat) (keys : List Nat) (grads : List (List Nat)) : List Line :=
  let n := keys.length
  let head := kind + scope <<< 8 + t <<< 16 + version <<< 32 + n <<< 80 + opt <<< 128 + lr <<< 160 + mu <<< 192 + eps <<< 224
  .ofNat 512 head :: toLines ((n + 7) / 8) (pack 64 (keys ++ List.replicate (8 - n % 8) noKey)) ++
  grads.flatMap fun g => toLines gl (pack 32 g)

def Chunk.count (c : Chunk) : Nat := dfield c.head 10 15 0
def Chunk.opt (c : Chunk) : Nat := dfield c.head 16 1 0
def Chunk.lr (c : Chunk) : Nat := dfield c.head 20 31 0
def Chunk.mu (c : Chunk) : Nat := dfield c.head 24 31 0
def Chunk.eps (c : Chunk) : Nat := dfield c.head 28 31 0
/-- The keys a request names. -/
def Chunk.named (c : Chunk) : List Nat := cut 8 c.count c.body
/-- The gradient of entry e. -/
def Chunk.grad (c : Chunk) (gl dim e : Nat) : List Nat := cut 4 dim (c.body >>> (512 * ((c.count + 7) / 8 + e * gl)))

/-- What sets apart the lines read for entry e of a chunk. -/
def Chunk.gen (c : Chunk) (e : Nat) : Nat := (c.no + 1) * 1024 + e

/-! ### Updating a row (R389, R390) -/

/-- apply_update: the new row and the new state. -/
def applyUpdate (fmt dim opt lr mu eps row state : Nat) (g : List Nat) : Nat × Nat :=
  let v := (decodeRow fmt dim row).map fun x => fp32.round x
  let put (l : List Nat) : Nat := encodeRow fmt (l.map f32)
  match opt with
  | 0 => (put (List.zipWith (fun w x => f32Sub w (f32Mul lr x)) v g), state)
  | 1 =>
    let m := List.zipWith (fun m x => f32Add (f32Mul mu m) x) (cut 4 dim state) g
    (put (List.zipWith (fun w x => f32Sub w (f32Mul lr x)) v m), pack 32 m)
  | _ =>
    let s := f32Div (orderedSum (g.map fun x => f32Mul x x)) (f32OfNat dim)
    let a := f32Add (state % 2 ^ 32) s
    let den := f32Add (f32Sqrt a) eps
    (put (List.zipWith (fun w x => f32Sub w (f32Div (f32Mul lr x) den)) v g), a)

/-- Bytes of state an optimizer keeps for a row. -/
def stateBytes (opt dim : Nat) : Nat := if opt = 0 then 0 else if opt = 1 then 4 * dim else 4

/-- The row of a key, in the queues for rows. -/
def rowOf (t key : Nat) : Nat := t * 2 ^ 64 + key

/-- Works that run no more leave the row queues. -/
def Blk.trimUpd (b : Blk) : Blk :=
  let runs_ (u : Nat × Nat) : Bool := match b.work? u.2 with
    | some w => w.phase == Phase.running
    | none => false
  { b with eng := { b.eng with updQ := b.eng.updQ.filter runs_ } }

/-- A work whose chunk is taken joins the queues for the rows of its keys, together (R390). -/
def Blk.joinUpd (b : Blk) (t id : Nat) (keys : List Nat) : Blk :=
  { b with eng := { b.eng with updQ := b.eng.updQ ++ ((keys.map fun k => (rowOf t k, id)).filter fun u => !b.eng.updQ.contains u) } }

/-- A work has its turn at a row. -/
def Blk.turnUpd (b : Blk) (t id key : Nat) : Bool := (b.trimUpd.eng.updQ.find? fun u => u.1 == rowOf t key) == some (rowOf t key, id)

/-- A work leaves the queue for a row. -/
def Blk.leaveUpd (b : Blk) (t id key : Nat) : Blk := { b with eng := { b.eng with updQ := b.eng.updQ.filter (· ≠ (rowOf t key, id)) } }

/-- Entry e of an update chunk: some once its row and state have been written, none where its key is missing. -/
def Blk.applyEntry (b : Blk) (w : Work) (c : Chunk) (t slot e : Nat) : Plan (Option Unit) :=
  let key := nth noKey c.keys e
  let k := b.shardOf t key
  let dim := b.get Reg.table_DIM t
  let n := stateBytes c.opt dim
  if b.keyValid t key = false then .val none
  else
    (b.locate w (c.gen 0) t slot key).andThen fun
      | none => .val none
      | some i =>
        let rv := b.rowVa t slot k i
        let ov := b.optVa t slot k i
        ((w.rd (c.gen (e + 1)) rv (b.tableRow t)).both (w.rd (c.gen (e + 1)) ov (up64 n))).andThen fun p =>
          let u := applyUpdate (b.get Reg.table_FORMAT t) dim c.opt c.lr c.mu c.eps p.1 (p.2 % 2 ^ (8 * n)) (c.grad (b.gradLines t) dim e)
          let rows := lineWrites (c.gen (e + 1)) rv (b.tableRow t) u.1
          let state := lineWrites (c.gen (e + 1)) ov (up64 n) (putBits p.2 0 (8 * n) u.2)
          (w.wrote (rows ++ state)).map some

/-- An update chunk served here: one entry after the other, each in its row's turn (R390). -/
def Blk.applyChunk (b : Blk) (w : Work) (c : Chunk) (t slot : Nat) : Blk :=
  let key := nth noKey c.keys c.pos
  if c.keys.length ≤ c.pos then b.endChunk w.id c.no c.status
  else
    let b := b.joinUpd t w.id (c.keys.drop c.pos)
    if b.turnUpd t w.id key = false then b
    else
      b.follow w.id (b.applyEntry w c t slot c.pos)
        (fun b s => (b.leaveUpd t w.id key).modChunk w.id c.no fun c => { c with pos := c.pos + 1, status := if c.status = 0 then s else c.status })
        (fun b o => (b.leaveUpd t w.id key).modChunk w.id c.no fun c => { c with
          pos := c.pos + 1, missing := if o.isSome then c.missing else c.missing ||| 2 ^ c.pos })

/-- A gather chunk served here. -/
def Blk.gatherChunk (b : Blk) (w : Work) (c : Chunk) (t slot : Nat) : Blk :=
  let one (key : Nat) : Plan (Option Nat) := if b.keyValid t key then b.gather w (c.gen 0) t slot key else .val none
  b.follow w.id (Plan.all (c.keys.map one)) (fun b s => b.endChunk w.id c.no s) fun b rows =>
    let lines := rows.flatMap fun r => toLines (b.rowLines t) (r.getD 0)
    let miss := rows.zipIdx.foldl (fun n r => if r.1.isNone then n + 2 ^ r.2 else n) 0
    b.modChunk w.id c.no fun c => { c with phase := CPhase.done, missing := miss, rep := lines.zipIdx.map fun l => (l.2, l.1) }

/-- A chunk served here goes on. -/
def Blk.embHere (b : Blk) (w : Work) (c : Chunk) (t slot : Nat) : Blk :=
  match c.phase with
  | .waiting => if c.kind = 1 then b.gatherChunk w c t slot else b.applyChunk w c t slot
  | _ => b

/-! ### Owners (R384, R385) -/

/-- An owner answers with a status alone: at line COUNT × RL for a gather, at line 0 for an update. -/
def Blk.embRefuse (b : Blk) (w : Work) (c : Chunk) (t status missing : Nat) : Blk :=
  b.answerChunk w 0 c [] (if c.kind = 1 then Nat.min 1023 (c.count * b.rowLines t) else 0) (trailerLine status c.kind c.serial missing)

/-- A request that breaks Table 12.5 (log entry 19). -/
def Blk.embChunkBad (b : Blk) (c : Chunk) (t : Nat) : Bool :=
  c.count == 0 || decide (448 < c.count) ||
  if c.kind = 1 then decide (1024 < c.count * b.rowLines t + 1)
  else c.opt == 3 || decide (1024 < 1 + (c.count + 7) / 8 + c.count * b.gradLines t)

/-- An owner begins with a chunk: its table, its tenant, its version. -/
def Blk.embBegin (b : Blk) (w : Work) (c : Chunk) : Blk :=
  let t := dfield c.head 2 11 0
  if b.get Reg.table_STATE t ≠ 1 ∨ b.get Reg.table_TENANT t ≠ w.tenant then b.embRefuse w c t St.tenantBlocked 0
  else
    match b.slotWith embVer t (dfield c.head 4 47 0) with
    | none => b.embRefuse w c t St.staleEpoch 0
    | some s =>
      if b.embChunkBad c t then b.embRefuse w c t St.malformed 0
      else ((b.pin w.id 0 t s).raiseNewest embVer t (dfield c.head 4 47 0)).modChunk w.id c.no fun c => { c with keys := c.named }

/-- A chunk served for a peer goes on. -/
def Blk.embOwner (b : Blk) (w : Work) : Blk :=
  match w.chunks, w.pins with
  | [], _ => if w.quiet then b.dropWork w.id else b
  | c :: _, [] => b.embBegin w c
  | c :: _, (_, t, slot) :: _ =>
    match c.phase with
    | .done =>
      let b := if c.status = St.ok then b.countN Reg.EMB_ROW_SERVED_CNT c.count else b
      if c.kind = 1 ∧ c.status = St.ok then
        b.answerChunk w 0 c (c.rep.map (·.2)) (c.count * b.rowLines t) (trailerLine St.ok 1 c.serial c.missing)
      else b.embRefuse w c t c.status (if c.status = St.ok then c.missing else 0)
    | _ => b.embHere w c t slot

/-! ### Descriptors: common fields -/

def Work.tabId (w : Work) : Nat := w.f 56 63 52
def Work.pool (w : Work) : Nat := w.f 56 51 49
def Work.isUpd (w : Work) : Bool := w.opcode == Dop.embUpdate
def Work.nIdx (w : Work) : Nat := if w.isUpd then w.f 56 41 21 else w.f 56 42 22
def Work.nBags (w : Work) : Nat := if w.isUpd then w.f 56 20 4 else w.f 56 21 5
/-- The descriptor groups positions in bags. -/
def Work.bagged (w : Work) : Bool := if w.isUpd then w.f 56 48 48 == 1 else w.pool != 0

/-- An address word of the body: its RSV bits are set, or it is misaligned. -/
def vaBad (d byte align : Nat) : Bool := dfield d byte 63 56 != 0 || dfield d byte 55 0 % align != 0

/-- EMB_LOOKUP breaks Table 12.2 or R373, 1. -/
def Blk.lookBad (b : Blk) (w : Work) : Bool :=
  let d := w.desc
  let pool := w.pool
  let arg := w.f 56 47 47
  let fmt := w.f 56 46 43
  vaBad d 16 8 || vaBad d 24 4 || vaBad d 32 4 || vaBad d 40 64 || vaBad d 48 4 || w.f 56 4 0 != 0 ||
  (pool == 0 && w.f 24 55 0 != 0) || ((w.f 32 55 0 != 0) != (pool == 3)) || ((w.f 48 55 0 != 0) != (arg == 1)) ||
  decide (4 < pool) || (w.f 56 48 48 == 1 && (pool == 0 || pool == 4)) || (arg == 1 && pool != 4) || decide (13 < fmt) ||
  w.nIdx == 0 || decide (2 ^ 20 < w.nIdx) || (if pool = 0 then w.nBags != 0 else w.nBags == 0 || decide (65536 < w.nBags)) ||
  !dimOk fmt (b.get Reg.table_DIM w.tabId)

/-- EMB_UPDATE breaks Table 12.7 or R388, but for what its slot decides. -/
def Blk.updBad (b : Blk) (w : Work) : Bool :=
  let d := w.desc
  let pool := w.pool
  let opt := w.f 56 47 46
  let dim := b.get Reg.table_DIM w.tabId
  vaBad d 16 8 || vaBad d 24 4 || vaBad d 32 4 || vaBad d 40 64 || vaBad d 48 16 || w.f 56 3 0 != 0 ||
  ((w.f 24 55 0 != 0) != w.bagged) || ((w.f 32 55 0 != 0) != (pool == 3)) ||
  (if w.bagged then pool == 0 || decide (3 < pool) else pool != 0) || opt == 3 || decide (2 < w.f 56 45 42) ||
  w.nIdx == 0 || decide (2 ^ 20 < w.nIdx) || (if w.bagged then w.nBags == 0 || decide (65536 < w.nBags) else w.nBags != 0) ||
  decide (4096 < dim) || (opt == 1 && decide (2 ^ b.get Reg.table_OPT_STRIDE_LOG2 w.tabId < 4 * dim)) ||
  (opt == 2 && b.get Reg.table_OPT_STRIDE_LOG2 w.tabId == 0)

/-- The bag offsets, empty where positions are not grouped. -/
def Work.offsets (w : Work) : Plan (List Nat) :=
  if w.bagged then (w.rd 0 (w.f 24 55 0) (4 * (w.nBags + 1))).map (cut 4 (w.nBags + 1)) else .val []

/-- Numbers that never decrease. -/
def rising : List Nat → Bool
  | a :: b :: l => decide (a ≤ b) && rising (b :: l)
  | _ => true

/-- Bag offsets as R373, 3 asks. -/
def offsetsOk (n : Nat) (l : List Nat) : Bool := l.isEmpty || (l.headD 1 == 0 && rising l && l.getLast?.getD 0 == n)

/-- The keys. -/
def Work.keyList (w : Work) : Plan (List Nat) := (w.rd 0 (w.f 16 55 0) (8 * w.nIdx)).map (cut 8 w.nIdx)

/-- The weights, empty where there are none. -/
def Work.weights (w : Work) : Plan (List Nat) :=
  if w.pool = 3 then (w.rd 0 (w.f 32 55 0) (4 * w.nIdx)).map (cut 4 w.nIdx) else .val []

/-- First the checks that read, then the version slot (R373, R392); `snap` then holds the slot. -/
def Blk.embStart (b : Blk) (w : Work) : Blk :=
  let t := w.tabId
  if (if w.isUpd then b.updBad w else b.lookBad w) then b.endWork w.id St.malformed none
  else if b.get Reg.table_STATE t ≠ 1 then b.endQuiet w St.unmapped none
  else if b.get Reg.table_TENANT t ≠ w.tenant then b.endQuiet w St.tenantBlocked none
  else
    let bad (b : Blk) (s : Nat) : Blk := b.endQuiet w s none
    b.follow w.id w.offsets bad fun b offs =>
      if offsetsOk w.nIdx offs = false then b.endQuiet w St.malformed none
      else
        let have_ (b : Blk) (s : Nat) : Blk :=
          if w.isUpd ∧ w.f 56 47 46 ≠ 0 ∧ b.get (inSlot Reg.table_OPT_VA_A s) t = 0 then b.endQuiet w St.malformed none
          else b.modWork w.id fun w => { w with snap := [s] }
        let word := b.get Reg.table_VERSION_VA t / 8 * 8
        if word = 0 then have_ (b.pin w.id 0 t 0) 0
        else
          b.follow w.id (w.rdVol 0 word) bad fun b v =>
            match b.pinVersion embVer w.id t (v / 2 ^ 16) with
            | (some s, b) => have_ b s
            | (none, b) => b.endQuiet w St.staleEpoch none

/-! ### Chunks of a descriptor -/

/-- Distinct valid keys, in order of their first position (R375). -/
def Blk.distinctKeys (b : Blk) (t : Nat) (keys : List Nat) : List Nat := (keys.filter (b.keyValid t)).eraseDups

/-- Extra coalescing passes (R375). -/
def extraPasses (keys : List Nat) : Nat :=
  (List.range 16).foldl (fun n p => n + (((keys.filter fun k => keyHash k / 2 ^ 60 == p).length + 65535) / 65536 - 1)) 0

/-- The chunks that ask for keys: one for each key of a shard of this part, as many as fit for the others; a shard that does not
translate fails its keys. -/
def Blk.planChunks (b : Blk) (w : Work) (t slot right per base : Nat) (mk : List Nat → List Line) (keys : List Nat) : List Chunk × Blk :=
  let shards := (keys.map (b.shardOf t)).eraseDups
  let r := shards.foldl (fun (acc : List Chunk × Blk) k =>
    let mine := keys.filter fun x => b.shardOf t x == k
    let va := b.shardVa t slot k
    match b.translate w.tenant va right with
    | .fail s c => (acc.1 ++ [{ no := 0, shard := k, here := true, phase := CPhase.done, status := s, keys := mine }], acc.2.xltFault w.tenant va c)
    | .addr a =>
      let peer := a / 2 ^ 47
      let groups := if peer = b.node then mine.map fun x => [x] else runs per mine.length mine
      (acc.1 ++ groups.map fun l => { no := 0, shard := k, here := peer == b.node, peer, keys := l, lines := mk l }, acc.2)) (([] : List Chunk), b)
  (r.1.zipIdx.map fun c => { c.1 with no := base + c.2 }, r.2)

/-- What became of a key. -/
structure KeyOut where
  key : Nat
  status : Nat
  missing : Bool
  here : Bool
  row : Nat
  deriving DecidableEq, Repr

/-- The outcomes of a chunk's keys; `rl`: lines of a row. -/
def Chunk.outs (c : Chunk) (rl : Nat) : List KeyOut :=
  c.keys.zipIdx.map fun k =>
    let line (i : Nat) : Nat := match c.rep.find? fun l => l.1 == k.2 * rl + i with
      | some l => l.2.toNat
      | none => 0
    { key := k.1, status := c.status, missing := bitAt c.missing k.2, here := c.here, row := pack 512 ((List.range rl).map line) }

/-- The outcomes of a descriptor's keys, the later chunk of a key before the earlier. -/
def Work.outs (w : Work) (rl : Nat) : List KeyOut := w.chunks.reverse.flatMap fun c => c.outs rl

/-- The outcome of one key. -/
def outOf (l : List KeyOut) (key : Nat) : Option KeyOut := l.find? fun o => o.key == key

/-- A position is kept: its key is valid and not missing (R374). -/
def keptAt (l : List KeyOut) (key : Nat) : Bool :=
  match outOf l key with
  | some o => !o.missing
  | none => false

/-- The lowest position whose key failed, with its status (R379). -/
def firstFail (l : List KeyOut) (keys : List Nat) : Option (Nat × Nat) :=
  keys.zipIdx.findSome? fun k =>
    match outOf l k.1 with
    | some o => if o.status = St.ok then none else some (k.2, o.status)
    | none => none

/-- All chunks have ended. -/
def Work.chunksDone (w : Work) : Bool := w.chunks.all fun c => c.phase == CPhase.done

/-- The chunks of a descriptor go on. -/
def Blk.embChunks (b : Blk) (w : Work) (t slot : Nat) : Blk :=
  let right := if w.isUpd then rdRight + wrRight else rdRight
  b.each (w.chunks.filter fun c => c.phase != CPhase.done) fun b c =>
    match b.work? w.id with
    | none => b
    | some w => if c.here then b.embHere w c t slot else b.chunkStep w 0 c (b.shardVa t slot c.shard) right

/-- The counts of a descriptor's keys and positions, once. -/
def Blk.embCounts (b : Blk) (t : Nat) (keys : List Nat) (outs : List KeyOut) : Blk :=
  let kept := keys.filter (keptAt outs)
  let dropped := keys.length - kept.length
  let extra := extraPasses (b.distinctKeys t keys)
  let local_ := ((b.distinctKeys t keys).filterMap (outOf outs)).filter fun o => o.here && !o.missing && o.status == St.ok
  let b := (b.countN Reg.EMB_DROP_CNT dropped).countN Reg.table_DROP_CNT dropped t
  let b := (b.countN Reg.EMB_ROW_LOCAL_CNT local_.length).countN Reg.EMB_COAL_SAVED_CNT (kept.length - kept.eraseDups.length)
  if extra = 0 then b else (b.countN Reg.EMB_COAL_PASS_CNT extra).err Pg.emb 3

/-- Positions dropped. -/
def droppedOf (keys : List Nat) (outs : List KeyOut) : Nat := keys.length - (keys.filter (keptAt outs)).length

/-- DETAIL of a descriptor that ends well (R378). -/
def Blk.embDetail (b : Blk) (t : Nat) (keys : List Nat) (outs : List KeyOut) : Nat :=
  let u := b.distinctKeys t keys
  let remote := (u.filterMap (outOf outs)).filter fun o => !o.here
  u.length <<< 43 + remote.length <<< 22 + droppedOf keys outs

/-- A descriptor ends well, or with a failed key's status. -/
def Blk.embEnd (b : Blk) (w : Work) (keys : List Nat) (outs : List KeyOut) : Blk :=
  match firstFail outs keys with
  | some (p, s) => b.endQuiet w s (some p)
  | none => b.endQuiet w (if droppedOf keys outs = 0 then St.ok else St.droppedSome) (some (b.embDetail w.tabId keys outs))

/-! ### Pooling (R376, R377) -/

/-- Less in the order of `max`: −0 below +0; a NaN is neither less nor greater. -/
def Num.less (x y : Num) : Bool :=
  match x, y with
  | .nan, _ => false
  | _, .nan => false
  | .inf a, .inf b => a && !b
  | .inf a, _ => a
  | _, .inf b => !b
  | .fin a m e, .fin b n f =>
    let g := min e f
    let v := (Num.fin a m e).signed * 2 ^ (e - g).toNat
    let u := (Num.fin b n f).signed * 2 ^ (f - g).toNat
    decide (v < u) || (v == u && m == 0 && a && !b)

def Num.isNan : Num → Bool
  | .nan => true
  | _ => false

/-- The greatest of values at positions, and its position: equal values to the lowest, a NaN loses. -/
def maxAt (l : List (Nat × Num)) : Num × Nat :=
  match l with
  | [] => (.fin false 0 0, 2 ^ 32 - 1)
  | (p, v) :: l => l.foldl (fun (a : Num × Nat) x => if (a.1.isNan && !x.2.isNan) || a.1.less x.2 then (x.2, x.1) else a) (v, p)

/-- The sum of a column of terms, in a mode (R353, R354, R361). -/
def poolSum (exact int : Bool) (t : List Num) : Num :=
  if int then
    let s := t.foldl (fun (n : Int) x => n + match x with
      | .fin a m e => (Num.fin a m e).signed * 2 ^ e.toNat
      | _ => 0) 0
    .ofInt (toSigned 64 (s % 2 ^ 64).toNat) 0
  else
    let f := t.map fun x => fp32.round x
    f32 (if exact then cellRead (f.foldl (fun c x => cellAdd c (cellPartial x)) 0) fp32 else orderedSum f)

/-- One element of a bag's result. -/
def poolElem (pool : Nat) (exact int : Bool) (t : List (Nat × Num)) (weights : List Nat) : Num :=
  let v := t.map (·.2)
  match pool with
  | 1 => poolSum exact int v
  | 2 => f32 (f32Div (fp32.round (poolSum exact int v)) (f32OfNat v.length))
  | 3 => poolSum exact false (t.map fun x => (f32 (nth 0 weights x.1)).mul x.2)
  | _ => (maxAt t).1

/-- The kept positions of a range with their rows' values. -/
def Blk.termsOf (b : Blk) (t : Nat) (outs : List KeyOut) (keys : List Nat) (lo hi : Nat) : List (Nat × List Num) :=
  ((keys.zipIdx.drop lo).take (hi - lo)).filterMap fun k =>
    match outOf outs k.1 with
    | some o => if o.missing then none else some (k.2, decodeRow (b.get Reg.table_FORMAT t) (b.get Reg.table_DIM t) o.row)
    | none => none

/-- A column of terms. -/
def column (terms : List (Nat × List Num)) (j : Nat) : List (Nat × Num) := terms.map fun x => (x.1, nth .nan x.2 j)

/-- The result rows of a look-up, and its arg positions. -/
def Blk.lookRows (b : Blk) (w : Work) (keys offs weights : List Nat) (outs : List KeyOut) : List (List Num × List Nat) :=
  let t := w.tabId
  let dim := b.get Reg.table_DIM t
  let fmt := b.get Reg.table_FORMAT t
  let zero := List.replicate dim (Num.fin false 0 0)
  if w.bagged = false then
    (List.range keys.length).map fun p => match b.termsOf t outs keys p (p + 1) with
      | (_, v) :: _ => (v, [])
      | [] => (zero, [])
  else
    (List.range w.nBags).map fun g =>
      let terms := b.termsOf t outs keys (nth 0 offs g) (nth 0 offs (g + 1))
      if terms.isEmpty then (zero, List.replicate dim (2 ^ 32 - 1))
      else
        ((List.range dim).map fun j => poolElem w.pool (w.f 56 48 48 == 1) (fmt == 5 || fmt == 6) (column terms j) weights,
         if w.pool = 4 then (List.range dim).map fun j => (maxAt (column terms j)).2 else [])

/-- The lines a look-up writes. -/
def Blk.lookWrites (b : Blk) (w : Work) (rows : List (List Num × List Nat)) : List Ask :=
  let dim := b.get Reg.table_DIM w.tabId
  let fmt := w.f 56 46 43
  let n := rowBytes fmt dim
  let out := rows.zipIdx.flatMap fun r => lineWrites 0 (w.f 40 55 0 + r.2 * up64 n) n (encodeRow fmt r.1.1)
  out ++ if w.f 56 47 47 = 1 then pieceWrites 1 (w.f 48 55 0) (4 * dim * rows.length) (pack 32 (rows.flatMap (·.2))) else []

/-- What a look-up reads besides rows. -/
def Work.lookIn (w : Work) : Plan (List Nat × List Nat × List Nat) := w.keyList.both (w.offsets.both w.weights)

/-- EMB_LOOKUP goes on. -/
def Blk.lookupStep (b : Blk) (w : Work) : Blk :=
  let t := w.tabId
  match w.snap with
  | [] => b.embStart w
  | slot :: rest =>
    b.follow w.id w.lookIn (fun b s => b.endQuiet w s none) fun b p =>
      let keys := p.1
      match rest with
      | [] =>
        let version := b.get (inSlot Reg.table_VERSION_A slot) t
        let mk (l : List Nat) : List Line := embLines 1 w.scope t version 0 0 0 0 0 l []
        let (cs, b) := b.planChunks w t slot rdRight (Nat.min 448 (1023 / b.rowLines t)) 0 mk (b.distinctKeys t keys)
        b.modWork w.id fun w => { w with chunks := cs, snap := [slot, 1] }
      | stage :: _ =>
        if w.chunksDone = false then b.embChunks w t slot
        else
          let outs := w.outs (b.rowLines t)
          if stage = 1 then (b.embCounts t keys outs).modWork w.id fun w => { w with snap := [slot, 2] }
          else if (firstFail outs keys).isSome then b.embEnd w keys outs
          else
            b.follow w.id (w.wrote (b.lookWrites w (b.lookRows w keys p.2.1 p.2.2 outs))) (fun b s => b.endQuiet w s none) fun b _ =>
              b.embEnd w keys outs

/-! ### Gradients (R388) -/

/-- The gradient rows that positions need, by row: their FP32 or smaller elements' exact values. -/
def Blk.gradRows (b : Blk) (w : Work) (rows : List Nat) : Plan (List (Nat × List Num)) :=
  let dim := b.get Reg.table_DIM w.tabId
  let fmt := w.f 56 45 42
  let n := segBytes fmt dim
  Plan.all (rows.map fun r => (w.rd 0 (w.f 40 55 0 + r * up64 n) n).map fun v => (r, decodeSeg fmt dim v))

/-- The bag of a position. -/
def bagOf (offs : List Nat) (p : Nat) : Nat := (offs.drop 1).foldl (fun n o => if o ≤ p then n + 1 else n) 0

/-- The factor c_p of a position; `kept`: its bag's kept positions. -/
def factorOf (pool p kept : Nat) (weights : List Nat) : Nat :=
  match pool with
  | 3 => nth 0 weights p
  | 2 => f32Div (f32OfNat 1) (f32OfNat kept)
  | _ => f32OfNat 1

/-- The gradient of a key: its positions' terms in ascending order, each rounded once, summed by R354. -/
def Blk.gradOf (b : Blk) (w : Work) (keys offs weights : List Nat) (kept : Nat → Bool) (rows : List (Nat × List Num)) (key : Nat) : List Nat :=
  let rowAt (r : Nat) : List Num := match rows.find? fun x => x.1 == r with
    | some x => x.2
    | none => []
  let terms := (keys.zipIdx.filter fun k => k.1 == key).map fun k =>
    if w.bagged = false then (rowAt k.2).map fun x => fp32.round x
    else
      let g := bagOf offs k.2
      let n := (((keys.zipIdx.drop (nth 0 offs g)).take (nth 0 offs (g + 1) - nth 0 offs g)).filter fun x => kept x.1).length
      (rowAt g).map fun x => fp32.round ((f32 (factorOf w.pool k.2 n weights)).mul x)
  (List.range (b.get Reg.table_DIM w.tabId)).map fun j => orderedSum (terms.map fun t => nth 0 t j)

/-- Entries an update chunk can hold (Table 12.5). -/
def updMax (gl : Nat) : Nat := ((List.range 449).filter fun n => decide (1 + (n + 7) / 8 + n * gl ≤ 1024)).length - 1

/-- The update chunks of the keys that are kept. -/
def Blk.sendUpdates (b : Blk) (w : Work) (slot : Nat) (keys offs weights : List Nat) (kept : Nat → Bool) (send : List Nat) : Blk :=
  let t := w.tabId
  let row (p : Nat) : Nat := if w.bagged then bagOf offs p else p
  let rows := ((keys.zipIdx.filter fun k => send.contains k.1).map fun k => row k.2).eraseDups
  b.follow w.id ((b.gradRows w rows).both (w.rd 0 (w.f 48 55 0) 16)) (fun b s => b.endQuiet w s none) fun b p =>
    let gl := b.gradLines t
    let version := b.get (inSlot Reg.table_VERSION_A slot) t
    let mk (l : List Nat) : List Line :=
      embLines 2 w.scope t version (w.f 56 47 46) (p.2 % 2 ^ 32) (p.2 >>> 32 % 2 ^ 32) (p.2 >>> 64 % 2 ^ 32) gl l
        (l.map (b.gradOf w keys offs weights kept p.1))
    let (cs, b) := b.planChunks w t slot (rdRight + wrRight) (updMax gl) (2 ^ 21) mk send
    b.modWork w.id fun w => { w with chunks := w.chunks ++ cs, snap := [slot, 2] }

/-- EMB_UPDATE goes on. Where the factor of `mean` needs to know which keys of a `hash` table are missing, the owners are asked
for the rows first (log entry 20). -/
def Blk.updateStep (b : Blk) (w : Work) : Blk :=
  let t := w.tabId
  match w.snap with
  | [] => b.embStart w
  | slot :: rest =>
    b.follow w.id w.lookIn (fun b s => b.endQuiet w s none) fun b p =>
      let keys := p.1
      let all := b.distinctKeys t keys
      match rest with
      | [] =>
        if w.pool = 2 ∧ b.flag Reg.table_SHARD t = true then
          let version := b.get (inSlot Reg.table_VERSION_A slot) t
          let mk (l : List Nat) : List Line := embLines 1 w.scope t version 0 0 0 0 0 l []
          let (cs, b) := b.planChunks w t slot (rdRight + wrRight) (Nat.min 448 (1023 / b.rowLines t)) 0 mk all
          b.modWork w.id fun w => { w with chunks := cs, snap := [slot, 1] }
        else b.sendUpdates w slot keys p.2.1 p.2.2 (b.keyValid t) all
      | stage :: _ =>
        if w.chunksDone = false then b.embChunks w t slot
        else
          let outs := w.outs (b.rowLines t)
          if stage = 1 then
            let found (k : Nat) : Bool := match outOf outs k with
              | some o => o.status == St.ok && !o.missing
              | none => false
            b.sendUpdates w slot keys p.2.1 p.2.2 (keptAt outs) (all.filter found)
          else if stage = 2 then (b.embCounts t keys outs).modWork w.id fun w => { w with snap := [slot, 3] }
          else b.embEnd w keys outs

/-! ### EMB_CMD (R371, R393, R394) -/

def embCmd : CmdReg := ⟨Reg.EMB_CMD_STATUS_DONE, Reg.EMB_CMD_STATUS_CODE, Pg.emb⟩

/-- A command finishes. -/
def Blk.embFinish (b : Blk) (code : Nat) : Blk := b.cmdEndRej embCmd 4 code

/-- A stride of Table 12.1. -/
def strideOk (n : Nat) : Bool := decide (6 ≤ n) && decide (n ≤ 13)

/-- An address of a slot is misaligned. -/
def Blk.slotMisaligned (b : Blk) (t slot : Nat) : Bool :=
  let n := 2 ^ b.get Reg.table_SHARD_LOG2 t
  b.get (inSlot Reg.table_VA_BASE_A slot) t % n != 0 || b.get (inSlot Reg.table_OPT_VA_A slot) t % n != 0

/-- `define` may not act on an entry (R371). -/
def Blk.defineBad (b : Blk) (t : Nat) : Bool :=
  let g (f : Fld) : Nat := b.get f t
  let fmt := g Reg.table_FORMAT
  let n := b.tableRow t
  let st := g Reg.table_STRIDE_LOG2
  let os := g Reg.table_OPT_STRIDE_LOG2
  let sh := 2 ^ g Reg.table_SHARD_LOG2
  let dl := g Reg.table_DIR_LOG2
  decide (13 < fmt) || !dimOk fmt (g Reg.table_DIM) || g Reg.table_DIM == 0 || decide (16384 < g Reg.table_DIM) || decide (8192 < n) ||
  decide (2 ^ st < n) || !strideOk st || (os != 0 && !strideOk os) || g Reg.table_NOWN == 0 || decide (64 < g Reg.table_NOWN) ||
  decide (g Reg.table_SHARD_LOG2 < 26) || decide (55 < g Reg.table_SHARD_LOG2) || b.slotMisaligned t 0 ||
  if b.flag Reg.table_SHARD t then
    decide (dl < 10) || decide (31 < dl) || g Reg.table_ROWS != 0 || decide (sh < 2 ^ (dl + 3) + 2 ^ (dl + st)) || decide (sh < 2 ^ (dl + os))
  else dl != 0 || g Reg.table_ROWS == 0 || decide (sh < b.rpo t * 2 ^ st) || decide (sh < b.rpo t * 2 ^ os)

/-- `define`. -/
def Blk.embDefine (b : Blk) (t : Nat) : Blk :=
  b.cmd embCmd (some 4) fun b =>
    if b.get Reg.table_STATE t ≠ 0 then b.embFinish badState
    else if b.defineBad t then b.embFinish badRange
    else ((b.puts t [(Reg.table_STATE, 1), (Reg.table_SSTATE_A, 1)]).notePassed embVer t).embFinish ok

/-- `undefine`: both slots are free with the entry (log entry 21). -/
def Blk.embUndefine (b : Blk) (t : Nat) : Blk :=
  b.cmd embCmd (some 4) fun b =>
    if b.get Reg.table_STATE t ≠ 1 then b.embFinish badState
    else if b.pinCount 0 t 0 + b.pinCount 0 t 1 ≠ 0 then b.embFinish busy
    else ((b.puts t [(Reg.table_STATE, 0), (Reg.table_SSTATE_A, 0), (Reg.table_SSTATE_B, 0)]).notePassed embVer t).embFinish ok

/-- `stage` (R393). -/
def Blk.embStage (b : Blk) (t slot : Nat) : Blk :=
  b.cmd embCmd (some 4) fun b =>
    if b.get Reg.table_STATE t ≠ 1 ∨ b.get (inSlot Reg.table_SSTATE_A slot) t ≠ 0 then b.embFinish badState
    else if b.slotMisaligned t slot ∨ b.get Reg.table_VERSION_A t = b.get Reg.table_VERSION_B t then b.embFinish badRange
    else ((b.put (inSlot Reg.table_SSTATE_A slot) 1 t).notePassed embVer t).embFinish ok

end Sys2Proof.Machine
end

