-- ==== Sys2Proof/Machine/Vse.lean ====
section
/-! DEFINITION. Vector search (ch. 13): scores, filter programs, the scan of a shard, searches and re-ranking. -/
namespace Sys2Proof.Machine

/-! ### Shapes of an index (R399, R400) -/

/-- M. -/
def Blk.subs (b : Blk) (x : Nat) : Nat := nth 128 [8, 16, 32, 64, 96, 128] (b.get Reg.index_MSEL x)
/-- Bits of a code element, and centroids of a subquantizer. -/
def Blk.codeBits (b : Blk) (x : Nat) : Nat := if b.flag Reg.index_CODE4 x then 4 else 8
def Blk.cents (b : Blk) (x : Nat) : Nat := 2 ^ b.codeBits x
/-- C and RS. -/
def Blk.codeLen (b : Blk) (x : Nat) : Nat := b.subs x * b.codeBits x / 8
def Blk.recSize (b : Blk) (x : Nat) : Nat := up64 (b.codeLen x + 32)
def Blk.dim (b : Blk) (x : Nat) : Nat := b.get Reg.index_DIM x
/-- The base of a shard's main lists in a slot, and of its side list. -/
def Blk.listBase (b : Blk) (x slot k : Nat) : Nat := b.get (inSlot Reg.index_LIST_VA_A slot) x + k * 2 ^ b.get Reg.index_SHARD_LOG2 x
def Blk.sideBase (b : Blk) (x k : Nat) : Nat := b.get Reg.index_SIDE_VA x + k * 2 ^ b.get Reg.index_SHARD_LOG2 x
/-- The shard this part owns. -/
def Blk.ownShard (b : Blk) (x : Nat) : Option Nat := if b.get Reg.index_OWN_SHARD x = 0x7F then none else some (b.get Reg.index_OWN_SHARD x)

/-! ### Scores (R403, R404) -/

/-- One term of a score, rounded once. -/
def scoreTerm (ip : Bool) (q c : Num) : Nat :=
  if ip then fp32.round (q.mul c).neg
  else
    let d := q.add c.neg
    fp32.round (d.mul d)

/-- A score against a vector, in index order. -/
def scoreOf (ip : Bool) (q c : List Num) : Nat := orderedSum (List.zipWith (scoreTerm ip) q c)

/-- The order of scores: −0 as +0, NaN above every number. -/
def scoreKey (s : Nat) : Nat := if f32Nan s then 2 ^ 33 else if s % 2 ^ 32 = 2 ^ 31 then f32Key 0 else f32Key s

/-- Insert in order of a key; equal keys keep their order. -/
def insertBy {α : Type} (key : α → Nat × Nat) (x : α) : List α → List α
  | [] => [x]
  | y :: l => if (key x).1 < (key y).1 ∨ ((key x).1 = (key y).1 ∧ (key x).2 < (key y).2) then x :: y :: l else y :: insertBy key x l

/-- Sort by a key. -/
def sortBy {α : Type} (key : α → Nat × Nat) (l : List α) : List α := l.foldl (fun s x => insertBy key x s) []

/-- The best of candidates under R404. -/
def bestOf (k : Nat) (l : List Cand) : List Cand := (sortBy (fun c => (scoreKey c.score, c.id)) l).take k

/-- The table row of a subspace: its scores against each centroid. -/
def tableRowOf (ip : Bool) (q : List Num) (cents : List (List Num)) : List Nat := cents.map (scoreOf ip q)

/-- A code's score with FP16 tables. -/
def scoreF16 (tables : List (List Nat)) (code : List Nat) : Nat :=
  orderedSum (List.zipWith (fun t c => fp32.round (fp16.decode (fp16.round (f32 (nth 0 t c))))) tables code)

/-- A code's score with INT8 tables: base plus scale times an exact integer sum; the quotient is rounded once (log entry 22). -/
def scoreI8 (tables : List (List Nat)) (code : List Nat) : Nat :=
  let lo := tables.map fun t => (t.drop 1).foldl f32Min (t.headD 0)
  let hi := tables.map fun t => (t.drop 1).foldl f32Max (t.headD 0)
  let spans := List.zipWith f32Sub hi lo
  let span := (spans.drop 1).foldl f32Max (spans.headD 0)
  let s := if span % 2 ^ 31 = 0 then 0x3F800000 else f32Div span (f32OfNat 255)
  let entry (l : Nat) (v : Nat) : Int :=
    let q := ((f32 v).add (f32 l).neg).div (f32 s)
    roundInt 0 255 q.1 q.2
  let i := (List.zipWith (fun (p : Nat × List Nat) c => entry p.1 (nth 0 p.2 c)) (lo.zip tables) code).foldl (· + ·) 0
  f32Add (orderedSum lo) (f32Mul s (fp32.round (.ofInt i 0)))

/-! ### Filter programs (R405 to R407) -/

/-! Fields of a filter block of 192 bytes. -/
def fbCount (f : Nat) : Nat := dfield f 0 4 0
def fbHashLog (f : Nat) : Nat := dfield f 1 3 0
def fbHashVa (f : Nat) : Nat := dfield f 8 55 0
def fbConst (f i : Nat) : Nat := dfield f (32 + 4 * i) 31 0
def fbInstr (f i : Nat) : Nat := dfield f (64 + 4 * i) 31 0

/-- A field test's OFF and W lie in the attribute block. -/
def testField (i : Nat) : Bool := bits i 22 21 != 3 && decide (bits i 27 23 + 2 ^ bits i 22 21 ≤ 32)

/-- An instruction is as Table 13.3 gives it. -/
def instrOk (f i : Nat) : Bool :=
  match bits i 31 28 with
  | 1 => testField i && decide (bits i 19 17 ≤ 5) && (!bitAt i 16 || bits i 15 3 == 0)
  | 2 => testField i && bits i 13 0 == 0
  | 3 => testField i && bits i 20 20 == 0 && bits i 16 0 == 0
  | 4 => testField i && bits i 20 0 == 0
  | 5 => testField i && bits i 20 0 == 0 && fbHashVa f != 0
  | 8 => bits i 27 0 == 0
  | 9 => bits i 27 0 == 0
  | 10 => bits i 27 0 == 0
  | _ => false

/-- The depth of the stack after a program; none where it underflows or overflows. -/
def stackDepth : List Nat → Nat → Option Nat
  | [], d => some d
  | i :: l, d =>
    let op := bits i 31 28
    if op = 10 then (if d = 0 then none else stackDepth l d)
    else if op = 8 ∨ op = 9 then (if d < 2 then none else stackDepth l (d - 1))
    else if 8 ≤ d then none else stackDepth l (d + 1)

/-- A filter block breaks R407. -/
def filterBad (f : Nat) : Bool :=
  let n := fbCount f
  let prog := (List.range n).map (fbInstr f)
  dfield f 0 7 5 != 0 || dfield f 1 7 4 != 0 || dfield f 2 47 0 != 0 || dfield f 8 63 56 != 0 || dfield f 16 127 0 != 0 ||
  dfield f 160 255 0 != 0 || decide (16 < n) || fbHashVa f % 64 != 0 ||
  (fbHashVa f != 0 && (decide (fbHashLog f < 4) || decide (13 < fbHashLog f))) || !(prog.all (instrOk f)) ||
  (n != 0 && stackDepth prog 0 != some 1)

/-- Look a value up in a hashed set (R406). -/
def inHash (w : Work) (gen va lg v : Nat) : Nat → Nat → Plan Bool
  | 0, _ => .val false
  | n + 1, s => (w.rd gen (va + 4 * s) 4).andThen fun x =>
      if v = 2 ^ 32 - 1 then .val false else if x = v then .val true else if x = 2 ^ 32 - 1 then .val false
      else inHash w gen va lg v n ((s + 1) % 2 ^ lg)

/-- What one test pushes (Table 13.3). -/
def testPush (w : Work) (gen f i attr : Nat) : Plan Bool :=
  let n := 2 ^ bits i 22 21
  let raw := dfield attr (bits i 27 23) (8 * n - 1) 0
  let signed := !bitAt i 20
  let num (width v : Nat) : Int := if signed then toSigned width v else (v : Int)
  match bits i 31 28 with
  | 1 =>
    let x := num (8 * n) raw
    let y := if bitAt i 16 then num 32 (fbConst f (bits i 2 0)) else num 16 (bits i 15 0)
    .val (match bits i 19 17 with
      | 0 => decide (x = y)
      | 1 => decide (x ≠ y)
      | 2 => decide (x < y)
      | 3 => decide (x ≤ y)
      | 4 => decide (y < x)
      | _ => decide (y ≤ x))
  | 2 =>
    let x := num (8 * n) raw
    .val (decide (num 32 (fbConst f (bits i 19 17)) ≤ x) && decide (x ≤ num 32 (fbConst f (bits i 16 14))))
  | 3 => .val (raw &&& fbConst f (bits i 19 17) != 0)
  | 4 => .val (decide (raw < 256) && bitAt (dfield f 128 255 0) raw)
  | _ =>
    let lg := fbHashLog f
    if raw = 2 ^ 32 - 1 then .val false else inHash w gen (fbHashVa f) lg raw (2 ^ lg) ((raw * 0x9E3779B1 % 2 ^ 32) >>> (32 - lg))

/-- Run a program on an attribute block, from a stack. -/
def runFilter (w : Work) (gen f attr : Nat) : List Nat → List Bool → Plan Bool
  | [], s => .val (s.headD true)
  | i :: l, s =>
    match bits i 31 28, s with
    | 8, x :: y :: s => runFilter w gen f attr l ((x && y) :: s)
    | 9, x :: y :: s => runFilter w gen f attr l ((x || y) :: s)
    | 10, x :: s => runFilter w gen f attr l ((!x) :: s)
    | _, s => (testPush w gen f i attr).andThen fun v => runFilter w gen f attr l (v :: s)

/-- A code passes a filter; without one every code passes. -/
def passes (w : Work) (gen : Nat) (filter : Option Nat) (attr : Nat) : Plan Bool :=
  match filter with
  | none => .val true
  | some f => runFilter w gen f attr ((List.range (fbCount f)).map (fbInstr f)) []

/-! ### The side list and visibility (R416, R419) -/

/-- A side entry: its position, tag line and record. -/
structure Side where
  pos : Nat
  tag : Nat
  rec_ : Nat
  deriving DecidableEq, Repr

def Side.seq (e : Side) : Nat := dfield e.tag 8 63 0
def Side.item (e : Side) : Nat := dfield e.tag 16 47 0
def Side.insert_ (e : Side) : Bool := dfield e.tag 22 7 0 == 1
def Side.tomb (e : Side) : Bool := dfield e.tag 22 7 0 == 2
def Side.list (e : Side) : Nat := dfield e.tag 24 31 0
def Side.minV (e : Side) : Nat := dfield e.tag 28 47 0
def Side.foldV (e : Side) : Nat := dfield e.tag 34 47 0

/-- Counted for a version, whatever its sequence. -/
def Side.countedFor (e : Side) (v : Nat) : Bool :=
  dfield e.tag 0 63 0 == e.pos && decide (e.minV ≤ v) && (e.foldV == 0 || decide (v < e.foldV))

/-- Counted for a version and a snapshot (R419). -/
def Side.counted (e : Side) (v s : Nat) : Bool := e.countedFor v && decide (e.seq ≤ s)

/-- Where entry p of a side list lies. -/
def Blk.entryVa (b : Blk) (x k p : Nat) : Nat := b.sideBase x k + 64 + p % 2 ^ b.get Reg.index_SIDE_LOG2 x * (64 + b.recSize x)

/-- The side list of a shard from START to APPEND. -/
def Blk.sideList (b : Blk) (w : Work) (gen x k : Nat) : Plan (List Side) :=
  (w.rd gen (b.sideBase x k) 64).andThen fun h =>
    let start := dfield h 8 63 0
    Plan.all ((List.range (dfield h 0 63 0 - start)).map fun i =>
      (w.rd gen (b.entryVa x k (start + i)) 64).andThen fun tag =>
        if dfield tag 22 7 0 = 1 then (w.rd gen (b.entryVa x k (start + i) + 64) (b.recSize x)).map fun r => ⟨start + i, tag, r⟩
        else .val ⟨start + i, tag, 0⟩)

/-- A record under its list, with its sequence. -/
structure Rec where
  list : Nat
  seq : Nat
  raw : Nat
  deriving DecidableEq, Repr

/-- The attribute block and the item of a record. -/
def Blk.attrOf (b : Blk) (x raw : Nat) : Nat := (raw >>> (8 * (b.recSize x - 32))) % 2 ^ 256
def Blk.itemOf (b : Blk) (x raw : Nat) : Nat := b.attrOf x raw % 2 ^ 48
/-- The code of a record. -/
def Blk.codeOf (b : Blk) (x raw : Nat) : List Nat :=
  (List.range (b.subs x)).map fun j => (raw >>> (j * b.codeBits x)) % 2 ^ b.codeBits x

/-- An item record is visible: no counted tombstone of its item is younger. -/
def visible (tombs : List Side) (item seq : Nat) : Bool := !tombs.any fun e => e.item == item && decide (seq < e.seq)

/-- The main records of a list; its lines come through the scan unit's own port (R426). -/
def Blk.mainList (b : Blk) (w : Work) (gen x slot k l : Nat) : Plan (List Rec) :=
  let base := b.listBase x slot k
  (w.rd gen (base + 16 * l) 16 true).andThen fun d =>
    Plan.all ((List.range (d >>> 64)).map fun r =>
      (w.rd gen (base + d % 2 ^ 64 + r * b.recSize x) (b.recSize x) true).map fun raw =>
        ⟨l, b.get (inSlot Reg.index_BASE_SEQ_A slot) x, raw⟩)

/-! ### The scan of a shard (R410, R415) -/

/-- The distance tables of a query (R403). -/
def Blk.tables (b : Blk) (w : Work) (x : Nat) (q : List Num) : Plan (List (List Nat)) :=
  let n := b.dim x / b.subs x
  let ip := b.flag Reg.index_METRIC x
  Plan.all ((List.range (b.subs x)).map fun j =>
    (Plan.all ((List.range (b.cents x)).map fun c =>
      (w.rd 0 (b.get Reg.index_CB_VA x + (j * b.cents x + c) * n * 4) (4 * n)).map (decodeSeg 0 n))).map
      (tableRowOf ip ((q.drop (j * n)).take n)))

/-- What a scan finds for one query. -/
structure Found where
  scanned : Nat
  passing : Nat
  best : List Cand
  deriving DecidableEq, Repr

/-- One query of a scan: its vector, its lists, its filter. -/
structure Probe where
  vec : List Num
  lists : List Nat
  filter : Option Nat
  deriving DecidableEq, Repr

/-- Score and filter the visible records of one query. -/
def Blk.scanRecs (b : Blk) (w : Work) (gen x k : Nat) (int8 : Bool) (p : Probe) (recs : List Rec) : Plan Found :=
  (b.tables w x p.vec).andThen fun t =>
    (Plan.all (recs.map fun r => passes w gen p.filter (b.attrOf x r.raw))).map fun pass =>
      let hits := (recs.zip pass).filterMap fun r => if r.2 then some r.1 else none
      let score (r : Rec) : Nat := if int8 then scoreI8 t (b.codeOf x r.raw) else scoreF16 t (b.codeOf x r.raw)
      { scanned := recs.length, passing := hits.length,
        best := bestOf k (hits.map fun r => { id := b.itemOf x r.raw, score := score r, list := r.list }) }

/-- Scan a shard for one query at a snapshot. -/
def Blk.scanOne (b : Blk) (w : Work) (gen x slot shard snap k : Nat) (int8 : Bool) (side : List Side) (p : Probe) : Plan Found :=
  let v := b.get (inSlot Reg.index_VERSION_A slot) x
  let counted := side.filter fun e => e.counted v snap
  let tombs := counted.filter Side.tomb
  (Plan.all (p.lists.map fun l => b.mainList w gen x slot shard l)).andThen fun main =>
    let mine := (counted.filter fun e => e.insert_ && p.lists.contains e.list).map fun e => (⟨e.list, e.seq, e.rec_⟩ : Rec)
    b.scanRecs w gen x k int8 p ((main.flatten ++ mine).filter fun r => visible tombs (b.itemOf x r.raw) r.seq)

/-! ### Scan chunks (Table 13.6) -/

def Chunk.index (c : Chunk) : Nat := dfield c.head 2 7 0
def Chunk.int8 (c : Chunk) : Bool := dfield c.head 1 2 2 == 1
def Chunk.nq (c : Chunk) : Nat := dfield c.head 3 7 0 + 1
def Chunk.k (c : Chunk) : Nat := dfield c.head 10 15 0
def Chunk.snapshot (c : Chunk) : Nat := dfield c.head 16 63 0
def Chunk.nl (c : Chunk) : Nat := dfield c.head 24 23 0
def Chunk.filtered (c : Chunk) : Bool := dfield c.head 27 0 0 == 1

/-- Lines of a query's vector, of its list numbers, and of all it carries. -/
def Blk.vecLines (b : Blk) (x : Nat) : Nat := (b.dim x * 4 + 63) / 64
def listLines (nl : Nat) : Nat := (nl * 4 + 63) / 64
def Blk.queryLines (b : Blk) (x nl : Nat) (filter : Bool) : Nat := b.vecLines x + listLines nl + if filter then 3 else 0

/-- Query i of a chunk. -/
def Blk.chunkProbe (b : Blk) (c : Chunk) (i : Nat) : Probe :=
  let x := c.index
  let raw := c.body >>> (512 * (i * b.queryLines x c.nl c.filtered))
  { vec := decodeSeg 0 (b.dim x) raw, lists := cut 4 c.nl (raw >>> (512 * b.vecLines x)),
    filter := if c.filtered then some ((raw >>> (512 * (b.vecLines x + listLines c.nl))) % 2 ^ 1536) else none }

/-- The request's lines. -/
def Blk.scanLines (b : Blk) (w : Work) (x slot snap : Nat) (int8 : Bool) (k nl : Nat) (qs : List Probe) : List Line :=
  let filter := qs.any fun q => q.filter.isSome
  let head := 0x21 + w.scope <<< 8 + b2n int8 <<< 10 + x <<< 16 + (qs.length - 1) <<< 24 + b.get (inSlot Reg.index_VERSION_A slot) x <<< 32 +
    k <<< 80 + snap <<< 128 + nl <<< 192 + b2n filter <<< 216
  .ofNat 512 head :: qs.flatMap fun q =>
    toLines (b.vecLines x) (pack 32 (q.vec.map fun v => fp32.round v)) ++ toLines (listLines nl) (pack 32 q.lists) ++
    (if filter then toLines 3 (q.filter.getD 0) else [])

/-- Lines of n results. -/
def resLines (n : Nat) : Nat := (n * 16 + 63) / 64

/-- A result of 16 bytes (R408). -/
def resBytes (c : Cand) : Nat := c.id + c.score <<< 64 + c.list <<< 96

/-- What a scan found, as reply lines. -/
def foundLines (f : Found) : List Line :=
  .ofNat 512 (f.scanned + f.passing <<< 64 + f.best.length <<< 128) :: toLines (resLines f.best.length) (pack 128 (f.best.map resBytes))

/-- Results read back from lines. -/
def candsOf (n raw : Nat) : List Cand := (cut 16 n raw).map fun r => { id := r % 2 ^ 48, score := dfield r 8 31 0, list := dfield r 12 31 0 }

/-- The replies of a chunk, query by query. -/
def foundsOf : Nat → List Nat → List Found
  | 0, _ => []
  | n + 1, l =>
    let h := l.headD 0
    let k := dfield h 16 15 0
    { scanned := dfield h 0 63 0, passing := dfield h 8 63 0, best := candsOf k (pack 512 ((l.drop 1).take (resLines k))) } ::
      foundsOf n (l.drop (1 + resLines k))

/-- A chunk served here: the shard is scanned for its queries; counts of the part, and further passes for tombstones. -/
def Blk.scanHere (b : Blk) (w : Work) (c : Chunk) (slot shard : Nat) : Blk :=
  let x := c.index
  let gen := c.gen 0
  let v := b.get (inSlot Reg.index_VERSION_A slot) x
  let plan := (b.sideList w gen x shard).andThen fun side =>
    (Plan.all ((List.range c.nq).map fun i => b.scanOne w gen x slot shard c.snapshot c.k c.int8 side (b.chunkProbe c i))).map fun fs =>
      (fs, ((side.filter fun e => e.counted v c.snapshot && e.tomb).length + 65535) / 65536 - 1)
  match c.phase with
  | .waiting =>
    b.follow w.id plan (fun b s => b.endChunk w.id c.no s) fun b r =>
      let b := (b.countN Reg.VSE_SCANNED_CNT (r.1.foldl (fun n f => n + f.scanned) 0)).countN Reg.VSE_PASSING_CNT
        (r.1.foldl (fun n f => n + f.passing) 0)
      let b := if r.2 = 0 then b else (b.countN Reg.VSE_TOMB_PASS_CNT r.2).err Pg.vse 6
      b.modChunk w.id c.no fun c => { c with phase := CPhase.done, rep := (r.1.flatMap foundLines).zipIdx.map fun l => (l.2, l.1) }
  | _ => b

/-- A request that breaks Table 13.6, or holds a bad filter block or list number (log entry 19). -/
def Blk.scanBad (b : Blk) (c : Chunk) : Bool :=
  let x := c.index
  c.k == 0 || decide (4096 < c.k) || c.nl == 0 || decide (16384 < c.nl) || decide (2048 < 1 + c.nq * b.queryLines x c.nl c.filtered) ||
  decide (2048 < c.nq * (1 + resLines c.k) + 1) ||
  (List.range c.nq).any fun i =>
    let p := b.chunkProbe c i
    (p.filter.map filterBad).getD false || p.lists.any fun l => decide (b.get Reg.index_NLIST x ≤ l)

/-- An owner answers with a status alone. -/
def Blk.vseRefuse (b : Blk) (w : Work) (c : Chunk) (status : Nat) : Blk :=
  b.answerChunk w 1 c [] 0 (trailerLine status c.kind c.serial 0)

/-- An owner begins with a scan chunk. -/
def Blk.scanBegin (b : Blk) (w : Work) (c : Chunk) : Blk :=
  let x := c.index
  if b.get Reg.index_STATE x ≠ 1 ∨ b.get Reg.index_TENANT x ≠ w.tenant then b.vseRefuse w c St.tenantBlocked
  else
    match b.slotWith vseVer x (dfield c.head 4 47 0), b.ownShard x with
    | none, _ => b.vseRefuse w c St.staleEpoch
    | _, none => b.vseRefuse w c St.unmapped
    | some s, some _ =>
      if b.scanBad c then b.vseRefuse w c St.malformed
      else (b.pin w.id 1 x s).raiseNewest vseVer x (dfield c.head 4 47 0)

/-- A scan chunk served for a peer goes on. -/
def Blk.vseOwner (b : Blk) (w : Work) : Blk :=
  match w.chunks, w.pins with
  | [], _ => if w.quiet then b.dropWork w.id else b
  | c :: _, [] => b.scanBegin w c
  | c :: _, (_, x, slot) :: _ =>
    match c.phase, b.ownShard x with
    | .done, _ =>
      if c.status = St.ok then b.answerChunk w 1 c (c.rep.map (·.2)) c.rep.length (trailerLine St.ok c.kind c.serial 0)
      else b.vseRefuse w c c.status
    | _, some k => b.scanHere w c slot k
    | _, none => b.vseRefuse w c St.unmapped

/-! ### VSE_SEARCH (Table 13.4, R408 to R412) -/

def Work.sIndex (w : Work) : Nat := w.f 40 63 56
def Work.sK (w : Work) : Nat := w.f 40 55 43
def Work.sN (w : Work) : Nat := w.f 40 42 34
def Work.sFmt (w : Work) : Nat := w.f 40 33 30
def Work.nprobe (w : Work) : Nat := w.f 48 63 41
def Work.nprobeMax (w : Work) : Nat := w.f 48 40 18

/-- The descriptor breaks Table 13.4, or its probe counts the index. -/
def Blk.searchBad (b : Blk) (w : Work) : Bool :=
  let d := w.desc
  let lists := b.get Reg.index_NLIST w.sIndex
  vaBad d 16 1 || vaBad d 24 64 || vaBad d 32 64 || dfield d 40 27 0 != 0 || dfield d 48 17 0 != 0 || dfield d 56 63 0 != 0 ||
  w.sK == 0 || decide (4096 < w.sK) || w.sN == 0 || decide (256 < w.sN) || decide (2 < w.sFmt) || w.nprobe == 0 || decide (lists < w.nprobe) ||
  (w.nprobeMax != 0 && (decide (w.nprobeMax < w.nprobe) || decide (lists < w.nprobeMax)))

/-- The filter block of a query; none without a filter. -/
def Work.filterOf (w : Work) (q : Nat) : Plan (Option Nat) :=
  if w.f 24 55 0 = 0 then .val none else (w.rd 0 (w.f 24 55 0 + if w.f 40 28 28 = 1 then 256 * q else 0) 192).map some

/-- The vector of a query, in FP32. -/
def Blk.vecOf (b : Blk) (w : Work) (x va fmt q : Nat) : Plan (List Num) :=
  let n := segBytes fmt (b.dim x)
  (w.rd 0 (va + q * up64 n) n).map (decodeSeg fmt (b.dim x))

/-- The numbers of all lists in coarse order (R404). -/
def Blk.coarse (b : Blk) (w : Work) (x : Nat) (q : List Num) : Plan (List Nat) :=
  let fmt := b.get Reg.index_CENT_FORMAT x
  let n := segBytes fmt (b.dim x)
  (Plan.all ((List.range (b.get Reg.index_NLIST x)).map fun l =>
    (w.rd 0 (b.get Reg.index_CENT_VA x + l * up64 n) n).map fun raw =>
      (l, scoreKey (scoreOf (b.flag Reg.index_METRIC x) q (decodeSeg fmt (b.dim x) raw))))).map fun s =>
    (sortBy (fun (p : Nat × Nat) => (p.2, p.1)) s).map (·.1)

/-- The lists of a query's next round (R410). -/
def Work.nextLists (w : Work) (probed : Nat) (order : List Nat) : List Nat :=
  let cap := if w.nprobeMax = 0 then w.nprobe else w.nprobeMax
  (order.drop probed).take (Nat.min w.nprobe (cap - probed))

/-- A query ready for its next round: vector, lists, filter. -/
def Blk.probeOf (b : Blk) (w : Work) (q : Query) : Plan Probe :=
  ((b.vecOf w w.sIndex (w.f 16 55 0) w.sFmt q.q).both (w.filterOf q.q)).andThen fun p =>
    (b.coarse w w.sIndex p.1).map fun o => { vec := p.1, lists := w.nextLists q.probed o, filter := p.2 }

/-- Queries that go in one chunk. -/
def Blk.perChunk (b : Blk) (x nl k : Nat) (filter : Bool) : Nat :=
  Nat.min 256 (Nat.min (2047 / b.queryLines x nl filter) (2047 / (1 + resLines k)))

/-- The chunks of queries that take the same number of lists, for one shard (R414): by runs of lists, then by queries. -/
def Blk.shardChunks (b : Blk) (w : Work) (slot snap shard : Nat) (ps : List (Nat × Probe)) : List Chunk × Blk :=
  let x := w.sIndex
  let va := b.listBase x slot shard
  let here := b.ownShard x == some shard
  let nls := match ps with
    | (_, p) :: _ => runs 16384 p.lists.length (List.range p.lists.length)
    | [] => []
  let make (peer : Nat) : List Chunk :=
    nls.flatMap fun run =>
      let filter := ps.any fun p => p.2.filter.isSome
      (runs (b.perChunk x run.length w.sK filter) ps.length ps).map fun g =>
        let qs := g.map fun p => { p.2 with lists := (p.2.lists.drop (run.headD 0)).take run.length }
        { no := 0, here, shard, peer, keys := g.map (·.1), lines := b.scanLines w x slot snap (w.f 40 29 29 == 1) w.sK run.length qs }
  if here then (make b.node, b)
  else
    match b.translate w.tenant va rdRight with
    | .addr a => (make (a / 2 ^ 47), b)
    | .fail s c => ([{ no := 0, here := true, shard, phase := CPhase.done, status := s, keys := ps.map (·.1) }], b.xltFault w.tenant va c)

/-- Start the next round of queries that take the same number of lists. -/
def Blk.startRound (b : Blk) (w : Work) (slot snap : Nat) (ps : List (Nat × Probe)) : Blk :=
  let r := (List.range (b.get Reg.index_NSHARD w.sIndex)).foldl (fun (acc : List Chunk × Blk) k =>
    let s := acc.2.shardChunks w slot snap k ps
    (acc.1 ++ s.1, s.2)) (([] : List Chunk), b)
  let base := w.chunks.length
  let cs := r.1.zipIdx.map fun c => { c.1 with no := base + c.2 }
  let begin_ (q : Query) : Query :=
    match ps.find? (fun p => p.1 == q.q) with
    | some p => { q with round := q.round + 1, probed := q.probed + p.2.lists.length, chunks := (cs.filter fun c => c.keys.contains q.q).map Chunk.no }
    | none => q
  r.2.modWork w.id fun w => { w with chunks := w.chunks ++ cs, queries := w.queries.map begin_ }

/-- The chunks of a search go on. -/
def Blk.scanChunks (b : Blk) (w : Work) (slot : Nat) : Blk :=
  b.each (w.chunks.filter fun c => c.phase != CPhase.done) fun b c =>
    match b.work? w.id with
    | none => b
    | some w => if c.here then b.scanHere w c slot c.shard else b.chunkStep w 1 c (b.listBase w.sIndex slot c.shard) rdRight

/-- The chunks of a query's round. -/
def Work.roundChunks (w : Work) (q : Query) : List Chunk := w.chunks.filter fun c => q.chunks.contains c.no

/-- What a chunk found for a query. -/
def Chunk.foundFor (c : Chunk) (q : Nat) : Found :=
  nth ⟨0, 0, []⟩ (foundsOf c.keys.length ((sortBy (fun (l : Nat × Line) => (l.1, 0)) c.rep).map fun l => l.2.toNat)) (c.keys.idxOf q)

/-- The round of a query is in (R410): its results are added up, and it goes on or is finished. Entries that share an ID and a
score come in no defined order: an open bit turns them. -/
def Blk.roundIn (b : Blk) (w : Work) (q : Query) : Query × Blk :=
  match (w.roundChunks q).find? fun c => c.status != St.ok with
  | some c => ({ q with status := some c.status, chunks := [] }, b)
  | none =>
    let fs := (w.roundChunks q).map fun c => c.foundFor q.q
    let (turn, b) := b.draw 2
    let all := q.best ++ fs.flatMap fun f => f.best
    let q := { q with chunks := [], scanned := fs.foldl (fun n f => n + f.scanned) q.scanned,
                      passing := fs.foldl (fun n f => n + f.passing) q.passing,
                      best := bestOf w.sK (if turn = 1 then all.reverse else all) }
    if q.passing < w.sK ∧ q.probed < w.nprobeMax then (q, b)
    else ({ q with status := some (if q.best.length = w.sK then St.ok else St.short) }, b)

/-- VSE_SEARCH_ROUND: a query's round is in. -/
def Blk.searchRound (b : Blk) (queue i query : Nat) : Blk :=
  match b.eng.works.find? fun w => w.queue == queue && w.index == i && w.opcode == Dop.vseSearch && w.phase == .running with
  | none => b
  | some w =>
    match w.queries.find? fun q => q.q == query with
    | none => b
    | some q =>
      if q.round = 0 ∨ q.chunks = [] ∨ q.status.isSome ∨ (w.roundChunks q).any (fun c => c.phase != CPhase.done) = true then b
      else
        let (q', b) := b.roundIn w q
        let b := if q'.status.isNone then b.count Reg.VSE_WIDEN_CNT else b
        b.modWork w.id fun w => { w with queries := w.queries.map fun (x : Query) => if x.q = query then q' else x }

/-! ### Result areas (R408, R412) -/

/-- RSTRIDE. -/
def rstride (k : Nat) : Nat := up64 (64 + k * 16)

/-- The header and results of a query, as writes. -/
def areaWrites (va k snapshot version : Nat) (q : Query) : List Ask :=
  let n := match q.status with
    | some s => if s ≤ 2 then q.best.length else 0
    | none => 0
  let head := q.status.getD 0 + n <<< 16 + (q.probed % 2 ^ 32) <<< 32 + (q.scanned % 2 ^ 64) <<< 64 + (q.passing % 2 ^ 64) <<< 128 +
    snapshot <<< 192 + version <<< 256
  lineWrites 0 (va + q.q * rstride k) 64 head ++ pieceWrites 0 (va + q.q * rstride k + 64) (16 * n) (pack 128 ((q.best.take n).map resBytes))

/-- A query failed. -/
def Query.failed (q : Query) : Bool :=
  match q.status with
  | some s => decide (2 < s)
  | none => false

/-- The descriptor's end, from its queries (R412); `scanned`: the sum DETAIL gives. -/
def Blk.endQueries (b : Blk) (w : Work) (scanned : Nat) : Blk :=
  match w.queries.find? Query.failed with
  | some q => b.endQuiet w (q.status.getD 0) (some q.q)
  | none =>
    let n := (w.queries.filter fun q => q.status == some St.short).length
    b.endQuiet w (if n = 0 then St.ok else St.short) (some (Nat.min (2 ^ 48 - 1) scanned <<< 16 + n))

/-- The checks of R409, then the version and the snapshot; `snap` then holds slot and snapshot. -/
def Blk.searchStart (b : Blk) (w : Work) : Blk :=
  let x := w.sIndex
  let bad (b : Blk) (s : Nat) : Blk := b.endQuiet w s none
  if b.searchBad w then b.endWork w.id St.malformed none
  else
    b.follow w.id (Plan.all ((List.range (if w.f 40 28 28 = 1 then w.sN else 1)).map w.filterOf)) bad fun b fs =>
      if fs.any (fun f => (f.map filterBad).getD false) = true then b.endQuiet w St.malformed none
      else if b.get Reg.index_STATE x ≠ 1 then b.endQuiet w St.unmapped none
      else if b.get Reg.index_TENANT x ≠ w.tenant then b.endQuiet w St.tenantBlocked none
      else if w.pins = [] then
        b.follow w.id (w.rdVol 0 (b.get Reg.index_VERSION_VA x)) bad fun b v =>
          match b.pinVersion vseVer w.id x (v / 2 ^ 16) with
          | (some _, b) => b.ask w.id { op := lop 1 (b.get Reg.index_SEQ_VA x / 64) 2, opc := Opc.rdVol, va := b.get Reg.index_SEQ_VA x }
          | (none, b) => b.endQuiet w St.staleEpoch none
      else
        b.follow w.id (w.rdVol 1 (b.get Reg.index_SEQ_VA x + 8)) bad fun b s =>
          b.modWork w.id fun w => { w with snap := [(w.pins.headD (0, 0, 0)).2.2, s],
                                           queries := (List.range w.sN).map fun q => { q } }

/-- Queries that may start a round: none of it is out. -/
def Work.idleQueries (w : Work) : List Query := w.queries.filter fun q => q.status.isNone && q.chunks.isEmpty

/-- Start rounds: queries whose vector or centroids cannot be read fail. -/
def Blk.startRounds (b : Blk) (w : Work) (slot snap : Nat) (idle : List Query) : Blk :=
  let plans := idle.map fun q => (q, b.probeOf w q)
  let needs := plans.flatMap fun p => match p.2 with
    | .need l => l
    | _ => []
  if needs ≠ [] then b.asks w.id needs
  else
    let bads := plans.filterMap fun p => match p.2 with
      | .bad s => some (p.1.q, s)
      | _ => none
    let good := plans.filterMap fun p => match p.2 with
      | .val v => some (p.1.q, v)
      | _ => none
    let fail (q : Query) : Query :=
      match bads.find? (fun x => x.1 == q.q) with
      | some x => { q with status := some x.2 }
      | none => q
    let b := b.modWork w.id fun w => { w with queries := w.queries.map fail }
    let sizes := (good.map fun p => p.2.lists.length).eraseDups
    b.each sizes fun b n =>
      match b.work? w.id with
      | some w => b.startRound w slot snap (good.filter fun p => p.2.lists.length == n)
      | none => b

/-- VSE_SEARCH goes on. -/
def Blk.searchStep (b : Blk) (w : Work) : Blk :=
  match w.snap with
  | slot :: snap :: rest =>
    if w.queries.all (fun q => q.status.isSome) = true then
      match rest with
      | [] =>
        let b := (b.countN Reg.VSE_QUERY_CNT w.queries.length).countN Reg.VSE_SHORT_CNT (w.queries.filter fun q => q.status == some St.short).length
        b.modWork w.id fun w => { w with snap := [slot, snap, 1] }
      | _ :: _ =>
        let version := b.get (inSlot Reg.index_VERSION_A slot) w.sIndex
        b.follow w.id (w.wrote (w.queries.flatMap (areaWrites (w.f 32 55 0) w.sK snap version))) (fun b s => b.endQuiet w s none) fun b _ =>
          b.endQueries w (w.queries.foldl (fun n q => n + q.scanned) 0)
    else
      match w.idleQueries with
      | [] => b.scanChunks w slot
      | idle => if w.chunks.all (fun c => c.phase != CPhase.waiting) = true then b.startRounds w slot snap idle else b.scanChunks w slot
  | _ => b.searchStart w

/-! ### VSE_RERANK (Table 13.10, R423) -/

def Work.rIndex (w : Work) : Nat := w.f 40 7 0
def Work.kIn (w : Work) : Nat := w.f 41 12 0
def Work.kOut (w : Work) : Nat := w.f 43 12 0
def Work.rN (w : Work) : Nat := w.f 45 8 0
def Work.rFmt (w : Work) : Nat := w.f 47 3 0

/-- The descriptor breaks Table 13.10. -/
def rerankBad (w : Work) : Bool :=
  let d := w.desc
  vaBad d 16 1 || vaBad d 24 64 || vaBad d 32 64 || dfield d 42 7 5 != 0 || dfield d 44 7 5 != 0 || dfield d 46 7 1 != 0 ||
  dfield d 47 7 4 != 0 || dfield d 48 127 0 != 0 || w.kIn == 0 || decide (4096 < w.kIn) || w.kOut == 0 || decide (4096 < w.kOut) ||
  w.rN == 0 || decide (256 < w.rN) || decide (2 < w.rFmt)

/-- The input area of a query. -/
def Work.inVa (w : Work) (q : Nat) : Nat := w.f 24 55 0 + q * rstride w.kIn

/-- One query re-ranked: its candidates scored against their originals. -/
def Blk.rerankOne (b : Blk) (w : Work) (x q count : Nat) : Plan (List Cand) :=
  (w.rd 0 (w.inVa q + 64) (16 * count)).andThen fun raw =>
    let cands := candsOf count raw
    if cands.any (fun c => decide (2 ^ 36 ≤ c.id)) = true then .bad St.malformed
    else
      (b.vecOf w x (w.f 16 55 0) w.rFmt q).andThen fun vec =>
        let n := b.dim x
        (Plan.all (cands.map fun c => w.rd 0 (b.get Reg.index_ORIG_VA x + c.id * 2 ^ b.get Reg.index_ORIG_STRIDE_LOG2 x) (2 * n))).map fun os =>
          (cands.zip os).map fun p => { p.1 with score := scoreOf (b.flag Reg.index_METRIC x) vec (decodeSeg 1 n p.2) }

/-- The output of a query, given its input header. -/
def Blk.rerankQuery (b : Blk) (w : Work) (x q : Nat) (turn : Nat) : Plan (Query × Nat) :=
  match w.rd 0 (w.inVa q) 64 with
  | .need l => .need l
  | .bad s => .val ({ q, status := some s }, 0)
  | .val h =>
    let count := dfield h 2 15 0
    let base : Query := { q, probed := dfield h 4 31 0, scanned := count, passing := count }
    let s := dfield h 0 7 0
    if 2 < s then .val ({ base with status := some (asStatus s) }, h)
    else
      match b.rerankOne w x q count with
      | .need l => .need l
      | .bad s => .val ({ base with status := some s }, h)
      | .val cs =>
        let best := bestOf w.kOut (if turn = 1 then cs.reverse else cs)
        .val ({ base with best, status := some (if best.length < w.kOut then St.short else St.ok) }, h)

/-- VSE_RERANK goes on; `snap` holds an open bit for candidates that tie. -/
def Blk.rerankStep (b : Blk) (w : Work) : Blk :=
  let x := w.rIndex
  match w.snap with
  | [] =>
    if rerankBad w ∨ b.get Reg.index_ORIG_VA x = 0 then b.endWork w.id St.malformed none
    else if b.get Reg.index_STATE x ≠ 1 then b.endWork w.id St.unmapped none
    else if b.get Reg.index_TENANT x ≠ w.tenant then b.endWork w.id St.tenantBlocked none
    else
      let (turn, b) := b.draw 2
      b.modWork w.id fun w => { w with snap := [turn] }
  | turn :: rest =>
    let head (q : Nat) : Plan Nat :=
      match w.rd 0 (w.inVa q) 64 with
      | .bad _ => .val 0
      | p => p
    let heads := Plan.all ((List.range w.rN).map head)
    b.follow w.id heads (fun b s => b.endQuiet w s none) fun b hs =>
      if hs.any (fun h => decide (w.kIn < dfield h 2 15 0)) = true then b.endQuiet w St.malformed none
      else
        b.follow w.id (Plan.all ((List.range w.rN).map fun q => b.rerankQuery w x q turn)) (fun b s => b.endQuiet w s none) fun b qs =>
          let read := (qs.filter fun p => !p.1.failed).foldl (fun n p => n + p.1.scanned) 0
          if rest = [] then (b.countN Reg.VSE_RERANK_CNT read).modWork w.id fun w => { w with snap := [turn, 1] }
          else
            let writes := qs.flatMap fun p => areaWrites (w.f 32 55 0) w.kOut (dfield p.2 24 63 0) (dfield p.2 32 47 0) p.1
            b.follow w.id (w.wrote writes) (fun b s => b.endQuiet w s none) fun b _ =>
              b.endQueries { w with queries := qs.map (·.1) } read

end Sys2Proof.Machine
end

