-- ==== Sys2Proof/Machine/VseMut.lean ====
section
/-! DEFINITION. Mutations, merges and slots of vector indexes (R416 to R422), and VSE_CMD (R402). -/
namespace Sys2Proof.Machine

/-! ### Reserving room in a side list (R417) -/

/-- Reserve n positions of a shard's side list: the position reserved, or none where the room is lacking. Each try reads the
header by RD_VOL and swaps APPEND. -/
def reserve (w : Work) (base cap n : Nat) : Nat → Nat → Plan (Option Nat)
  | 0, _ => .bad St.internal
  | fuel + 1, try_ =>
    let gen := 3 + 2 * try_
    (w.took { op := lop gen (base / 64) 2, opc := Opc.rdVol, va := base }).andThen fun h =>
      let app := h % 2 ^ 64
      let start := dfield h 8 63 0
      if start + cap < app + n then .val none
      else
        (w.took (casAsk (lop gen (base / 64) 3) base app (app + n) 0)).andThen fun old =>
          if old % 2 ^ 64 = app then .val (some app) else reserve w base cap n fuel (try_ + 1)

/-- A side list's capacity. -/
def Blk.sideCap (b : Blk) (x : Nat) : Nat := 2 ^ b.get Reg.index_SIDE_LOG2 x

/-- A tag line (Table 13.7). -/
def tagLine (pos seq item kind list minV foldV : Nat) : Nat :=
  pos % 2 ^ 64 + (seq % 2 ^ 64) <<< 64 + item <<< 128 + kind <<< 176 + list <<< 192 + minV <<< 224 + foldV <<< 272

/-- The writes of an entry, in the bulk class: its record by WR_LINE, then its tag by WR_LINE_FINAL. -/
def entryWrites (va recSize tag : Nat) (rec_ : Option Nat) : List Ask :=
  (match rec_ with
   | some r => (lineWrites 1 (va + 64) recSize r).map fun q => { q with cls := true }
   | none => []) ++
  [{ op := lop 1 (va / 64) 1, opc := Opc.wrLineFinal, va, data := .ofNat 512 tag, bulk := true, final := true, cls := true }]

/-! ### VSE_MUTATE (Table 13.8, R417, R418) -/

def Work.mIndex (w : Work) : Nat := w.f 24 7 0
def Work.nOps (w : Work) : Nat := w.f 25 16 0

/-- The descriptor breaks Table 13.8. -/
def mutateBad (w : Work) : Bool :=
  vaBad w.desc 16 64 || dfield w.desc 25 23 17 != 0 || dfield w.desc 28 287 0 != 0 || w.nOps == 0 || decide (65536 < w.nOps)

/-- An operation entry: its first line, its record. -/
structure MutOp where
  line : Nat
  rec_ : Nat
  deriving DecidableEq, Repr

def MutOp.insert_ (o : MutOp) : Bool := dfield o.line 0 7 0 == 1
def MutOp.list (o : MutOp) : Nat := dfield o.line 4 31 0

/-- An entry breaks Table 13.8. -/
def Blk.opBad (b : Blk) (x : Nat) (o : MutOp) : Bool :=
  dfield o.line 1 23 0 != 0 || dfield o.line 14 399 0 != 0 || (dfield o.line 0 7 0 != 1 && dfield o.line 0 7 0 != 2) ||
  (o.insert_ && decide (b.get Reg.index_NLIST x ≤ o.list))

/-- The item of an operation, and the shard it lives in (R401). -/
def Blk.opItem (b : Blk) (x : Nat) (o : MutOp) : Nat := if o.insert_ then b.itemOf x o.rec_ else dfield o.line 8 47 0
def Blk.itemShard (b : Blk) (x item : Nat) : Nat := (keyHash item / 2 ^ 32 * b.get Reg.index_NSHARD x) >>> 32

/-- The operations. -/
def Blk.mutOps (b : Blk) (w : Work) (x : Nat) : Plan (List MutOp) :=
  let rs := b.recSize x
  Plan.all ((List.range w.nOps).map fun i =>
    let va := w.f 16 55 0 + i * (64 + rs)
    (w.rd 0 va 64).andThen fun l => if dfield l 0 7 0 = 1 then (w.rd 0 (va + 64) rs).map fun r => ⟨l, r⟩ else .val ⟨l, 0⟩)

/-- The entries of one shard, at their positions. -/
def Blk.shardWrites (b : Blk) (x k s p : Nat) (ops : List MutOp) : List Ask :=
  ops.zipIdx.flatMap fun o =>
    let pos := p + o.2
    let list := if o.1.insert_ then o.1.list else 0
    entryWrites (b.entryVa x k pos) (b.recSize x) (tagLine pos s (b.opItem x o.1) (if o.1.insert_ then 1 else 2) list 0 0)
      (if o.1.insert_ then some o.1.rec_ else none)

/-- What became of the operations of a shard. -/
inductive ShardEnd where
  | wrote
  | dropped (n : Nat)
  | failed (status : Nat)
  deriving DecidableEq, Repr

/-- One shard of a mutation. -/
def Blk.mutShard (b : Blk) (w : Work) (x s k : Nat) (ops : List MutOp) : Plan ShardEnd :=
  match reserve w (b.sideBase x k) (b.sideCap x) ops.length (w.hist.length + 1) 0 with
  | .need l => .need l
  | .bad e => .val (.failed e)
  | .val none => .val (.dropped ops.length)
  | .val (some p) =>
    match w.wrote (b.shardWrites x k s p ops) with
    | .need l => .need l
    | .bad e => .val (.failed e)
    | .val _ => .val .wrote

/-- The shards named by the operations. -/
def Blk.mutShards (b : Blk) (w : Work) (x s : Nat) (ops : List MutOp) : Plan (List ShardEnd) :=
  let shard (o : MutOp) : Nat := b.itemShard x (b.opItem x o)
  let ks := (ops.map shard).eraseDups
  Plan.all (ks.map fun k => b.mutShard w x s k (ops.filter fun o => shard o == k))

/-- Operations dropped. -/
def droppedOps (l : List ShardEnd) : Nat :=
  l.foldl (fun n e => match e with
    | .dropped m => n + m
    | _ => n) 0

/-- The status of a mutation that commits: a failed entry write, else DROPPED_SOME where operations were dropped. -/
def mutStatus (l : List ShardEnd) : Nat :=
  match l.findSome? fun e => match e with
    | .failed s => some s
    | _ => none with
  | some s => s
  | none => if droppedOps l = 0 then St.ok else St.droppedSome

/-- The nth poll of COMMITTED, and the swap that commits. -/
def Blk.committedAsk (b : Blk) (x n : Nat) : Ask :=
  let va := b.get Reg.index_SEQ_VA x
  { op := lop (2 * n + 2) (va / 64) 2, opc := Opc.rdVol, va }
def Blk.commitAsk (b : Blk) (x s : Nat) : Ask :=
  let va := b.get Reg.index_SEQ_VA x + 8
  casAsk (lop 0 (va / 64) 3) va (s - 1) s 0

/-- A mutation waits for COMMITTED to reach s − 1 and commits (R417); `snap`: s, the status it will have, when its wait began, polls
made. -/
def Blk.commitStep (b : Blk) (w : Work) (s status polls : Nat) : Blk :=
  let x := w.mIndex
  match w.res? (b.commitAsk x s).op with
  | some r =>
    if r.status ≠ St.ok then b.endWork w.id r.status (some s)
    else
      let b := if lineGet r.data 0 8 = s - 1 then b.count Reg.VSE_MUTATE_CNT else b
      b.endWork w.id status (some s)
  | none =>
    match w.res? (b.committedAsk x polls).op with
    | none => if polls = 0 then b.ask w.id (b.committedAsk x 0) else b
    | some r =>
      if r.status ≠ St.ok then b.endWork w.id r.status (some s)
      else if lineGet r.data 8 8 = s - 1 then b.ask w.id (b.commitAsk x s)
      else b.modWork w.id fun w => { w with snap := [s, status, nth 0 w.snap 2, polls + 1], since := b.el }

/-- VSE_MUTATE goes on. -/
def Blk.mutateStep (b : Blk) (w : Work) : Blk :=
  let x := w.mIndex
  let bad (b : Blk) (s : Nat) : Blk := b.endQuiet w s none
  match w.snap with
  | [s, status, _, polls] => b.commitStep w s status polls
  | snap =>
    if snap = [] ∧ mutateBad w then b.endWork w.id St.malformed none
    else if snap = [] ∧ b.get Reg.index_STATE x ≠ 1 then b.endWork w.id St.unmapped none
    else if snap = [] ∧ b.get Reg.index_TENANT x ≠ w.tenant then b.endWork w.id St.tenantBlocked none
    else
      b.follow w.id (b.mutOps w x) bad fun b ops =>
        match snap with
        | [] =>
          if ops.any (b.opBad x) then b.endQuiet w St.malformed none
          else
            let va := b.get Reg.index_SEQ_VA x
            b.follow w.id (w.took { op := lop 1 (va / 64) 3, opc := Opc.add, va, arg := 1, data := 1 }) bad fun b t =>
              b.modWork w.id fun w => { w with snap := [(t + 1) % 2 ^ 64] }
        | s :: _ =>
          b.follow w.id (b.mutShards w x s ops) bad fun b ends =>
            let n := droppedOps ends
            let b := if n = 0 then b else (b.countN Reg.VSE_MUT_DROP_CNT n).err Pg.vse 4
            b.modWork w.id fun w => { w with snap := [s, mutStatus ends, b.el, 0] }

/-- The mutation that waits, of descriptor i of a queue. -/
def Blk.waitingMut (b : Blk) (q i : Nat) : Option Work :=
  b.eng.works.find? fun w => w.queue == q && w.index == i && w.opcode == Dop.vseMutate && w.phase == .running && w.snap.length == 4

/-- VSE_COMMIT_POLL: a poll interval has passed. -/
def Blk.commitPoll (b : Blk) (q i : Nat) : Blk :=
  match b.waitingMut q i with
  | none => b
  | some w =>
    if w.quiet ∧ b.past w.since (ns (b.get Reg.SYNC_CFG_POLL_NS)) = true then b.ask w.id (b.committedAsk w.mIndex (nth 0 w.snap 3)) else b

/-- VSE_COMMIT_TIMEOUT (R418). -/
def Blk.commitTimeout (b : Blk) (q i : Nat) : Blk :=
  match b.waitingMut q i with
  | none => b
  | some w =>
    if w.asked (b.commitAsk w.mIndex (nth 0 w.snap 0)).op ∨ b.past (nth 0 w.snap 2) (us (b.get Reg.VSE_CFG_COMMIT_WAIT_US)) = false then b
    else ((b.count Reg.VSE_COMMIT_TIMEOUT_CNT).err Pg.vse 3).endWork w.id St.internal (some (nth 0 w.snap 0))

/-! ### VSE_MERGE (Table 13.9, R420, R421) -/

def Work.gIndex (w : Work) : Nat := w.f 30 7 0
def Work.mergeSeq (w : Work) : Nat := w.f 16 63 0
def Work.newVersion (w : Work) : Nat := w.f 24 47 0
def Work.gSlot (w : Work) : Nat := w.f 31 0 0

/-- src: the staged slot with the highest version below NEW_VERSION. -/
def Blk.mergeSrc (b : Blk) (w : Work) : Option Nat :=
  let x := w.gIndex
  ([0, 1].filter fun s => b.staged vseVer x s && decide (b.get (inSlot Reg.index_VERSION_A s) x < w.newVersion)).foldl
    (fun (o : Option Nat) s =>
      match o with
      | none => some s
      | some r => if b.get (inSlot Reg.index_VERSION_A r) x < b.get (inSlot Reg.index_VERSION_A s) x then some s else some r) none

/-- A merge breaks Table 13.9 or R420, but for COMMITTED and the fit. -/
def Blk.mergeBad (b : Blk) (w : Work) : Bool :=
  dfield w.desc 31 7 1 != 0 || dfield w.desc 32 255 0 != 0 || b.staged vseVer w.gIndex w.gSlot ||
  match b.mergeSrc w with
  | none => true
  | some s => decide (w.mergeSeq < b.get (inSlot Reg.index_BASE_SEQ_A s) w.gIndex)

/-- The header of the side list as a merge read it. -/
def Blk.mergeHead (b : Blk) (w : Work) (k : Nat) : Plan Nat :=
  let va := b.sideBase w.gIndex k
  w.took { op := lop 1 (va / 64) 2, opc := Opc.rdVol, va }

/-- The tag lines from START to P − 1 at a round of the wait (R421, 1). -/
def Blk.mergeTags (b : Blk) (w : Work) (k head round : Nat) : Plan (List (Nat × Nat)) :=
  let start := dfield head 8 63 0
  Plan.all ((List.range (head % 2 ^ 64 - start)).map fun i =>
    let va := b.entryVa w.gIndex k (start + i)
    (w.took { op := lop (4 + 2 * round) (va / 64) 2, opc := Opc.rdVol, va }).map fun t => (start + i, t))

/-- The side entries below P, records of inserts with them. -/
def Blk.mergeSide (b : Blk) (w : Work) (k head round : Nat) : Plan (List Side) :=
  (b.mergeTags w k head round).andThen fun tags =>
    Plan.all (tags.map fun t =>
      if dfield t.2 22 7 0 = 1 then
        (w.rd 0 (b.entryVa w.gIndex k t.1 + 64) (b.recSize w.gIndex)).map fun r => ⟨t.1, t.2, r⟩
      else .val ⟨t.1, t.2, 0⟩)

/-- The new lists: of each list its visible main records, then its visible inserts below P in position order. -/
def Blk.mergeLists (b : Blk) (w : Work) (src k : Nat) (side : List Side) : Plan (List (List Nat)) :=
  let x := w.gIndex
  let v := b.get (inSlot Reg.index_VERSION_A src) x
  let counted := side.filter fun e => e.counted v w.mergeSeq
  let tombs := counted.filter Side.tomb
  Plan.all ((List.range (b.get Reg.index_NLIST x)).map fun l =>
    (b.mainList w 0 x src k l).map fun main =>
      let ins := (counted.filter fun e => e.insert_ && e.list == l).map fun e => (⟨l, e.seq, e.rec_⟩ : Rec)
      ((main ++ ins).filter fun r => visible tombs (b.itemOf x r.raw) r.seq).map Rec.raw)

/-- The offset of each new list: one behind the other after the directory (log entry 23), and their end. -/
def listOffsets (rs : Nat) (first : Nat) : List (List Nat) → List Nat × Nat
  | [] => ([], first)
  | l :: ls => (first :: (listOffsets rs (first + rs * l.length) ls).1, (listOffsets rs (first + rs * l.length) ls).2)

/-- The writes of the main records of the new lists, record by record. -/
def Blk.mainWrites (b : Blk) (w : Work) (k : Nat) (lists : List (List Nat)) : List (List Ask) :=
  let rs := b.recSize w.gIndex
  let base := b.listBase w.gIndex w.gSlot k
  (lists.zip (listOffsets rs (up64 (16 * lists.length)) lists).1).flatMap fun p =>
    p.1.zipIdx.map fun r => lineWrites 1 (base + p.2 + r.2 * rs) rs r.1

/-- The writes of the new directory and lists. -/
def Blk.mergeWrites (b : Blk) (w : Work) (k : Nat) (lists : List (List Nat)) : List Ask :=
  let offs := listOffsets (b.recSize w.gIndex) (up64 (16 * lists.length)) lists
  lineWrites 1 (b.listBase w.gIndex w.gSlot k) (16 * lists.length) (pack 128 ((lists.zip offs.1).map fun p => p.2 + p.1.length <<< 64)) ++
  (b.mainWrites w k lists).flatten

/-- How many main records a merge has written: DETAIL (R421). -/
def Blk.mainWritten (b : Blk) (w : Work) (k : Nat) (lists : List (List Nat)) : Nat :=
  ((b.mainWrites w k lists).filter fun l => l.all fun q => w.okOp q.op).length

/-- The entries that step 3 takes: those src counts, whatever their sequence, not yet touched for NEW_VERSION. -/
def Work.toFold (w : Work) (v : Nat) (side : List Side) : List Side :=
  side.filter fun e => e.countedFor v && e.minV != w.newVersion && e.foldV != w.newVersion

/-- The mark of an entry: its FOLD_VERSION alone. -/
def Blk.foldWrite (b : Blk) (w : Work) (k : Nat) (e : Side) : Ask :=
  let va := b.entryVa w.gIndex k e.pos + 34
  { op := lop 2 (va / 64) 1, opc := Opc.wrPartial, va, arg := 6, data := atPlace va w.newVersion, bulk := true }

/-- The copy of an entry at a new position. -/
def Blk.copyWrites (b : Blk) (w : Work) (k p : Nat) (e : Side) : List Ask :=
  entryWrites (b.entryVa w.gIndex k p) (b.recSize w.gIndex)
    (tagLine p e.seq e.item (dfield e.tag 22 7 0) e.list w.newVersion e.foldV) (if e.insert_ then some e.rec_ else none)

/-- Step 3: copies, then marks; none where the room for the copies is lacking. -/
def Blk.mergeFold (b : Blk) (w : Work) (k : Nat) (fold : List Side) : Plan (Option Unit) :=
  let x := w.gIndex
  let copies := fold.filter fun e => decide (w.mergeSeq < e.seq)
  let room := if copies = [] then .val (some 0) else reserve w (b.sideBase x k) (b.sideCap x) copies.length (w.hist.length + 1) 0
  room.andThen fun
    | none => .val none
    | some p =>
      (w.wrote (copies.zipIdx.flatMap fun e => b.copyWrites w k (p + e.2) e.1)).andThen fun _ =>
        (w.wrote (fold.map (b.foldWrite w k))).map some

/-- Step 4's write of PENDING_START and PENDING_VERSION. -/
def Blk.pendingWrite (b : Blk) (w : Work) (k p : Nat) : Ask :=
  let va := b.sideBase w.gIndex k + 16
  { op := lop 2 (va / 64) 1, opc := Opc.wrPartial, va, arg := 14, data := atPlace va (p % 2 ^ 64 + w.newVersion <<< 64), bulk := true }

/-- The end of a merge: SLOT is staged. -/
def Blk.mergeDone (b : Blk) (w : Work) (count : Nat) : Blk :=
  let x := w.gIndex
  let b := b.puts x [(inSlot Reg.index_VERSION_A w.gSlot, w.newVersion), (inSlot Reg.index_BASE_SEQ_A w.gSlot, w.mergeSeq),
    (inSlot Reg.index_SSTATE_A w.gSlot, 1)]
  ((b.notePassed vseVer x).count Reg.VSE_MERGE_CNT).endWork w.id St.ok (some count)

/-- What step 2 works from: APPEND, the side entries and the new lists. -/
def Blk.mergePlan (b : Blk) (w : Work) (src k round : Nat) : Plan (Nat × List Side × List (List Nat)) :=
  (b.mergeHead w k).andThen fun h => (b.mergeSide w k h round).andThen fun side =>
    (b.mergeLists w src k side).map fun lists => (h % 2 ^ 64, side, lists)

/-- DETAIL of a merge that ends here: the main records it has written so far. -/
def Blk.mergeDetail (b : Blk) (w : Work) : Nat :=
  match b.ownShard w.gIndex, w.snap with
  | some k, 1 :: _ :: round :: src :: _ =>
    match b.mergePlan w src k round with
    | .val p => b.mainWritten w k p.2.2
    | _ => 0
  | _, _ => 0

/-- Steps 2 to 4 (R421). -/
def Blk.mergeBuild (b : Blk) (w : Work) (src k round : Nat) : Blk :=
  let x := w.gIndex
  let bad (b : Blk) (s : Nat) : Blk := b.endQuiet w s (some (b.mergeDetail w))
  b.follow w.id (b.mergePlan w src k round) bad fun b p =>
    let span := (listOffsets (b.recSize x) (up64 (16 * p.2.2.length)) p.2.2).2
    if 2 ^ b.get Reg.index_SHARD_LOG2 x < span then b.endQuiet w St.malformed (some 0)
    else
      b.follow w.id (w.wrote (b.mergeWrites w k p.2.2)) bad fun b _ =>
        b.follow w.id (b.mergeFold w k (w.toFold (b.get (inSlot Reg.index_VERSION_A src) x) p.2.1)) bad fun b r =>
          match r with
          | none => if w.quiet then (b.err Pg.vse 5).endWork w.id St.internal (some (p.2.2.foldl (fun n l => n + l.length) 0)) else b
          | some _ =>
            b.follow w.id (w.wrote [b.pendingWrite w k p.1]) bad fun b _ => b.mergeDone w (p.2.2.foldl (fun n l => n + l.length) 0)

/-- VSE_MERGE goes on; `snap`: whether it still waits (0), when its wait began, rounds of reading, src. A waiting merge reads the
entries again each POLL_NS (log entry 24). -/
def Blk.mergeStep (b : Blk) (w : Work) : Blk :=
  let x := w.gIndex
  let bad (b : Blk) (s : Nat) : Blk := b.endQuiet w s (some 0)
  match b.ownShard x, w.snap with
  | none, _ => bad b St.unmapped
  | some _, [] =>
    if b.get Reg.index_STATE x ≠ 1 then bad b St.unmapped
    else if b.get Reg.index_TENANT x ≠ w.tenant then bad b St.tenantBlocked
    else if b.mergeBad w then bad b St.malformed
    else
      b.follow w.id (w.rdVol 0 (b.get Reg.index_SEQ_VA x + 8)) bad fun b c =>
        if c < w.mergeSeq then bad b St.malformed
        else b.modWork w.id fun w => { w with snap := [0, b.el, 0, (b.mergeSrc w).getD 0], since := b.el }
  | some k, [0, t0, round, src] =>
    b.follow w.id ((b.mergeHead w k).andThen fun h => b.mergeTags w k h round) bad fun b tags =>
      if tags.all fun t => dfield t.2 0 63 0 == t.1 then b.modWork w.id fun w => { w with snap := [1, t0, round, src] }
      else if b.past w.since (ns (b.get Reg.SYNC_CFG_POLL_NS)) then b.modWork w.id fun w => { w with snap := [0, t0, round + 1, src], since := b.el }
      else b
  | some k, _ :: _ :: round :: src :: _ => b.mergeBuild w src k round
  | _, _ => bad b St.internal

/-- MERGE_WAIT_TIMEOUT (R421, 1). -/
def Blk.mergeTimeout (b : Blk) (q i : Nat) : Blk :=
  match b.eng.works.find? fun w => w.queue == q && w.index == i && w.opcode == Dop.vseMerge && w.phase == .running && w.snap.headD 1 == 0 with
  | none => b
  | some w => if b.past (nth 0 w.snap 1) (us (b.get Reg.VSE_CFG_COMMIT_WAIT_US)) then b.endWork w.id St.internal (some 0) else b

/-! ### VSE_CMD and slots (R402, R422) -/

def vseCmd : CmdReg := ⟨Reg.VSE_CMD_STATUS_DONE, Reg.VSE_CMD_STATUS_CODE, Pg.vse⟩

/-- A command finishes. -/
def Blk.vseFinish (b : Blk) (code : Nat) : Blk := b.cmdEndRej vseCmd 7 code

/-- `define` may not act on an entry (R402). -/
def Blk.indexBad (b : Blk) (x : Nat) : Bool :=
  let g (f : Fld) : Nat := b.get f x
  let sh := g Reg.index_SHARD_LOG2
  let sl := g Reg.index_SIDE_LOG2
  let span := 2 ^ sh
  let os := g Reg.index_ORIG_STRIDE_LOG2
  let own := g Reg.index_OWN_SHARD
  decide (5 < g Reg.index_MSEL) || decide (1 < g Reg.index_CENT_FORMAT) || decide (os < 8) || decide (13 < os) || g Reg.index_DIM == 0 ||
  decide (4096 < g Reg.index_DIM) || g Reg.index_DIM % b.subs x != 0 || g Reg.index_NSHARD == 0 || decide (64 < g Reg.index_NSHARD) ||
  decide (sh < 26) || decide (55 < sh) || decide (sl < 4) || decide (28 < sl) || g Reg.index_NLIST == 0 || decide (4194304 < g Reg.index_NLIST) ||
  (own != 0x7F && decide (g Reg.index_NSHARD ≤ own)) || decide (2 ^ 28 < g Reg.index_NSHARD * 2 ^ sl) || decide (span < g Reg.index_NLIST * 16) ||
  decide (span < 64 + 2 ^ sl * (64 + b.recSize x)) ||
  (g Reg.index_ORIG_VA != 0 && decide (2 ^ 56 < g Reg.index_ORIG_VA + 2 ^ (36 + os))) || g Reg.index_SIDE_VA % span != 0 ||
  g Reg.index_LIST_VA_A % span != 0 || g Reg.index_LIST_VA_B % span != 0 || g Reg.index_VERSION_VA == 0 || g Reg.index_VERSION_VA % 8 != 0 || g Reg.index_SEQ_VA == 0 ||
  g Reg.index_SEQ_VA % 64 != 0

/-- `define`. -/
def Blk.vseDefine (b : Blk) (x : Nat) : Blk :=
  b.cmd vseCmd (some 7) fun b =>
    if b.get Reg.index_STATE x ≠ 0 then b.vseFinish badState
    else if b.indexBad x then b.vseFinish badRange
    else ((b.puts x [(Reg.index_STATE, 1), (Reg.index_SSTATE_A, 1)]).notePassed vseVer x).vseFinish ok

/-- `undefine`: both slots are free with the entry (log entry 21). -/
def Blk.vseUndefine (b : Blk) (x : Nat) : Blk :=
  b.cmd vseCmd (some 7) fun b =>
    if b.get Reg.index_STATE x ≠ 1 then b.vseFinish badState
    else if b.pinCount 1 x 0 + b.pinCount 1 x 1 ≠ 0 then b.vseFinish busy
    else ((b.puts x [(Reg.index_STATE, 0), (Reg.index_SSTATE_A, 0), (Reg.index_SSTATE_B, 0)]).notePassed vseVer x).vseFinish ok

/-- VSE_SLOT_RETIRE: the slot is freed, and on an owning part upkeep moves START of its side list (R422). -/
def Blk.vseRetire (b : Blk) (x slot : Nat) : Blk :=
  if b.mayRetire vseVer x slot = false then b
  else
    let version := b.get (inSlot Reg.index_VERSION_A slot) x
    let b := b.retireSlot vseVer x slot
    match b.ownShard x with
    | none => b
    | some k =>
      let (t, b) := b.pick 0 b.servers
      (b.addWork { id := 0, kind := 3, tenant := b.get Reg.index_TENANT x, tile := t, thread := b.spareThread t, phase := .running, snap := [x, k, version] }).2

/-- Upkeep after a slot was freed: START moves to PENDING_START where PENDING_VERSION exceeds the freed version. -/
def Blk.upkeepStep (b : Blk) (w : Work) : Blk :=
  match w.snap with
  | x :: k :: version :: _ =>
    let va := b.sideBase x k
    let done (b : Blk) : Blk := if w.quiet then b.dropWork w.id else b
    b.follow w.id (w.took { op := lop 1 (va / 64) 2, opc := Opc.rdVol, va }) (fun b _ => done b) fun b h =>
      if dfield h 24 47 0 ≤ version then done b
      else
        let q : Ask := { op := lop 2 (va / 64) 1, opc := Opc.wrPartial, va := va + 8, arg := 22, data := atPlace (va + 8) (dfield h 16 63 0), bulk := true }
        b.follow w.id (w.wrote [q]) (fun b _ => done b) fun b _ => done b
  | _ => b.dropWork w.id

end Sys2Proof.Machine
end

