-- ==== Sys2Proof/Machine/Wst.lean ====
section
/-! DEFINITION. Weight streaming (ch. 14). -/
namespace Sys2Proof.Machine

/-! ### The descriptor (Table 14.1) -/

def Work.srcVa (w : Work) : Nat := w.f 16 55 0
def Work.deliver (w : Work) : Nat := w.f 24 52 0
def Work.wRows (w : Work) : Nat := w.f 32 63 40
def Work.wCols (w : Work) : Nat := w.f 32 39 20
def Work.wStride (w : Work) : Nat := w.f 32 19 0 * 64
def Work.srcFmt (w : Work) : Nat := w.f 40 63 60
def Work.outFmt (w : Work) : Nat := w.f 40 59 56
def Work.split (w : Work) : Nat := w.f 40 55 54
def Work.splitN (w : Work) : Nat := w.f 40 53 47
def Work.splitIdx (w : Work) : Nat := w.f 40 46 41
def Work.experts (w : Work) : Nat := w.f 40 40 32
def Work.expert0 (w : Work) : Nat := w.f 40 31 24
def Work.group (w : Work) : Nat := w.f 40 23 12
def Work.window (w : Work) : Nat := w.f 40 11 8
def Work.rate (w : Work) : Nat := w.f 48 63 32
def Work.chunk0 (w : Work) : Nat := w.f 48 31 0

/-- Delivered rows of an expert and their first; delivered columns of a row and their first (Table 14.2). -/
def Work.dRows (w : Work) : Nat := if w.split = 1 then w.wRows / w.splitN else w.wRows
def Work.row0 (w : Work) : Nat := if w.split = 1 then w.splitIdx * w.dRows else 0
def Work.dCols (w : Work) : Nat := if w.split = 2 then w.wCols / w.splitN else w.wCols
def Work.col0 (w : Work) : Nat := if w.split = 2 then w.splitIdx * w.dCols else 0

/-- Bytes of a delivered element, of the stream, and its chunks (R431). -/
def Work.outBytes (w : Work) : Nat := elemBits w.outFmt / 8
def Work.streamBytes (w : Work) : Nat := w.experts * w.dRows * w.dCols * w.outBytes
def Work.chunkCount (w : Work) : Nat := (w.streamBytes + 2 ^ 20 - 1) / 2 ^ 20
/-- Bytes of chunk k. -/
def Work.chunkBytes (w : Work) (k : Nat) : Nat := Nat.min (2 ^ 20) (w.streamBytes - k * 2 ^ 20)

/-- The descriptor breaks Table 14.1, R427 or R428, 1. -/
def streamBad (w : Work) : Bool :=
  let d := w.desc
  vaBad d 16 64 || dfield d 24 63 53 != 0 || w.deliver % 2 ^ 20 != 0 || w.wRows == 0 || w.wCols % 32 != 0 || w.wCols == 0 ||
  w.wStride == 0 || decide (4 < w.srcFmt && !isMx w.srcFmt) || decide (4 < w.outFmt) || w.split == 3 || w.splitN == 0 || decide (64 < w.splitN) ||
  decide (w.splitN ≤ w.splitIdx) || w.experts == 0 || decide (256 < w.experts) || w.window == 0 || decide (8 < w.window) ||
  dfield d 40 7 0 != 0 || dfield d 56 63 0 != 0 || decide (w.wStride < segBytes w.srcFmt w.wCols) || (w.split == 0 && w.splitN != 1) ||
  (w.split == 1 && w.wRows % w.splitN != 0) || (w.split == 2 && w.wCols % (32 * w.splitN) != 0) || decide (256 < w.expert0 + w.experts) ||
  decide (w.chunkCount ≤ w.chunk0)

/-- The diagnostic of a stream that ended before its first chunk started (R443). -/
def Work.noChunk (w : Work) : Nat := w.chunk0 <<< 32 + 0x7F

/-- The source span (R428, 3): its first byte and its length. -/
def Work.srcSpan (w : Work) : Nat × Nat := (w.srcVa + w.expert0 * w.wRows * w.wStride, w.experts * w.wRows * w.wStride)

/-- The first page of the source span that fails R38, or lies on another part. -/
def Blk.spanFault (b : Blk) (w : Work) : Option (Nat × Nat × Nat) :=
  let (va, n) := w.srcSpan
  (List.range ((va % 2 ^ 26 + n + 2 ^ 26 - 1) / 2 ^ 26)).findSome? fun i =>
    let p := va / 2 ^ 26 * 2 ^ 26 + i * 2 ^ 26
    match b.translate w.tenant p rdRight with
    | .fail s c => some (s, p, c + 1)
    | .addr a => if a / 2 ^ 47 = b.node then none else some (St.unmapped, p, 0)

/-! ### Members (R434) -/

/-- The node of member i of a group. -/
def Blk.memberNode (b : Blk) (g i : Nat) : Nat := b.get { Reg.members_NODE0 with bit := 64 + 16 * i } g

/-- The group may be streamed to from here (R428, 2). -/
def Blk.groupOk (b : Blk) (g : Nat) : Bool :=
  b.flag Reg.mcast_V g && b.get Reg.mcast_ORIGIN g == b.node && b.flag Reg.members_V g

/-- The members of a group, by index. -/
def Blk.members (b : Blk) (g : Nat) : List Nat := List.range (Nat.min 64 (b.get Reg.members_COUNT g))

/-! ### Delivered bytes (R430, R431) -/

/-- The delivered elements [lo, hi) as runs within delivered rows: (row number, first column, columns). -/
def rowRuns (cols lo hi : Nat) : List (Nat × Nat × Nat) :=
  (List.range ((hi - 1) / cols + 1 - lo / cols)).map fun i =>
    let j := lo / cols + i
    let c0 := Nat.max lo (j * cols) - j * cols
    (j, c0, Nat.min hi ((j + 1) * cols) - j * cols - c0)

/-- Where the elements of a run of a source row lie, and its scales, each with its length in bytes (none but for MX). -/
def Work.runPlaces (w : Work) (j c0 n : Nat) : (Nat × Nat) × (Nat × Nat) :=
  let e := w.expert0 + j / w.dRows
  let r := w.row0 + j % w.dRows
  let va := w.srcVa + (e * w.wRows + r) * w.wStride
  let c := w.col0 + c0
  let bits := elemBits w.srcFmt
  ((va + c * bits / 8, n * bits / 8), (va + w.wCols * bits / 8 + c / 32, if isMx w.srcFmt then n / 32 else 0))

/-- The values of a run of a source row. -/
def Work.runValues (w : Work) (gen j c0 n : Nat) : Plan (List Num) :=
  let (body, scales) := w.runPlaces j c0 n
  ((w.rd gen body.1 body.2).both (w.rd gen scales.1 scales.2)).map fun p => decodeSeg w.srcFmt n (p.1 + p.2 <<< (8 * body.2))

/-- The runs of chunk k. -/
def Work.chunkRuns (w : Work) (k : Nat) : List (Nat × Nat × Nat) :=
  let lo := k * 2 ^ 20 / w.outBytes
  rowRuns w.dCols lo (lo + w.chunkBytes k / w.outBytes)

/-- The source lines of chunk k, in the order of its runs, as they were read. -/
def Work.sourceLines (w : Work) (gen k : Nat) : List Line :=
  ((w.chunkRuns k).flatMap fun r =>
    let (body, scales) := w.runPlaces r.1 r.2.1 r.2.2
    (w.rdAsks gen body.1 body.2 ++ w.rdAsks gen scales.1 scales.2).map Ask.op).eraseDups.map w.lineOf

/-- The lines of chunk k. -/
def Work.chunkLines (w : Work) (gen k : Nat) : Plan (List Line) :=
  (Plan.all ((w.chunkRuns k).map fun r => w.runValues gen r.1 r.2.1 r.2.2)).map fun v =>
    toLines ((w.chunkBytes k + 63) / 64) (pack (elemBits w.outFmt) (v.flatten.map (convertElem w.outFmt)))

/-! ### Streams and slots (R441) -/

/-- The stream of a work. -/
def Blk.streamOf (b : Blk) (id : Nat) : Option WStream := b.eng.streams.find? fun s => s.work == id

/-- Change the stream of a work. -/
def Blk.modStream (b : Blk) (id : Nat) (f : WStream → WStream) : Blk :=
  { b with eng := { b.eng with streams := b.eng.streams.map fun (s : WStream) => if s.work = id then f s else s } }

/-- Change a chunk of a stream. -/
def Blk.modSChunk (b : Blk) (id k : Nat) (f : SChunk → SChunk) : Blk :=
  b.modStream id fun s => { s with open_ := s.open_.map fun (c : SChunk) => if c.k = k then f c else c }

/-- The lowest chunk that is not complete. -/
def WStream.low (s : WStream) : Nat := s.open_.foldl (fun n c => Nat.min n c.k) s.next

/-- A chunk is complete. -/
def WStream.complete (s : WStream) (k : Nat) : Bool := decide (k < s.next) && !s.open_.any fun c => c.k == k

/-- The lowest free slot. -/
def Blk.freeStream (b : Blk) : Option Nat := (List.range 1024).find? fun i => !b.eng.streams.any fun s => s.slot == i

/-- Streams whose work no longer runs give up their slots. -/
def Blk.settleStreams (b : Blk) : Blk :=
  let runs_ (s : WStream) : Bool := match b.work? s.work with
    | some w => w.phase == Phase.running
    | none => false
  { b with eng := { b.eng with streams := b.eng.streams.filter runs_ } }

/-- A stream ends (R439, R443); `member`: the one that ended it. Its lines not yet sent are not sent any more. -/
def Blk.streamEnd (b : Blk) (w : Work) (status next member : Nat) : Blk :=
  let unsent (o : Out) : Bool := o.sent == 0 && match o.agent with
    | .work x _ => x == w.id
    | _ => false
  let b := { b with orig := { b.orig with waiting := b.orig.waiting.filter fun o => !unsent o } }
  let b := if status = St.ok then b else (b.count Reg.WST_FAIL_CNT).err Pg.wst 1
  let b := b.endWork w.id status (some (next <<< 32 + member))
  { b with eng := { b.eng with streams := b.eng.streams.filter fun s => s.work != w.id } }

/-! ### Starting chunks (R440) -/

/-- The time 2^20 bytes take at a rate, rounded up: bytes per nanosecond = num / den. -/
def pace (num den : Nat) : Nat := (2 ^ 20 * den * 2 ^ 32 + num - 1) / num

/-- Time has passed since a start. -/
def Blk.paced (b : Blk) (since : Option Nat) (num den : Nat) : Bool :=
  match since with
  | none => true
  | some t => num == 0 || b.past t (pace num den)

/-- Chunks unacknowledged toward a group, over all streams (R433). -/
def Blk.groupOpen (b : Blk) (g : Nat) : Nat :=
  b.eng.streams.foldl (fun n s => match b.work? s.work with
    | some w => if w.group = g then n + s.open_.length else n
    | none => n) 0

/-- A stream may start its next chunk. -/
def Blk.streamReady (b : Blk) (s : WStream) : Bool :=
  match b.work? s.work with
  | none => false
  | some w =>
    decide (s.next < w.chunkCount) && (decide (s.next < w.chunk0 + w.window) || s.complete (s.next - w.window)) &&
    b.paced s.last w.rate 1000 && b.paced b.eng.wstLast (b.get Reg.WST_CFG_TOTAL_GBPS) 1 && decide (b.groupOpen w.group < 4096)

/-- WST_CHUNK_START: the next chunk of the stream in a slot starts, when it is ready and it is its turn (R441); the window its tile reads it
into is set up first where firmware sets one up for it (R315, R442). -/
def Blk.chunkStart (b : Blk) (slot : Nat) (win : Option CbwSetup) : Blk :=
  let ready := b.eng.streams.filter b.streamReady
  let dist (s : WStream) : Nat := (s.slot + 1023 - b.eng.wstTurn) % 1024
  match ready.find? fun s => s.slot == slot with
  | none => b
  | some s =>
    if ready.any fun r => decide (dist r < dist s) then b
    else
      let tile := ((b.work? s.work).map Work.tile).getD 0
      let b := match win with
        | some x => b.cbwEnable tile x
        | none => b
      let into := (win.map fun x => x.w.val).filter (b.rowWindow tile)
      let b := b.modStream s.work fun s => { s with next := s.next + 1, last := some b.el, open_ := s.open_ ++ [{ k := s.next, win := into }] }
      { b with eng := { b.eng with wstLast := some b.el, wstTurn := slot } }

/-! ### Sending (R432, R433) -/

/-- What sets apart the reads of a chunk for a try: 0 the multicast, then one for each resend. -/
def chunkGen (k : Nat) (try_ : Nat × Nat) : Nat := k * 4096 + try_.1 * 16 + try_.2
/-- The operation of the FINAL line toward a member, and of a line of a resend. -/
def finalOp (k m : Nat) : Nat := lop k m 6
def resendOp (k : Nat) (try_ : Nat × Nat) (line : Nat) : Nat := lop (chunkGen k try_) line 7

/-- The frame of line j of chunk k toward a node or group. -/
def Blk.wstFrame (b : Blk) (w : Work) (dst k j : Nat) (data : Line) (mc final : Bool) : Frame :=
  { b.reqFrame (if final then Opc.wrLineFinal else Opc.wrLine) (w.deliver + k * 2 ^ 20 + j * 64) w.tenant true 0 data final with
    dst := .ofNat 16 dst, mc }

/-- A TAG allowed toward every member (R87). -/
def Blk.groupTag (b : Blk) (nodes : List Nat) : Option Nat × Blk :=
  if nodes.any fun n => decide (4096 ≤ (b.orig.out.filter fun o => o.fr.dst.toNat == n).length) then (none, b)
  else
    let (d, b) := b.draw (2 ^ 16)
    let n := b.orig.out.length + b.orig.quar.length + 1
    (((List.range n).map fun i => (d + i) % 2 ^ 16).find? fun t => nodes.all fun x => !b.tagBarred x t, b)

/-- One multicast line: the next SEQ of the stream (this part, group, bulk), which is not a stream toward a node of the same
number. -/
def Blk.mcLine (b : Blk) (w : Work) (tag : Nat) (fr : Frame) : Blk :=
  let (n, b) := b.nextSeq (fr.src.toNat + 2 ^ 16) fr.dst.toNat fr.tc.toNat
  ((b.count Reg.WST_LINE_CNT).inject { fr with tag := .ofNat 16 tag, seq := .ofNat 24 n }.sealed (24 + w.tile % 8) (w.tile / 8))

/-- The source lines of a chunk pass through the window it is read into (R442); `try_` as for `chunkGen`. -/
def Blk.intoWindow (b : Blk) (w : Work) (k : Nat) (win : Option Nat) (try_ : Nat × Nat) : Blk :=
  match win with
  | some x => b.throughWindow w.tile x (w.sourceLines (chunkGen k try_) k)
  | none => b

/-- A chunk goes out through a Mule: all its lines, the last outstanding toward each member. -/
def Blk.mcChunk (b : Blk) (w : Work) (k : Nat) (win : Option Nat) (lines : List Line) : Blk :=
  let g := w.group
  let ms := b.members g
  let mule := b.freeMule w.tile true
  match if mule.isNone then (none, b) else b.groupTag (ms.map (b.memberNode g)) with
  | (none, b) => b
  | (some tag, b) =>
    let b := b.intoWindow w k win (0, 0)
    let last := lines.length - 1
    let b := b.each lines.zipIdx fun b l => b.mcLine w tag (b.wstFrame w g k l.2 l.1 true (l.2 == last))
    let out (m : Nat) : Out :=
      { fr := { b.wstFrame w (b.memberNode g m) k last (lines.getLast?.getD 0) false true with tag := .ofNat 16 tag },
        agent := .work w.id (finalOp k m), sent := b.el, src := 24 + w.tile % 8, tile := w.tile, mule, mc := true }
    let b := { b with orig := { b.orig with out := b.orig.out ++ ms.map out } }
    let b := b.modWork w.id fun w => { w with out := w.out ++ ms.map (finalOp k) }
    b.modSChunk w.id k fun c => { c with sent := true }

/-- The lines of a resend go to one member, as ordinary writes of the tile's Mules (R438, R442). -/
def Blk.resendLines (b : Blk) (w : Work) (k : Nat) (try_ : Nat × Nat) (lines : List Line) : Blk :=
  let node := b.memberNode w.group (try_.1 - 1)
  b.each lines.zipIdx fun b l =>
    let fr := b.wstFrame w node k l.2 l.1 false (decide (l.2 + 1 = lines.length))
    b.ask w.id { op := resendOp k try_ l.2, opc := fr.opc.toNat, va := 0, bulk := true } (some fr)

/-! ### Members' answers (R437 to R439) -/

/-- A member lacks the chunk after resend n: the next resend, or the stream's end with the last status. -/
def Blk.nextResend (b : Blk) (w : Work) (s : WStream) (k m n status : Nat) : Blk :=
  if n < b.get Reg.WST_CFG_RESEND_MAX then
    let b := (b.count Reg.WST_RESEND_CNT).err Pg.wst 0
    b.modSChunk w.id k fun c => { c with resends := (c.resends.filter fun r => r.1 != m) ++ [(m, n + 1)] }
  else b.streamEnd w status s.low m

/-- A member has a chunk. -/
def Blk.acked (b : Blk) (w : Work) (k m : Nat) : Blk :=
  b.modSChunk w.id k fun c => { c with acked := c.acked ++ [m] }

/-- A member's resend goes on. -/
def Blk.resendStep (b : Blk) (w : Work) (s : WStream) (k m n : Nat) (win : Option Nat) : Blk :=
  let try_ := (m + 1, n)
  let lines := (w.chunkBytes k + 63) / 64
  if w.asked (resendOp k try_ 0) then
    let rs := (List.range lines).map fun j => w.res? (resendOp k try_ j)
    if rs.any Option.isNone then b
    else
      match rs.findSome? fun r => match r with
        | some x => if x.status = St.ok then none else some x.status
        | none => none with
      | some st => b.nextResend w s k m n st
      | none => b.acked w k m
  else
    b.follow w.id (w.chunkLines (chunkGen k try_) k) (fun b st => b.streamEnd w st s.low 0x7F) fun b ls => (b.intoWindow w k win try_).resendLines w k try_ ls

/-- One member of a chunk that was sent. -/
def Blk.memberStep (b : Blk) (w : Work) (s : WStream) (c : SChunk) (m : Nat) : Blk :=
  if c.acked.contains m then b
  else
    match c.resends.find? fun r => r.1 == m with
    | some (_, n) => b.resendStep w s c.k m n c.win
    | none =>
      match w.res? (finalOp c.k m) with
      | none => b
      | some r =>
        if r.status = St.ok then b.acked w c.k m
        else if r.status = unanswered then
          let node := b.memberNode w.group m
          b.nextResend w s c.k m 0 (if node < 64 ∧ bitAt (b.get Reg.WIN_PEER_DEAD_DEAD) node = true then St.peerDead else St.internal)
        else ((b.count Reg.WST_MEMBER_ERR_CNT).err Pg.wst 2).streamEnd w r.status s.low m

/-- A chunk of a stream goes on: it is read, converted and sent; its members answer; it is complete. -/
def Blk.schunkStep (b : Blk) (w : Work) (s : WStream) (c : SChunk) : Blk :=
  if c.sent = false then
    if b.restart = 0 then b
    else b.follow w.id (w.chunkLines (chunkGen c.k (0, 0)) c.k) (fun b st => b.streamEnd w st s.low 0x7F) fun b ls => b.mcChunk w c.k c.win ls
  else if (b.members w.group).all fun m => c.acked.contains m then
    let b := (b.count Reg.WST_CHUNK_CNT).countN Reg.WST_DELIVERED_CNT (w.chunkBytes c.k)
    b.modStream w.id fun s => { s with open_ := s.open_.filter fun x => x.k != c.k }
  else
    b.each (b.members w.group) fun b m =>
      match b.work? w.id, b.streamOf w.id with
      | some w, some s => match s.open_.find? fun x => x.k == c.k with
        | some c => b.memberStep w s c m
        | none => b
      | _, _ => b

/-- The first source line of a stream that failed. -/
def Work.badSource (w : Work) : Option Res := w.hist.find? fun r => r.status != St.ok && decide (Op.first ≤ r.op ∧ (r.op - Op.first) % 8 = 0)

/-- WST_STREAM goes on; it ends at the first source line that fails, whatever else of the chunk is out (R439). -/
def Blk.streamStep (b : Blk) (w : Work) : Blk :=
  match b.streamOf w.id with
  | some s =>
    if b.fenced then b.streamEnd w St.fenced s.low 0x7F
    else if let some r := w.badSource then b.streamEnd w r.status s.low 0x7F
    else if s.open_ = [] ∧ w.chunkCount ≤ s.next then b.streamEnd w St.ok w.chunkCount 0x7F
    else
      b.each s.open_ fun b c =>
        match b.work? w.id, b.streamOf w.id with
        | some w, some s => b.schunkStep w s c
        | _, _ => b
  | none =>
    if streamBad w then b.endWork w.id St.malformed (some w.noChunk)
    else if b.groupOk w.group = false then b.endWork w.id St.unmapped (some w.noChunk)
    else
      match if w.snap = [] then b.spanFault w else none with
      | some (s, va, c) => (if c = 0 then b else b.xltFault w.tenant va (c - 1)).endWork w.id s (some w.noChunk)
      | none =>
        match b.freeStream with
        | some i =>
          let s : WStream := { slot := i, work := w.id, next := w.chunk0 }
          ({ b with eng := { b.eng with streams := b.eng.streams ++ [s] } }).modWork w.id fun w => { w with snap := [1] }
        | none =>
          if w.snap = [] then (b.count Reg.WST_SLOT_WAIT_CNT).modWork w.id fun w => { w with snap := [1] } else b

/-- WST_ACK_TIMEOUT: no answer came from a member for the FINAL line of a chunk (R438). -/
def Blk.ackTimeout (b : Blk) (slot k m : Nat) : Blk :=
  match b.eng.streams.find? fun s => s.slot == slot with
  | none => b
  | some s =>
    match b.orig.out.find? fun o => o.mc && o.agent == .work s.work (finalOp k m) with
    | none => b
    | some o => b.requestTimeout o.fr.dst.toNat o.fr.tag.toNat

/-! ### The stream table as it reads (Table 14.6) -/

/-- The fields of a stream entry. -/
def Blk.streamEntry (b : Blk) (slot : Nat) : List (Fld × Nat) :=
  match b.eng.streams.find? fun s => s.slot == slot with
  | none => []
  | some s =>
    match b.work? s.work with
    | none => []
    | some w =>
      let low := s.open_.find? fun c => c.k == s.low
      let resends := match low with
        | some c => Nat.min 255 (c.resends.foldl (fun n r => n + r.2) 0)
        | none => 0
      let missing := match low with
        | some c => (b.members w.group).foldl (fun n m => if c.acked.contains m then n else n + 2 ^ m) 0
        | none => 0
      [(Reg.stream_STATE, if s.open_.any (fun c => c.resends.any fun r => !c.acked.contains (r.1)) = true then 2 else 1), (Reg.stream_QUEUE, w.queue), (Reg.stream_GROUP, w.group),
       (Reg.stream_TENANT, w.tenant), (Reg.stream_NEXT_START, s.next), (Reg.stream_LOW_OPEN, s.low), (Reg.stream_CHUNKS, w.chunkCount),
       (Reg.stream_RESENDS, resends), (Reg.stream_MISSING, missing)]

end Sys2Proof.Machine
end

