-- ==== Sys2Proof/Machine/Driver.lean ====
section
/-! DEFINITION. When a descriptor may start (R190 to R192, R199, R329) and what every work does next. -/
namespace Sys2Proof.Machine

/-! ### Declared ranges -/

/-- The ranges of n spans of an index or table, one for each staged slot. -/
def Blk.slotSpans (b : Blk) (v : Ver) (wr : Bool) (entry : Nat) (base : Fld) (n : Nat) : List Rng :=
  ([0, 1].filter (b.staged v entry)).map fun s => Rng.of wr (b.get (inSlot base s) entry) n

/-- Ranges of the embedding operations (R396); an array the descriptor or the table has not declares none. -/
def Blk.embRanges (b : Blk) (w : Work) : List Rng :=
  let t := w.tabId
  let span := b.get Reg.table_NOWN t * 2 ^ b.get Reg.table_SHARD_LOG2 t
  let dim := b.get Reg.table_DIM t
  let when (p : Bool) (r : Rng) : List Rng := if p then [r] else []
  let version := b.get Reg.table_VERSION_VA t
  let ins := [Rng.of false (w.f 16 55 0) (8 * w.nIdx)] ++ when w.bagged (Rng.of false (w.f 24 55 0) (4 * (w.nBags + 1))) ++
    when (w.pool == 3) (Rng.of false (w.f 32 55 0) (4 * w.nIdx)) ++ when (version != 0) (Rng.of false version 8)
  if w.isUpd then
    ins ++ [Rng.of false (w.f 40 55 0) ((if w.bagged then w.nBags else w.nIdx) * up64 (segBytes (w.f 56 45 42) dim)), Rng.of false (w.f 48 55 0) 16] ++
    b.slotSpans embVer true t Reg.table_VA_BASE_A span ++ (b.slotSpans embVer true t Reg.table_OPT_VA_A span).filter (·.lo != 0)
  else
    let rows := if w.bagged then w.nBags else w.nIdx
    ins ++ b.slotSpans embVer false t Reg.table_VA_BASE_A span ++
    [Rng.of true (w.f 40 55 0) (rows * up64 (rowBytes (w.f 56 46 43) dim))] ++
    (if w.f 56 47 47 = 1 then [Rng.of true (w.f 48 55 0) (4 * dim * rows)] else [])

/-- The sequence line, and the span of the side lists. -/
def Blk.seqRange (b : Blk) (wr : Bool) (x : Nat) : Rng := Rng.of wr (b.get Reg.index_SEQ_VA x) 64
def Blk.shardSpan (b : Blk) (x : Nat) : Nat := b.get Reg.index_NSHARD x * 2 ^ b.get Reg.index_SHARD_LOG2 x
def Blk.sideRange (b : Blk) (wr : Bool) (x : Nat) : Rng := Rng.of wr (b.get Reg.index_SIDE_VA x) (b.shardSpan x)

/-- Ranges of the search operations (R424). -/
def Blk.vseRanges (b : Blk) (w : Work) : List Rng :=
  if w.opcode = Dop.vseSearch then
    let x := w.sIndex
    let n := w.sN
    [Rng.of false (w.f 16 55 0) (n * up64 (segBytes w.sFmt (b.dim x)))] ++
    (if w.f 24 55 0 = 0 then [] else [Rng.of false (w.f 24 55 0) (if w.f 40 28 28 = 1 then 256 * (n - 1) + 192 else 192)]) ++
    [Rng.of false (b.get Reg.index_VERSION_VA x) 8, b.seqRange false x,
     Rng.of false (b.get Reg.index_CENT_VA x) (b.get Reg.index_NLIST x * up64 (segBytes (b.get Reg.index_CENT_FORMAT x) (b.dim x))),
     Rng.of false (b.get Reg.index_CB_VA x) (b.cents x * b.dim x * 4), b.sideRange false x, Rng.of true (w.f 32 55 0) (n * rstride w.sK)] ++
    b.slotSpans vseVer false x Reg.index_LIST_VA_A (b.shardSpan x)
  else if w.opcode = Dop.vseRerank then
    let x := w.rIndex
    [Rng.of false (w.f 16 55 0) (w.rN * up64 (segBytes w.rFmt (b.dim x))), Rng.of false (w.f 24 55 0) (w.rN * rstride w.kIn),
     Rng.of true (w.f 32 55 0) (w.rN * rstride w.kOut)] ++
    (if b.get Reg.index_ORIG_VA x = 0 then []
     else [Rng.of false (b.get Reg.index_ORIG_VA x) (2 ^ (36 + b.get Reg.index_ORIG_STRIDE_LOG2 x))])
  else if w.opcode = Dop.vseMutate then
    let x := w.mIndex
    [Rng.of false (w.f 16 55 0) (w.nOps * (64 + b.recSize x)), b.seqRange true x, b.sideRange true x]
  else
    let x := w.gIndex
    [b.seqRange false x, b.sideRange true x, Rng.of true (b.get (inSlot Reg.index_LIST_VA_A w.gSlot) x) (b.shardSpan x)] ++
    b.slotSpans vseVer false x Reg.index_LIST_VA_A (b.shardSpan x)

/-- Ranges of a work that is no graph. -/
def Blk.plainRanges (b : Blk) (w : Work) : List Rng :=
  let op := w.opcode
  if op = Dop.move then [Rng.of false (w.f 16 55 0) (w.f 32 35 0), Rng.of true (w.f 24 55 0) (w.f 32 35 0)]
  else if op = Dop.embLookup ∨ op = Dop.embUpdate then b.embRanges w
  else if 0x30 ≤ op ∧ op ≤ 0x33 then b.vseRanges w
  else if op = Dop.wstStream then [Rng.of false w.srcSpan.1 w.srcSpan.2]
  else []

/-- The ranges a descriptor declares; none while they are not known: it has not been read, or its template has not (R340). -/
def Blk.rangesOf (b : Blk) (w : Work) : Option (List Rng) :=
  if w.phase = Phase.fetching then none
  else if w.opcode = Dop.graphRun then
    if w.templateRead then
      some (Rng.both w.argBase w.argLen ++ (List.range w.stages).flatMap fun i => b.plainRanges { w with desc := w.stageDesc i })
    else none
  else some (b.plainRanges w)

/-- The tracking entries a descriptor that has not completed holds (R192): its ranges, while it is open; what it started with, from then on to
its completion. -/
def Blk.entriesOf (b : Blk) (w : Work) : Nat :=
  if w.open_ then (match b.rangesOf w with
    | some l => (tracked l).length
    | none => 0)
  else w.entries

/-- No earlier descriptor in progress conflicts with a descriptor's ranges, and they fit in the tracking entries (R190, R192). -/
def Blk.rangesClear (b : Blk) (w : Work) : Bool :=
  match b.rangesOf w with
  | none => false
  | some mine =>
    let held := (b.incomplete w).foldl (fun n x => n + b.entriesOf x) 0
    ((b.earlierOpen w).map b.rangesOf).all (fun o => match o with
      | none => false
      | some l => !(tracked l).any fun r => (tracked mine).any r.conflicts) &&
    ((b.incomplete w).isEmpty || decide (held + (tracked mine).length ≤ 16))

/-- Every earlier descriptor of the queue has completed. -/
def Blk.earlierDone (b : Blk) (w : Work) : Bool := (b.incomplete w).isEmpty

/-- The operation is a release, made before it acts (R213, R220, R275). -/
def Work.releaseFirst (w : Work) : Bool :=
  w.releases && (w.opcode == Dop.syncSignal || w.opcode == Dop.syncPublish || (w.opcode == Dop.handoff && w.f 27 1 0 == 0))

/-- The descriptor a work is ordered as: a stage counts as its graph (R340). -/
def Blk.orderedAs (b : Blk) (w : Work) : Work := if w.kind = 1 then (b.work? w.parent).getD w else w

/-- An earlier SYNC_WAIT of the queue has not completed, or an earlier descriptor is not yet read: the queue continues behind a wait once
it has completed (R206; log entry 47). -/
def Blk.behindWait (b : Blk) (w : Work) : Bool :=
  (b.earlierOpen w).any fun x => x.opcode == Dop.syncWait || x.phase == Phase.fetching

/-- A fetched descriptor or stage may start. -/
def Blk.canStart (b : Blk) (w : Work) : Bool :=
  let o := b.orderedAs w
  (!(w.barrier || w.marker) || b.earlierDone o) && (!w.releaseFirst || (b.earlierOpen o).isEmpty) &&
  (w.kind == 1 || (!b.behindWait w && (w.opcode == Dop.graphRun || b.rangesClear w)))

/-! ### What a work does next -/

/-- The diagnostic a descriptor that fails for a fault of its own thread, or because the part is FENCED, still carries where its chapter defines
one (R12): a MOVE's prefix (R335), the word a publish last read (R221), the lowest query without a result (R412), a mutation's
ticket (R417), the main records a merge has written (R421), a stream's first chunk (R443). -/
def Blk.failDetail (b : Blk) (w : Work) : Option Nat :=
  let op := w.opcode
  if op = Dop.nop then some 0
  else if op = Dop.move then (if moveBad w.desc then none else some (64 * w.landed (w.f 32 35 0 / 64)))
  else if op = Dop.graphRun then some 0
  else if op = Dop.syncPublish then w.lastRead
  else if op = Dop.vseSearch then some (((w.queries.find? fun q => q.status.isNone || q.failed).map Query.q).getD 0)
  else if op = Dop.vseRerank then some 0
  else if op = Dop.vseMutate then w.snap.head?
  else if op = Dop.vseMerge then some (b.mergeDetail w)
  else if op = Dop.wstStream then some w.noChunk
  else none

/-- A work ends for a fault or because the part is FENCED, once nothing of it is out. -/
def Blk.stopWork (b : Blk) (w : Work) (status : Nat) : Blk :=
  if w.quiet = false then b
  else if w.opcode = Dop.graphRun then b.graphStop w status
  else
    match b.streamOf w.id with
    | some s => b.streamEnd w status s.low 0x7F
    | none => (b.dropMonitors w.id).endWork w.id status (b.failDetail w)

/-- A running work goes on. -/
def Blk.opStep (b : Blk) (w : Work) : Blk :=
  let op := w.opcode
  if w.kind = 2 then (if w.snap.headD 0 = 0 then b.embOwner w else b.vseOwner w)
  else if w.kind = 3 then b.upkeepStep w
  else if w.kind = 4 then b.fwStep w
  else if w.fault then b.stopWork w St.internal
  else if b.fenced && w.quiet && op != Dop.wstStream then b.stopWork w St.fenced
  else if op = Dop.nop then b.endWork w.id St.ok (some 0)
  else if op = Dop.move then b.moveStep w
  else if op = Dop.graphRun then (b.modWork w.id fun x => { x with entries := b.entriesOf w }).graphStep w (b.rangesClear w)
  else if op = Dop.syncWait then b.waitStep w
  else if op = Dop.syncSignal then b.signalStep w
  else if op = Dop.syncPublish then b.publishStep w
  else if op = Dop.handoff then b.handoffStep w
  else if op = Dop.embLookup then b.lookupStep w
  else if op = Dop.embUpdate then b.updateStep w
  else if op = Dop.vseSearch then b.searchStep w
  else if op = Dop.vseRerank then b.rerankStep w
  else if op = Dop.vseMutate then b.mutateStep w
  else if op = Dop.vseMerge then b.mergeStep w
  else b.streamStep w

/-- Start a fetched work. -/
def Blk.startWork (b : Blk) (w : Work) : Blk :=
  let n := b.entriesOf w
  b.modWork w.id fun w => { w with phase := Phase.running, since := b.el, entries := n }

/-- One step of a work; the threads of a halted tile take none (R517). -/
def Blk.workStep (b : Blk) (id : Nat) : Blk :=
  match b.work? id with
  | none => b
  | some w =>
    if b.eng.halted.contains w.tile then b
    else
    match w.phase with
    | .fetching => if w.kind = 0 then b.fetchStep w else b
    | .fetched =>
      if b.fenced || w.fault then b.endWork w.id (if w.fault then St.internal else St.fenced) (b.failDetail w)
      else if w.kind = 1 && b.canStart w then b.startWork w
      else b
    | .running => b.opStep w
    | .recording => if w.kind = 1 then b.stageStep w else b.recordStep w
    | .signalling => if w.kind = 1 then b.stageStep w else b.recordStep w
    | _ => b

/-- One step of every work, then the accesses they have reached, thread by thread in turn. -/
def Blk.worksStep (b : Blk) : Blk := (b.each (b.eng.works.map Work.id) Blk.workStep).issueReached

/-- The row of an operation: the descriptor `i` of queue `q` starts, when it is of that operation and may. -/
def Blk.startOp (b : Blk) (op q i : Nat) : Blk :=
  match b.eng.works.find? fun w => w.kind == 0 && w.queue == q && w.index == i && w.phase == Phase.fetched && w.opcode == op with
  | none => b
  | some w => if b.canStart w then b.startWork w else b

end Sys2Proof.Machine
end

