-- ==== Sys2Proof/Machine/Pcie.lean ====
section
/-! DEFINITION. The host's side: BAR4 loads and stores (R452 to R457), doorbells (R450), MSI-X (R451), function-level reset and loss
of the link (R459, R460). -/
namespace Sys2Proof.Machine

/-! ### TLPs and their frames (Table 15.3) -/

/-! The status of a completion. -/
namespace Cpl
def good : Nat := 0
def ur : Nat := 1
def ca : Nat := 4
end Cpl

/-- The management cores run and BAR0 answers (R466, R486, R572): after step 5 of a boot as well (Table 16.9). -/
def Blk.alive (b : Blk) : Bool :=
  match b.aon.mode with
  | .run => true
  | .l2 => true
  | .boot k => decide (6 ≤ k)
  | _ => false

/-! Identity and BAR sizes of the functions (R449, Table 15.2), and what SR-IOV's capability gives (Table 15.1). -/
def totalVfs : Nat := 64
def firstVf : Nat := 1
def vfStride : Nat := 1
def deviceId (func : Nat) : Nat := if func = 0 then 0x1152 else 0x1153
def classCode : Nat := 0x058000
def bar0Size : Nat := 2 ^ 26
def bar2Size : Nat := 2 ^ 24
def bar4Size : Nat := 2 ^ 36

/-- The link is up. -/
def Blk.linkUp (b : Blk) : Bool := b.get Reg.PCIE_LINK_SPEED != 0

/-- What a function's configuration space shows of R448 and R449. -/
structure CfgSpace where
  vendor : BitVec 16
  device : Nat
  classCode : Nat
  bars : List Nat
  vectors : Nat
  bme : Bool
  aspm : Bool
  aer : Nat
  mps : Nat
  mrrs : Nat
  tag10 : Bool
  ari : Bool
  vfs : Nat
  deriving DecidableEq, Repr

/-- A function's configuration space. -/
def Blk.cfgSpace (b : Blk) (func : Nat) : CfgSpace :=
  { vendor := Config.vendorId, device := deviceId func, classCode, bars := if func = 0 then [bar0Size, bar2Size, bar4Size] else [bar2Size, bar4Size]
    vectors := vectorsOf func, bme := b.pcie.master.contains func, aspm := b.pcie.aspm.contains func, aer := Sparse.get 0 b.pcie.aer func
    mps := b.pcie.mps, mrrs := b.pcie.mrrs, tag10 := b.pcie.tag10, ari := b.pcie.ari, vfs := b.pcie.vfs }

/-- The segment of a BAR4 offset. -/
def segOf (func off : Nat) : Nat := func * 1024 + off % bar4Size / 2 ^ 26

/-- The fabric address of a BAR4 offset (R452). -/
def Blk.segAddr (b : Blk) (func off : Nat) : Nat := b.get Reg.seg_FPA_PAGE (segOf func off) * 2 ^ 26 + off % 2 ^ 26

/-- BAR4 access is refused (R453). -/
def Blk.bar4Refused (b : Blk) (func off : Nat) : Bool :=
  b.hostNode.isNone || !b.flag Reg.func_BAR4_EN func || !b.flag Reg.seg_V (segOf func off)

/-- The read opcode of a segment. -/
def Blk.segRead (b : Blk) (s : Nat) : Nat :=
  match b.get Reg.seg_RTYPE s with
  | 0 => Opc.rdLine
  | 2 => Opc.rdVol
  | _ => Opc.rdLineNa

/-- An outcome other than OK is logged (R456). -/
def Blk.bar4Err (b : Blk) (func off status : Nat) : Blk :=
  let first := bitAt (b.get Reg.ERR_STICKY_ERR Pg.pcie) 0
  let b := if first then b else b.puts 0 [(Reg.PCIE_BAR4_ERR_FIRST_FUNC, func), (Reg.PCIE_BAR4_ERR_FIRST_STATUS, status), (Reg.PCIE_BAR4_ERR_FIRST_OFFSET, off)]
  (b.count Reg.PCIE_BAR4_ERR_CNT).err Pg.pcie 0

/-- The runs of enabled bytes of a list: where each begins and its bytes. -/
def enabledRuns : Nat → List (Option Byte) → List (Nat × List Byte)
  | _, [] => []
  | i, none :: l => enabledRuns (i + 1) l
  | i, some x :: l =>
    match l, enabledRuns (i + 1) l with
    | some _ :: _, (_, bs) :: rs => (i, x :: bs) :: rs
    | _, rs => (i, [x]) :: rs

/-- The frames of a write within one line at fabric address `addr`. -/
def lineFrames (addr : Nat) (l : List (Option Byte)) : List Piece :=
  (enabledRuns 0 l).map fun r =>
    let n := r.2.length
    let v := ofBytesLE r.2
    if n = 64 then { opc := Opc.wrLine, addr, data := .ofNat 512 v }
    else { opc := Opc.wrPartial, addr := addr + r.1, arg := n, data := atPlace (addr + r.1) v }

/-- Bytes from an offset on, cut at line ends. -/
def cutLines : Nat → Nat → List (Option Byte) → List (Nat × List (Option Byte))
  | 0, _, _ => []
  | k + 1, off, l =>
    if l.isEmpty then []
    else
      let n := 64 - off % 64
      (off, l.take n) :: cutLines k (off + n) (l.drop n)

/-- The last frame carries FINAL in a FINAL segment (R455). -/
def withFinal (final : Bool) : List Piece → List Piece
  | [] => []
  | [p] => if final then [{ p with final := true, opc := if p.opc = Opc.wrLine then Opc.wrLineFinal else p.opc }] else [p]
  | p :: l => p :: withFinal final l

/-- Take a TLP up: its frames wait to be sent, under the tenant and node of this moment (Table 15.5 notes). -/
def Blk.takeTlp (b : Blk) (func kind off len : Nat) (pieces : List Piece) : Blk :=
  let t : Tlp := { id := b.pcie.nextTlp, func, kind, off, len, todo := pieces.zipIdx.map fun p => (p.2, p.1),
                   tenant := b.get Reg.func_TENANT func, node := b.hostNode.getD 0 }
  { b with pcie := { b.pcie with nextTlp := b.pcie.nextTlp + 1, tlps := b.pcie.tlps ++ [t] } }

/-- A TLP's flow-control credits go back to the host: once its last frame has left (R457). -/
def Blk.creditTlp (b : Blk) (func : Nat) : Blk := b.emit (.fc func)

/-- A completion without data, which AER records (R448, log entry 102): Unsupported Request in bit 20, Completer Abort in bit 15. -/
def Blk.failTlp (b : Blk) (func id st : Nat) : Blk :=
  let bit := if st = Cpl.ur then 2 ^ 20 else 2 ^ 15
  { b with pcie := { b.pcie with aer := Sparse.set 0 b.pcie.aer func (Sparse.get 0 b.pcie.aer func ||| bit) } }.emit (.cpl func id st [])

/-- A TLP completed with Unsupported Request. -/
def Blk.unsupported (b : Blk) (func : Nat) : Blk := (b.creditTlp func).failTlp func b.pcie.nextTlp Cpl.ur

/-- A refused TLP (R453). -/
def Blk.refuseTlp (b : Blk) (func off : Nat) (answered : Bool) : Blk :=
  let b := b.bar4Err func off St.unmapped
  if answered then b.unsupported func else b.creditTlp func

/-- BAR4_READ: `len` bytes at an offset. -/
def Blk.bar4Read (b : Blk) (func off len : Nat) : Blk :=
  if b.linkUp = false then b
  else if b.bar4Refused func off then b.refuseTlp func off true
  else
    let n := (off + len + 63) / 64 - off / 64
    let pieces := (List.range n).map fun i => ({ opc := b.segRead (segOf func off), addr := b.segAddr func off / 64 * 64 + 64 * i } : Piece)
    b.takeTlp func 0 off len pieces

/-- BAR4_WRITE: bytes from an offset on, none where not enabled. -/
def Blk.bar4Write (b : Blk) (func off : Nat) (bytes : List (Option Byte)) : Blk :=
  if b.linkUp = false then b
  else if b.bar4Refused func off then b.refuseTlp func off false
  else
    let pieces := (cutLines bytes.length off bytes).flatMap fun l => lineFrames (b.segAddr func l.1) l.2
    b.takeTlp func 1 off bytes.length (withFinal (b.flag Reg.seg_FINAL (segOf func off)) pieces)

/-- BAR4_ATOMIC: `op` 0 FetchAdd, 1 Swap, 2 CAS; `size` in bytes; operands A and B. -/
def Blk.bar4Atomic (b : Blk) (func off op size x y : Nat) : Blk :=
  if b.linkUp = false then b
  else if b.bar4Refused func off then b.refuseTlp func off true
  else if size ≠ 4 ∧ size ≠ 8 then b.unsupported func
  else
    let opc := match op with
      | 0 => Opc.add
      | 1 => Opc.swap
      | _ => Opc.cas
    let data := x % 2 ^ (8 * size) + if opc = Opc.cas then (y % 2 ^ (8 * size)) <<< (8 * size) else 0
    let p : Piece := { opc, addr := b.segAddr func off, arg := if size = 8 then 1 else 0, data := .ofNat 512 data }
    b.takeTlp func 2 off size (withFinal (b.flag Reg.seg_FINAL (segOf func off)) [p])

/-! ### Sending in order of arrival -/

/-- Frames outstanding over all functions. -/
def Blk.bar4Out (b : Blk) : Nat := b.pcie.tlps.foldl (fun n t => n + t.out.length) 0

/-- An earlier BAR4 write of the function has not landed. -/
def Blk.writesBefore (b : Blk) (t : Tlp) : Bool :=
  b.pcie.tlps.any fun x => x.kind == 1 && x.func == t.func && decide (x.id < t.id) && !(x.todo.isEmpty && x.out.isEmpty)

/-- Change a TLP. -/
def Blk.modTlp (b : Blk) (id : Nat) (f : Tlp → Tlp) : Blk :=
  { b with pcie := { b.pcie with tlps := b.pcie.tlps.map fun (t : Tlp) => if t.id = id then f t else t } }

/-- The frame of a piece (R452). -/
def Blk.bar4Frame (b : Blk) (t : Tlp) (p : Piece) : Frame :=
  { b.reqFrame p.opc p.addr t.tenant false p.arg p.data p.final with src := .ofNat 16 t.node }

/-- Send one frame of a TLP. -/
def Blk.sendPiece (b : Blk) (t : Tlp) (n : Nat) (p : Piece) : Blk :=
  let b := b.modTlp t.id fun t => { t with todo := t.todo.drop 1, out := t.out ++ [n] }
  let b := match t.kind with
    | 0 => b.count Reg.PCIE_BAR4_RD_CNT
    | 1 => b.count Reg.PCIE_BAR4_WR_CNT
    | _ => b.count Reg.PCIE_BAR4_ATOMIC_CNT
  let b := if t.todo.length ≤ 1 then b.creditTlp t.func else b
  b.originate { fr := b.bar4Frame t p, agent := .bar4 t.id n, src := 33 }

/-- The bytes a TLP asked for: of a read those at its offset (Table 15.3), of an AtomicOp the old value, which comes first (R95). -/
def Tlp.bytes (t : Tlp) : List Nat :=
  let all := (sortBy (fun (l : Nat × Line) => (l.1, 0)) t.lines).flatMap fun l => natBytes 64 l.2.toNat
  (all.drop (if t.kind = 0 then t.off % 64 else 0)).take t.len

/-- A TLP's frames have all ended: a read or AtomicOp is completed, a write is over. -/
def Blk.endTlps (b : Blk) : Blk :=
  let ended := b.pcie.tlps.filter fun t => t.todo.isEmpty && t.out.isEmpty
  let b := { b with pcie := { b.pcie with tlps := b.pcie.tlps.filter fun t => !(t.todo.isEmpty && t.out.isEmpty) } }
  b.each (ended.filter fun t => t.kind != 1 && !t.dropped) fun b t =>
    if t.status = St.ok then b.emit (.cpl t.func t.id Cpl.good t.bytes)
    else b.failTlp t.func t.id Cpl.ca

/-- Send frames in order of arrival, up to the first that must wait. -/
def Blk.sendTlps : Nat → Blk → Blk
  | 0, b => b
  | k + 1, b =>
    match b.pcie.tlps.find? fun t => t.kind != 3 && !t.todo.isEmpty with
    | none => b
    | some t =>
      match t.todo with
      | [] => b
      | (n, p) :: _ =>
        if 2048 ≤ b.bar4Out ∨ (t.kind ≠ 1 ∧ b.writesBefore t = true) then b
        else sendTlps k (b.sendPiece t n p)

/-- Doorbells that waited for earlier BAR4 writes of their function ring (R326). -/
def Blk.ringTlps (b : Blk) : Blk :=
  b.each (b.pcie.tlps.filter fun t => t.kind == 3 && !b.writesBefore t) fun b t =>
    let b := { b with pcie := { b.pcie with tlps := b.pcie.tlps.filter fun x => x.id != t.id } }.creditTlp t.func
    b.each t.todo fun b p => b.doorbell p.2.addr p.2.arg (b.get Reg.qctx_FUNC p.2.addr == t.func)

/-- The BAR4 path goes on. -/
def Blk.settleBar4 (b : Blk) : Blk :=
  let b := b.ringTlps
  (Blk.sendTlps (b.pcie.tlps.foldl (fun n t => n + t.todo.length) 0) b).endTlps

/-- A frame of a TLP has ended (R456). -/
def Blk.bar4Result (b : Blk) (id piece status : Nat) (data : Line) : Blk :=
  match b.pcie.tlps.find? fun t => t.id == id with
  | none => b
  | some t =>
    let b := b.modTlp id fun t =>
      { t with out := t.out.filter (· ≠ piece), lines := t.lines ++ [(piece, data)], status := if t.status = St.ok then status else t.status }
    if status = St.ok then b else b.bar4Err t.func t.off status

/-! ### Doorbells (R450) -/

/-- A write in the doorbell range: of 4 or 8 bytes, aligned, it rings the queue once every earlier BAR4 write of the function has landed (R326). -/
def Blk.bar2Doorbell (b : Blk) (func off len value : Nat) : Blk :=
  if (len = 4 ∧ off % 8 = 0) ∨ (len = 8 ∧ off % 8 = 0) then
    b.takeTlp func 3 off len [{ opc := 0, addr := off / 8, arg := value % 2 ^ 32 }]
  else ((b.count Reg.PCIE_DB_DISCARD_CNT).err Pg.pcie 1).creditTlp func

/-! ### MSI-X -/

/-- A vector is unmasked: its pending message is sent. -/
def Blk.msixUnmask (b : Blk) (func vec : Nat) : Blk :=
  if b.linkUp = false ∨ vectorsOf func ≤ vec then b
  else
    let k := func * 2048 + vec
    let b := if b.pcie.open_.contains k then b else { b with pcie := { b.pcie with open_ := b.pcie.open_ ++ [k] } }
    if b.pcie.pba.contains k then { b with pcie := { b.pcie with pba := b.pcie.pba.filter (· ≠ k) } }.sendMsix func vec else b

/-- A vector is masked. -/
def Blk.msixMask (b : Blk) (func vec : Nat) : Blk :=
  { b with pcie := { b.pcie with open_ := b.pcie.open_.filter (· ≠ func * 2048 + vec) } }

/-- Four bytes of a function's MSI-X table: address in two, data, and the mask bit (R451, log entry 102). -/
def Blk.msixWrite (b : Blk) (func o v : Nat) : Blk :=
  let vec := o / 16
  let k := func * 2048 + vec
  let e := Sparse.get (0, 0) b.pcie.msix k
  let set (e : Nat × Nat) : Blk := { b with pcie := { b.pcie with msix := Sparse.set (0, 0) b.pcie.msix k e } }
  if vectorsOf func ≤ vec then b
  else
    match o % 16 / 4 with
    | 0 => set (e.1 / 2 ^ 32 * 2 ^ 32 + v, e.2)
    | 1 => set (e.1 % 2 ^ 32 + v * 2 ^ 32, e.2)
    | 2 => set (e.1, v)
    | _ => if v % 2 = 1 then b.msixMask func vec else b.msixUnmask func vec

/-- Four bytes of the MSI-X table or the PBA as they read. -/
def Blk.msixRead (b : Blk) (func o : Nat) : Nat :=
  let bit (k : Nat) : Nat := if k < vectorsOf func ∧ b.pcie.pba.contains (func * 2048 + k) = true then 1 else 0
  if 0x8000 ≤ o then
    let k := (o - 0x8000) / 4 * 32
    (List.range 32).foldl (fun n i => n + bit (k + i) * 2 ^ i) 0
  else if vectorsOf func ≤ o / 16 then 0
  else
    let e := Sparse.get (0, 0) b.pcie.msix (func * 2048 + o / 16)
    match o % 16 / 4 with
    | 0 => e.1 % 2 ^ 32
    | 1 => e.1 / 2 ^ 32
    | 2 => e.2
    | _ => if b.pcie.open_.contains (func * 2048 + o / 16) then 0 else 1

/-- An access to BAR2 (Table 15.2): the doorbell range, whose reads return zero, and from 0x80_0000 the MSI-X table and the PBA, in words of 4 bytes.
The PBA takes no writes. -/
def Blk.bar2Access (b : Blk) (func off len : Nat) (write : Bool) (value : Nat) : Blk :=
  let half := bar2Size / 2
  if b.linkUp = false ∨ bar2Size ≤ off then b
  else if off < half then
    if write then b.bar2Doorbell func off len value else (b.creditTlp func).emit (.bar2 func off len 0)
  else
    let b := b.creditTlp func
    let words := if off % 4 = 0 then len / 4 else 0
    let o := off - half
    if write then
      if 0x8000 ≤ o then b else b.each (List.range words) fun b i => b.msixWrite func (o + 4 * i) (value / 2 ^ (32 * i) % 2 ^ 32)
    else
      b.emit (.bar2 func off len ((List.range words).foldl (fun n i => n + b.msixRead func (o + 4 * i) <<< (32 * i)) 0))

/-! ### Function-level reset and loss of the link -/

/-- The queues of a function. -/
def Blk.queuesOfFunc (b : Blk) (func : Nat) : List Nat :=
  (b.entriesWith Reg.qctx_STATE).filter fun q => b.get Reg.qctx_FUNC q == func

/-- FLR of one function (R459). -/
def Blk.flr (b : Blk) (func : Nat) : Blk :=
  let b := b.each (b.queuesOfFunc func) fun b q => b.resetQueue q
  let drop (t : Tlp) : Tlp := if t.func = func then { t with dropped := true } else t
  let keep (k : Nat) : Bool := k / 2048 != func
  { b with pcie := { b.pcie with tlps := b.pcie.tlps.map drop, open_ := b.pcie.open_.filter keep, pba := b.pcie.pba.filter keep,
                                  msix := b.pcie.msix.filter fun e => keep e.1 } }

/-- FUNCTION_LEVEL_RESET. -/
def Blk.funcReset (b : Blk) (func : Nat) : Blk := if 64 < func then b else (b.flr func).count Reg.PCIE_FLR_CNT

/-- A hot reset or Data Link Down (R460): each function as R459, configuration at its default, the PF's Bus Master Enable 0. Reads of host memory that
are out do not come back. -/
def Blk.pcieDown (b : Blk) : Blk :=
  let b := b.each (List.range 65) Blk.flr
  let b := { b with pcie := { b.pcie with master := [], mps := 128, mrrs := 512, tag10 := false, ari := false, vfs := 0, aspm := [], aer := [] }, tier := { b.tier with asked := [] } }
  ((b.put Reg.PCIE_LINK_SPEED 0).put Reg.PCIE_LINK_WIDTH 0 |>.count Reg.PCIE_LINK_DOWN_CNT).err Pg.pcie 4

/-- The link trains (R447). -/
def Blk.linkTrain (b : Blk) (speed width : Nat) : Blk :=
  if (1 ≤ speed ∧ speed ≤ 6) ∧ (width = 1 ∨ width = 4 ∨ width = 8 ∨ width = 16) then
    (b.put Reg.PCIE_LINK_SPEED speed).put Reg.PCIE_LINK_WIDTH width
  else b

/-- A configuration write (R448, R460): until step 5 of a boot it meets Configuration Request Retry Status (R572). -/
def Blk.configWrite (b : Blk) (func : Nat) (c : PcieCfg) : Blk :=
  if b.linkUp = false ∨ 64 < func then b
  else if b.alive = false then b.emit (.crs func)
  else
    let keep (on : Bool) (l : List Nat) : List Nat := if on then l.filter (· ≠ func) ++ [func] else l.filter (· ≠ func)
    let aer := Sparse.get 0 b.pcie.aer func
    let b := { b with pcie := { b.pcie with master := keep c.bme b.pcie.master, aspm := keep c.aspm b.pcie.aspm,
                                            aer := Sparse.set 0 b.pcie.aer func (aer - (aer &&& c.aerClear.toNat)) } }
    if func ≠ 0 then b
    else
      let m := if [128, 256, 512].contains c.mps then c.mps else b.pcie.mps
      let r := if [128, 256, 512, 1024, 2048, 4096].contains c.mrrs then c.mrrs else b.pcie.mrrs
      { b with pcie := { b.pcie with mps := m, mrrs := r, tag10 := c.tag10, ari := c.ari, vfs := Nat.min totalVfs c.vfs } }

end Sys2Proof.Machine
end

