-- ==== Sys2Proof/Machine/Time.lean ====
section
/-! DEFINITION. The time counter and its discipline (R523 to R531).
-/
namespace Sys2Proof.Machine

/-! ### Where the part stands -/

/-- Change the AON island. -/
def Blk.setAon (b : Blk) (f : Aon → Aon) : Blk := { b with aon := f b.aon }

/-- Enter a mode. -/
def Blk.enter (b : Blk) (m : Mode) : Blk := b.setAon fun a => { a with mode := m, since := b.el }

/-- Recovery mode (R486). -/
def Blk.recovery (b : Blk) : Bool := b.flag Reg.GLB_BOOT_STATUS_RECOVERY

/-- The open debug level (Table 17.5). -/
def Blk.level (b : Blk) : Nat := b.get Reg.DBG_STATE_LEVEL

/-- The whole part serves: not in a reset, not in recovery mode, not held for scan at D3. -/
def Blk.on (b : Blk) : Bool := b.aon.mode == .run && !b.recovery && b.level != 3

/-- The management cores serve: not held for scan at D3 (Table 17.7). -/
def Blk.served (b : Blk) : Bool := b.alive && b.level != 3

/-- The part answers on a path: at D3 on JTAG alone. -/
def Blk.answers (b : Blk) (path : Path) : Bool := b.alive && (b.level != 3 || path == .jtag)

/-- The PCIe group is enabled and its link trains or is up (Table 16.9, step 2). -/
def Blk.pcieOn (b : Blk) : Bool :=
  b.served || match b.aon.mode with
    | .boot k => decide (2 ≤ k)
    | _ => false

/-- TDO is driven (R478). -/
def Blk.tdoDriven (b : Blk) : Bool := b.aon.tap == .shiftDr || b.aon.tap == .shiftIr

/-! ### Rails that are released (R585) -/

/-- Requests drop from IO down to group `low`, each once the power-good of the one above has fallen or 10 ms have passed. -/
def Blk.dropDown (low : Nat) : List Nat → Blk → Blk
  | [], b => b.setAon fun a => { a with fall := none }
  | g :: gs, b =>
    if g < low ∨ b.aon.reqs.contains g = false then dropDown low gs b
    else
      let good := b.aon.goods.contains g
      let b := b.setAon fun a => { a with reqs := a.reqs.filter (· ≠ g), goods := a.goods.filter (· ≠ g), fall := some (g, low, b.el) }
      if good then b else dropDown low gs b

/-- 10 ms have passed without the fall that is awaited. -/
def Blk.dropTurn (b : Blk) : Blk :=
  match b.aon.fall with
  | some (_, low, since) => if b.past since (ms 10) then b.dropDown low [2, 1, 0] else b
  | none => b

/-! Time states (Table 18.2). -/
namespace Tm
def free : Nat := 0
def acquiring : Nat := 1
def locked : Nat := 2
def holdover : Nat := 3
end Tm

/-- The state of the servo. -/
def Blk.timeState (b : Blk) : Nat := b.get Reg.TIME_STATUS_STATE

/-! ### The counter -/

/-- Seconds of the counter that have begun. -/
def wholeSecond (t : Nat) : Nat := t / 2 ^ 32 / 10 ^ 9

/-- PPS_OUT rises where the counter has come to a whole second (R530). -/
def Blk.pulse (b : Blk) (before : Nat) : Blk :=
  if b.flag Reg.TIME_CTRL_PPS_OUT_EN && wholeSecond before < wholeSecond b.t then
    (b.emit .pps).setAon fun a => { a with ppsRise := some b.el }
  else b

/-- PPS_OUT falls 100 ms after it rose, or with its enable (R478, R530). -/
def Blk.pulseEnd (b : Blk) : Blk :=
  match b.aon.ppsRise with
  | some r =>
    if b.flag Reg.TIME_CTRL_PPS_OUT_EN = false ∨ b.past r (ms 100) = true then (b.emit .ppsFall).setAon fun a => { a with ppsRise := none } else b
  | none => b

/-- PPS_OUT is high. -/
def Blk.ppsOut (b : Blk) : Bool := b.aon.ppsRise.isSome && b.flag Reg.TIME_CTRL_PPS_OUT_EN

/-- Idle flits that pass on a link in one period of TCXO_IN, 40 ns, at the rate of R67. -/
def tickFlits : Nat := 31

/-- TCXO_TICK (R523): one period of TCXO_IN, in which links carry idle flits too (R72). -/
def Blk.tick (b : Blk) : Blk :=
  if b.held = true ∨ b.aon.mode = .dark then b
  else
    let d := (40 * 2 ^ 32 + toSigned 32 (b.get Reg.TIME_ADJ_ADJ)).toNat
    (({ b with t := (b.t + d) % 2 ^ 96, el := b.el + d }.each (List.range 24) fun b p => b.idleOut p tickFlits).pulse b.t).pulseEnd.dropTurn

/-- The counter steps forward to a time in nanoseconds: never back. -/
def Blk.stepTo (b : Blk) (n : Nat) : Blk :=
  let b' := { b with t := Nat.max b.t (n % 2 ^ 64 * 2 ^ 32) }
  let b' := b'.setAon fun a => { a with ptpOff := a.ptpOff - ((b'.now : Int) - (b.now : Int)) }
  if n % 10 ^ 9 = 0 then b'.pulse b.t else b'

def timeCmd : CmdReg := ⟨Reg.TIME_CMD_STATUS_DONE, Reg.TIME_CMD_STATUS_CODE, Pg.time⟩

/-- TIME_CMD `step_to` (R524). -/
def Blk.timeStepTo (b : Blk) : Blk :=
  b.cmd timeCmd none fun b =>
    if b.get Reg.TIME_CMD_ARG_NS < b.now then b.cmdEnd timeCmd badRange else (b.stepTo (b.get Reg.TIME_CMD_ARG_NS)).cmdEnd timeCmd ok

/-! ### The servo (R525, R528) -/

/-- The limit of |ADJ| (R524). -/
def Blk.slewLimit (b : Blk) : Nat := b.get Reg.TIME_SERVO_SLEW_PPM * 171799

/-- Rates that ended before a time are dropped. -/
def trimAdjs (cut : Nat) : List (Nat × Nat) → List (Nat × Nat)
  | x :: y :: l => if y.1 ≤ cut then trimAdjs cut (y :: l) else x :: y :: l
  | l => l

/-- Set ADJ, no further than the limit; while `locked` the rates of the last 64 s are kept. -/
def Blk.setAdj (b : Blk) (a : Int) : Blk :=
  let l : Int := b.slewLimit
  let a := if a < -l then -l else if l < a then l else a
  let r := (a % 2 ^ 32).toNat
  let b := b.put Reg.TIME_ADJ_ADJ r
  if b.timeState = Tm.locked then b.setAon fun x => { x with adjs := trimAdjs (b.el - secs 64) (x.adjs ++ [(b.el, r)]) } else b

/-- TIME_SERVO is written: ADJ keeps within the new limit (R524); which rate the servo takes where it exceeded that is open. -/
def Blk.limitAdj (b : Blk) : Blk :=
  if (toSigned 32 (b.get Reg.TIME_ADJ_ADJ)).natAbs ≤ b.slewLimit then b
  else
    let (r, b) := b.draw (2 * b.slewLimit + 1)
    b.setAdj ((r : Int) - (b.slewLimit : Int))

/-- `locked` is left (Table 18.15). -/
def Blk.unlock (b : Blk) : Blk := (b.count Reg.TIME_LOCK_LOSS_CNT).err Pg.time 0

/-- Enter a state of Table 18.2. -/
def Blk.toTime (b : Blk) (st : Nat) : Blk :=
  let b := if b.timeState = Tm.locked ∧ st ≠ Tm.locked then b.unlock else b
  (b.put Reg.TIME_STATUS_STATE st).setAon fun a => { a with near := 0, far := 0, lockedOnce := a.lockedOnce || st == Tm.locked }

/-- How long a rate held in the last 64 s: spans (start, rate), oldest first, up to now. -/
def meanParts (now : Nat) : List (Nat × Nat) → List (Nat × Nat)
  | [] => []
  | [(s, r)] => [(now - Nat.max s (now - secs 64), r)]
  | (s, r) :: (u, q) :: l => (u - Nat.max s (now - secs 64), r) :: meanParts now ((u, q) :: l)

/-- The mean rate over the last 64 s; which way it is rounded is open. -/
def Blk.meanAdj (b : Blk) : Int × Blk :=
  let ps := meanParts b.el b.aon.adjs
  let len : Nat := ps.foldl (fun n p => n + p.1) 0
  let sum : Int := ps.foldl (fun (n : Int) p => n + (p.1 : Int) * toSigned 32 p.2) 0
  if len = 0 then (toSigned 32 (b.get Reg.TIME_ADJ_ADJ), b)
  else if sum % (len : Int) = 0 then (sum / (len : Int), b)
  else
    let (r, b) := b.draw 2
    (sum / (len : Int) + (r : Int), b)

/-- `holdover` begins: ADJ holds its mean over the last 64 s of `locked` (R528). -/
def Blk.toHoldover (b : Blk) : Blk :=
  let b := b.toTime Tm.holdover
  let (m, b) := b.meanAdj
  (b.setAdj m).setAon fun a => { a with holdAt := b.el, adjs := [] }

/-- TIME_OFFSET: signed, saturating. -/
def sat32 (n : Int) : Nat := if n < -(2 ^ 31) then 2 ^ 31 else if 2 ^ 31 ≤ n then 2 ^ 31 - 1 else (n % 2 ^ 32).toNat

/-- How the servo corrects an offset, master less counter (R525): a step forward, a slew at its limit, or a rate it chooses. -/
def Blk.correct (b : Blk) (off : Int) : Blk :=
  let big : Int := b.get Reg.TIME_STEP_THRESH_NS
  if b.timeState = Tm.acquiring ∧ b.aon.lockedOnce = false ∧ big < off then
    (b.stepTo (b.now + off.toNat)).put Reg.TIME_STATUS_STEPPED 1
  else if off < -big then (b.setAdj (-(b.slewLimit : Int))).err Pg.time 2
  else
    let (r, b) := b.draw (2 * b.slewLimit + 1)
    b.setAdj ((r : Int) - (b.slewLimit : Int))

/-- One offset: the lock criteria of Table 18.2, then the correction. -/
def Blk.servo (b : Blk) (off : Int) : Blk :=
  let b := b.put Reg.TIME_OFFSET_OFFSET_NS (sat32 off)
  let near : Bool := decide (off.natAbs ≤ b.get Reg.TIME_LOCK_LOCK_NS)
  let far : Bool := decide (b.get Reg.TIME_LOCK_UNLOCK_NS < off.natAbs)
  let b := b.setAon fun a => { a with near := if near then a.near + 1 else 0, far := if far then a.far + 1 else 0 }
  let b := if b.timeState = Tm.acquiring ∧ 16 ≤ b.aon.near then (b.toTime Tm.locked).setAon fun a => { a with adjs := [(b.el, b.get Reg.TIME_ADJ_ADJ)] }
    else if b.timeState = Tm.locked ∧ 4 ≤ b.aon.far then b.toTime Tm.acquiring
    else b
  b.correct off

/-- A PTP message comes in the domain and over the transport that TIME_CTRL selects, with PTP on (R527). -/
def Blk.ptpTakes (b : Blk) (domain : Nat) (udp : Bool) : Bool :=
  b.flag Reg.TIME_CTRL_PTP_EN && domain == b.get Reg.TIME_CTRL_DOMAIN && udp == b.flag Reg.TIME_CTRL_TRANSPORT

/-- No master is selected. -/
def Blk.masterless (b : Blk) : Bool := b.timeState == Tm.free || b.timeState == Tm.holdover

/-- PTP_ANNOUNCE: a master is selected where there is none, or the one that announces itself is no worse (R527, log entry 100): after an L1 reset,
which clears TIME_MASTER, the one of before as well. -/
def Blk.ptpAnnounce (b : Blk) (m : Announce) : Blk :=
  if b.ptpTakes m.domain.toNat m.udp = false ∨ m.interval = 0 then b
  else
    let same := m.id.toNat == b.get Reg.TIME_MASTER_ID
    if b.masterless || same || decide (m.rank ≤ b.aon.rank) then
      let none_ := b.masterless
      let b := (b.put Reg.TIME_MASTER_ID m.id.toNat).setAon fun a =>
        { a with announce := m.interval, rank := m.rank, syncAt := if none_ || !same then b.el else a.syncAt }
      if none_ then b.toTime Tm.acquiring else b
    else b

/-- The servo takes phase from PPS_IN (R531). -/
def Blk.ppsPhase (b : Blk) : Bool := b.flag Reg.TIME_CTRL_PPS_IN_EN && !b.aon.ppsLost

/-- The offset a Sync shows, master less counter: its origin time and the path's delay, against its timestamp at the port (R527, R528). -/
def Blk.syncOffset (b : Blk) (m : PtpSync) : Int := (m.origin : Int) + m.delay - (b.now : Int)

/-- PTP_SYNC: a Sync of the selected master gives an offset; the delay exchange that TIME_CTRL.DELAY selects goes with it. With the phase taken
from PPS_IN it gives the seconds (R531). -/
def Blk.ptpSync (b : Blk) (m : PtpSync) : Blk :=
  if b.ptpTakes m.domain.toNat m.udp = false ∨ b.masterless = true ∨ m.id.toNat ≠ b.get Reg.TIME_MASTER_ID ∨ m.p2p ≠ b.flag Reg.TIME_CTRL_DELAY then b
  else
    let off := b.syncOffset m
    let b := (((b.count Reg.TIME_SYNC_CNT).emit (.ptpDelay m.p2p))).setAon fun a => { a with syncAt := b.el, ptpOff := off }
    if b.ppsPhase then b else b.servo off

/-- MASTER_LOSS: no Sync for three announce intervals. -/
def Blk.masterLoss (b : Blk) : Blk :=
  if b.past b.aon.syncAt (ns (3 * b.aon.announce)) = false then b
  else if b.timeState = Tm.locked then b.toHoldover
  else if b.timeState = Tm.acquiring then b.toTime Tm.free
  else b

/-- HOLDOVER_EXPIRE. -/
def Blk.holdoverExpire (b : Blk) : Blk :=
  if b.timeState = Tm.holdover ∧ b.past b.aon.holdAt (secs (b.get Reg.TIME_SERVO_HOLDOVER_S)) = true then
    (b.toTime Tm.free).err Pg.time 1
  else b

/-- The whole second nearest a time, less that time. -/
def toSecond (n : Nat) : Int := ((n + 5 * 10 ^ 8) / 10 ^ 9 * 10 ^ 9 : Nat) - (n : Int)

/-- What a PPS_IN edge shows, its whole second less the counter: the second is numbered by PTP, or with PTP off by the counter (R531,
log entry 100). -/
def Blk.ppsOffset (b : Blk) : Int :=
  let off : Int := if b.flag Reg.TIME_CTRL_PTP_EN then b.aon.ptpOff else 0
  toSecond ((b.now : Int) + off).toNat + off

/-- PPS_IN_EDGE (R531). With PTP off, an edge is the master the servo selects. Without VAON nothing takes it. -/
def Blk.ppsEdge (b : Blk) : Blk :=
  if b.aon.mode = .dark then b
  else
  let b := ((b.put Reg.TIME_PPS_IN_TS_NS b.now).count Reg.TIME_PPS_IN_CNT).setAon fun a => { a with ppsAt := b.el, ppsLost := false }
  if b.flag Reg.TIME_CTRL_PPS_IN_EN = false ∨ b.alive = false then b
  else
    let b := if b.flag Reg.TIME_CTRL_PTP_EN then b
      else
        let b := b.setAon fun a => { a with syncAt := b.el }
        if b.timeState = Tm.free ∨ b.timeState = Tm.holdover then b.toTime Tm.acquiring else b
    if b.timeState = Tm.acquiring ∨ b.timeState = Tm.locked then b.servo b.ppsOffset else b

/-- PPS_IN_MISS: no edge for 1.5 s. -/
def Blk.ppsMiss (b : Blk) : Blk :=
  if b.ppsPhase && b.past b.aon.ppsAt (ms 1500) then (b.err Pg.time 3).setAon fun a => { a with ppsLost := true } else b

/-- Clearing both enables of TIME_CTRL makes the state `free` (Table 18.2); setting PPS_IN_EN starts its 1.5 s. -/
def Blk.timeCtrl (b : Blk) (pps : Bool) : Blk :=
  let b := if pps then b.setAon fun a => { a with ppsAt := b.el, ppsLost := false } else b
  if b.flag Reg.TIME_CTRL_PTP_EN = false ∧ b.flag Reg.TIME_CTRL_PPS_IN_EN = false ∧ b.timeState ≠ Tm.free then b.toTime Tm.free else b

end Sys2Proof.Machine
end

