-- ==== Sys2Proof/Machine/Reset.lean ====
section
/-! DEFINITION. Resets and rails: what each level clears (Table 16.2, R464 to R469), sources and levels (R470 to R476), the crash
log, the closing of debug levels by them (R516, Table 17.7), power-up and rail loss (R582 to R585). -/
namespace Sys2Proof.Machine

/-! ### Commands of the GLB and PWR pages -/

def norCmd : CmdReg := ⟨Reg.GLB_NOR_STATUS_DONE, Reg.GLB_NOR_STATUS_CODE, Pg.glb⟩
def pwrCmd : CmdReg := ⟨Reg.PWR_CMD_STATUS_DONE, Reg.PWR_CMD_STATUS_CODE, Pg.pwr⟩

/-! ### Debug levels close (R516, R519) -/

/-- Write an entry of the debug log (R519). -/
def Blk.logDebug (b : Blk) (op code level tile : Nat) : Blk :=
  let i := b.aon.logNext
  (b.puts i [(Reg.log_TIME, b.now), (Reg.log_OP, op), (Reg.log_CODE, code), (Reg.log_LEVEL, level), (Reg.log_TILE, tile),
    (Reg.log_SESSION, b.get Reg.DBG_STATE_SESSION)]).setAon fun a => { a with logNext := (i + 1) % 32 }

/-- Every halted tile returns to `run`. -/
def Blk.resumeAll (b : Blk) : Blk :=
  let b := b.each b.eng.halted fun b t => b.put Reg.TILE_STATE_STATE Ts.run t
  { b with eng := { b.eng with halted := [] } }

/-- The level is D0 and TENANT_DATA has ended. -/
def Blk.shutLevel (b : Blk) : Blk :=
  ((b.put Reg.DBG_STATE_LEVEL 0).put Reg.DBG_STATE_TENANT_DATA 0).setAon fun a => { a with expired := false }

/-- The level closes: halted tiles resume, TENANT_DATA ends, the level is D0; the log's OP for a closing is open. -/
def Blk.closeLevel (b : Blk) : Blk :=
  if b.level = 0 then b
  else
    let (op, b) := b.draw 256
    let b := b.logDebug op ok b.level 0
    b.resumeAll.shutLevel

/-! ### The crash log (R472) -/

/-- The BAR0 page number of a page (Table 19.1). -/
def barPage (p : Nat) : Nat :=
  if 0x4000 ≤ p ∧ p < 0x5000 then p - 0x4000 + 0x10 else if 0x5000 ≤ p then p - 0x5000 + 0x80 else p

/-- A page holds a device-fatal sticky bit, masked or not. -/
def Blk.fatalHeld (b : Blk) (p : Nat) : Bool :=
  (List.range (errBits p)).any fun n => bitAt (b.get Reg.ERR_STICKY_ERR p) n && b.classOf p n == 3

/-- The first page that holds a device-fatal sticky bit, or 0x3FFF. -/
def Blk.firstFatal (b : Blk) : Nat :=
  (((b.entriesWith Reg.ERR_STICKY_ERR).filter b.fatalHeld).map barPage).foldl Nat.min 0x3FFF

/-- An entry of the crash log, a ring of 16. -/
def Blk.crash (b : Blk) (source level : Nat) : Blk :=
  let i := b.aon.crashNext
  let stage := if b.recovery then 0xE else b.get Reg.GLB_BOOT_STATUS_STAGE
  (b.puts i [(Reg.crash_TIME, b.now), (Reg.crash_SOURCE, source), (Reg.crash_LEVEL, level), (Reg.crash_STAGE, stage),
    (Reg.crash_FW_SLOT, b.get Reg.GLB_BOOT_STATUS_FW_SLOT), (Reg.crash_RECOVERY, b.get Reg.GLB_BOOT_STATUS_RECOVERY),
    (Reg.crash_FIRST_PAGE, b.firstFatal), (Reg.crash_FAIL_CODE, b.get Reg.GLB_BOOT_STATUS_FAIL_CODE)]).setAon
      fun a => { a with crashNext := (i + 1) % 16 }

/-! ### What each level clears (Table 16.2) -/

/-- A key of the field store that an L1 reset keeps: the crash and debug logs, the time unit's configuration with its state and rate, and the
AON registers of the GLB and DBG pages. -/
def keptL1 (k : Nat) : Bool :=
  let at_ : Nat := k % 2 ^ 16 / 8
  k / 2 ^ 60 == Space.t_crash.code || k / 2 ^ 60 == Space.t_log.code ||
  (k / 2 ^ 60 == Space.time.code && decide (0x4C ≤ at_ ∧ at_ < 0x68 ∧ ¬(0x58 ≤ at_ ∧ at_ < 0x5C))) ||
  [Reg.GLB_LAST_RESET_SOURCE, Reg.GLB_LAST_RESET_LEVEL, Reg.GLB_LAST_RESET_TIME_TIME, Reg.GLB_BOOT_STATUS_FAIL_CODE,
   Reg.GLB_FAILED_START_COUNT, Reg.DBG_STATE_SESSION].any fun f => f.key 0 == k

/-- What the dies keep through every reset and power state (R304), with what the part keeps of their care. -/
def Peat.kept (p : Peat) : Peat :=
  { wseq := p.wseq, open_ := p.open_, closing := p.closing, bare := p.bare, fails := p.fails, noParity := p.noParity, deadDue := p.deadDue,
    lost := p.lost, ckpt := p.ckpt, ckptKey := p.ckptKey, log := p.log, known := p.known, kinds := p.kinds, grownAt := p.grownAt, logical := p.logical,
    scrubAt := p.scrubAt, progAt := p.progAt }

/-- What the AON island and the board keep through L1: beside the logs' places, power, rails and time discipline. -/
def Aon.keptL1 (a : Aon) : Aon :=
  { mode := a.mode, since := a.since, ready := a.ready, wake := a.wake, reqs := a.reqs, goods := a.goods, up := a.up, fall := a.fall,
    trip := a.trip, tap := a.tap, ppsRise := a.ppsRise, ptpOff := a.ptpOff, rank := a.rank, crashNext := a.crashNext, logNext := a.logNext, nor := a.nor, lockedOnce := a.lockedOnce, near := a.near, far := a.far,
    syncAt := a.syncAt, announce := a.announce, holdAt := a.holdAt, adjs := a.adjs, ppsAt := a.ppsAt, ppsLost := a.ppsLost }

/-- What the board and the boot store keep through L0. -/
def Aon.keptL0 (a : Aon) : Aon :=
  { mode := a.mode, since := a.since, ready := a.ready, wake := a.wake, reqs := a.reqs, goods := a.goods, up := a.up, fall := a.fall,
    trip := a.trip, tap := a.tap, nor := a.nor }

/-- The core is cleared: all of it but the AON island, and with it what the stacks hold. -/
def Blk.clearCore (b : Blk) (fs : List (Nat × Nat)) (a : Aon) : Blk :=
  { fs, t := b.t, el := b.el, held := b.held, freeCtr := b.freeCtr, store := { power := b.store.power + 1 }, peat := b.peat.kept,
    aon := a, emits := b.emits }

/-- An L1 reset clears. -/
def Blk.clearL1 (b : Blk) : Blk := b.clearCore (b.fs.filter fun e => keptL1 e.1) b.aon.keptL1

/-- An L0 reset clears: the AON island as well, and the counter starts at zero (R523). -/
def Blk.clearL0 (b : Blk) : Blk := { b.clearCore [] b.aon.keptL0 with t := 0 }

/-- The pages of the blocks that an L2 reset takes. -/
def pagesL2 : List Nat :=
  (List.range 24).map Pg.fqp ++ [Pg.swc, Pg.flock, Pg.slough, Pg.fen, Pg.pred, Pg.qmgr, Pg.sync, Pg.emb, Pg.vse, Pg.wst] ++ (List.range 96).map Pg.tile

/-- A key of the field store that an L2 reset clears: the directory, queues, engine tables, monitors, predictor and markers, the
tiles' windows, owners and snapshots, the registers of the blocks it reaches of which no table notes that they keep their value (R10), with those
blocks' interrupt bits and table windows, and figures of what is held. A port keeps ENABLE, its role and its source range, with which it is brought up again (Table 16.3). -/
def clearedL2 (k : Nat) : Bool :=
  let at_ (f : Fld) : Bool := k / 2 ^ 60 == f.sp.code && k % 2 ^ 16 == f.bit
  ([Space.t_dir, Space.t_qctx, Space.t_table, Space.t_index, Space.t_members, Space.t_monitor, Space.t_pred, Space.t_qmark, Space.t_stream, Space.cbw].any
    fun s => k / 2 ^ 60 == s.code) ||
  (k / 2 ^ 60 == Space.tbl.code && pagesL2.contains (k / 2 ^ 16 % 2 ^ 16)) ||
  (k / 2 ^ 60 == Space.hdr.code && pagesL2.contains (k / 2 ^ 16 % 2 ^ 44) &&
    [Reg.INT_ENABLE_CMD_DONE, Reg.INT_ENABLE_BLOCK, Reg.INT_ENABLE_ERR, Reg.INT_STATUS_CMD_DONE, Reg.INT_STATUS_BLOCK, Reg.INT_STATUS_ERR].any
      fun f => k % 2 ^ 16 == f.bit) ||
  [Reg.SEDGE_OWN_LO_OWN, Reg.SEDGE_OWN_HI_OWN, Reg.TILE_STEP_SNAP_STEPS, Reg.TILE_TIME_SNAP_TIME,
   Reg.FQP_STATE_PEER_ROLE, Reg.FQP_STATE_PEER_NODE, Reg.FQP_TIMING_FRAME_STALL_US, Reg.FQP_TIMING_REPLAY_MAX, Reg.FQP_TIMING_LOCK_HOLD_US,
   Reg.FQP_CREDIT_A_REQ_UNITS, Reg.FQP_CREDIT_A_COH_UNITS, Reg.FQP_CREDIT_B_BULK_UNITS, Reg.FQP_CREDIT_B_RSP_UNITS, Reg.FQP_LINK_DOWN_TIME_TIME,
   Reg.SWC_REQ_TIMEOUT_TIMEOUT_US, Reg.SWC_CTRL_ADAPTIVE, Reg.SWC_ARB_AGE_THRESH_NS, Reg.SWC_ARB_W_COH, Reg.SWC_ARB_W_RSP, Reg.SWC_ARB_W_REQ,
   Reg.SWC_ARB_W_BULK, Reg.SWC_RESEQ_HOLE_US, Reg.SLOUGH_THRESH_FULL_LIMIT_MS, Reg.SLOUGH_THRESH_SPILL_PCT, Reg.SLOUGH_OCC_HWM_FRAMES,
   Reg.FLOCK_CTRL_READ_EN, Reg.FLOCK_CTRL_ATOMIC_EN, Reg.FLOCK_OCC_HWM, Reg.FLOCK_OCC_ENTRIES, Reg.FEN_OCC_ENTRIES, Reg.FEN_RSV_OCC_USED,
   Reg.FEN_RSV_OCC_HWM, Reg.SYNC_MON_OCC_HWM, Reg.SYNC_MON_OCC_ARMED, Reg.SYNC_DBG_VALUE_VALUE, Reg.QMGR_CFG_AGE_US, Reg.QMGR_CFG_QUANTUM,
   Reg.QMGR_DB_BASE_BASE, Reg.EMB_XAP_BASE_BASE, Reg.VSE_XAP_BASE_BASE,
   Reg.EMB_CFG_RETIRE_GRACE_MS, Reg.VSE_CFG_RETIRE_GRACE_MS, Reg.VSE_CFG_COMMIT_WAIT_US, Reg.WST_CFG_TOTAL_GBPS, Reg.WST_CFG_RESEND_MAX].any at_

/-- The tier's work in flight is undone (R466): fetches return to `absent`, write-downs to `resident` and dirty. -/
def Blk.stopTier (b : Blk) : Blk :=
  let b := b.each b.tier.fetches fun b x => b.fetchFailed x
  let b := b.each b.tier.downs fun b x => ((b.put Reg.map_BSTATE Bst.resident x.block).put Reg.map_DIRTY 1 x.block).cutPeat x.block
  let b := { b with tier := { b.tier with downs := [] } }
  let b := { b with peat := { b.peat with reads := b.peat.reads.filter (·.move), ready := [], passReady := [] } }
  match b.tier.job with
  | some (.flush _ _ _ _) => b.tierEnd downFail
  | _ => b

/-- A port after an L2 reset: its link is down, and nothing of it is held. -/
def Blk.darkPort (b : Blk) (p : Nat) : Blk :=
  (b.link p (if b.get Reg.FQP_CTRL_ENABLE p = 1 then Ls.down else Ls.disabled)).setPort p fun _ => { start := b.el }

/-- Commands of those blocks in progress are over; the tiles await their canaries, but in recovery mode stay gated (R486). -/
def Blk.idleL2 (b : Blk) : Blk :=
  let b := b.each [fenCmd, qmgrCmd, syncCmd, swcCmd] fun b c => ((b.put c.done 1).put c.code 0).put Reg.PAGE_STATUS_BUSY 0 c.page
  let b := b.each pagesL2 fun b p => b.put Reg.PAGE_STATUS_READY 0 p
  if b.recovery then b
  else b.each (List.range 96) fun b t => if b.get Reg.TILE_STATE_STATE t = Ts.retired then b else b.put Reg.TILE_STATE_STATE Ts.testing t

/-- An L2 reset clears (R465 to R467): frames, requests and works are gone, with which a GLB_RST_CMD `tenant` that waited for them ends (R468); SEQ and expected numbers stay; the TAGs of abandoned
requests rest as after a timeout (R104); signing resumes at the recorded state (R512). -/
def Blk.clearL2 (b : Blk) : Blk :=
  let b := { b with home := { b.home with reqs := [], inbox := [], again := [] } }
  let b := if b.prot.isSome then b.protEnd lineFail else b
  let b := b.stopTier
  let b := if b.eng.tenantRst.isSome then b.cmdEnd rstCmd ok else b
  let b := b.each (b.entriesWith Reg.window_INFLIGHT) fun b w => b.put Reg.window_INFLIGHT 0 w
  let quiet (s : Stream) : Stream := { s with held := [] }
  let drains := b.home.drains.map fun (d : Drain) => { d with recalls := [] }
  let rest := b.orig.out.map fun o => (o.fr.dst.toNat, o.fr.tag.toNat, b.el)
  let b := { b with
    fs := b.fs.filter fun e => !clearedL2 e.1
    sw := { nextId := b.sw.nextId, streams := b.sw.streams.map quiet }
    home := { nextId := b.home.nextId, nextPlace := b.home.nextPlace, nextTag := b.home.nextTag, drains := drains }
    orig := { seqs := b.orig.seqs, quar := b.orig.quar ++ rest }
    eng := {}
    pcie := { b.pcie with tlps := [] } }
  let b := (b.put Reg.GLB_PIN_EN_GROUPS (b.get Reg.GLB_PIN_EN_GROUPS % 32)).each (List.range 24) Blk.darkPort
  let b := b.setAon fun a => { a with slice := none, full := none, beaconOut := false, idle := [], leaf := none }
  b.idleL2

/-! ### Power-up (R584) -/

/-- Raise the request of the first rail group whose request is low, or go on to the release of the reset. -/
def Blk.powerUp (b : Blk) : Blk :=
  let b := b.setAon fun a => { a with up := true, fall := none }
  match (List.range 3).find? fun g => !b.aon.reqs.contains g with
  | some g => (b.setAon fun a => { a with reqs := a.reqs ++ [g] }).enter (.rails g)
  | none => (b.enter (.reset (if b.aon.wake = 0 then b.get Reg.GLB_LAST_RESET_LEVEL else 1))).setAon fun a => { a with ready := b.el + ms 2 }

/-- Every request is dropped at once (R585), and with it what the stacks hold. -/
def Blk.dropRails (b : Blk) : Blk := b.setAon fun a => { a with reqs := [], goods := [], fall := none, retKey := none }

/-- Every request is released, in the order of R585. -/
def Blk.releaseRails (b : Blk) : Blk := (b.setAon fun a => { a with retKey := none }).dropDown 0 [2, 1, 0]

/-! ### Taking a reset (R470 to R472, R500) -/

/-- The level of a source: the deepest of its fuse field, its software field and the level asked for; 0b11 acts as L0. -/
def Blk.levelOf (b : Blk) (z : Fuse) (source : Nat) (req : Option Nat) : Nat :=
  let fld (m : Nat) : Nat := m / 2 ^ (2 * (source - 1)) % 4
  let deep (n : Nat) : Nat := if n = 3 then 0 else n
  if source = 0 then 0
  else
    let l := Nat.min (deep (fld z.map.toNat)) (deep (fld (b.get Reg.GLB_RESET_MAP_SW_MAP)))
    match req with
    | some r => Nat.min l (deep r)
    | none => l

/-- An entry to P3 or P4 in progress is over; its command finishes `busy`. -/
def Blk.endEntry (b : Blk) : Blk :=
  if b.aon.entry.isSome then
    (({ b with home := { b.home with drains := b.home.drains.filter (·.win ≠ 4096) } }).setAon fun a => { a with entry := none }).cmdEnd pwrCmd busy
  else b

/-- The level of the reset in progress, before its release; none in a wake from P3 or P4, which a reset turns into one of its own (R500). -/
def Blk.inReset (b : Blk) : Option Nat :=
  let l := if b.aon.wake = 0 then some (b.get Reg.GLB_LAST_RESET_LEVEL) else none
  match b.aon.mode with
  | .rails _ => l
  | .retry => l
  | .tripped => l
  | .reset _ => l
  | .l2 => some 2
  | _ => none

/-- The reset takes effect at a level; `wait`: how long after this it is released at the earliest. An L2 reset during a boot leaves the management
cores running, and the boot goes on (R466, log entry 101). -/
def Blk.applyReset (b : Blk) (source level wait : Nat) : Blk :=
  let b := b.crash source level
  let b := (b.put Reg.GLB_LAST_RESET_SOURCE source).put Reg.GLB_LAST_RESET_LEVEL level |>.put Reg.GLB_LAST_RESET_TIME_TIME b.now
  let b := b.endEntry
  if level = 2 then
    let c := (if b.level = 2 then b.closeLevel else b).clearL2
    match b.aon.mode with
    | .boot _ => c
    | _ => c.enter .l2
  else
    let b := b.closeLevel
    let b := if level = 1 then b.clearL1 else b.clearL0
    let b := b.setAon fun a => { a with wake := 0, retKey := none, ready := Nat.max a.ready (b.el + wait) }
    match b.aon.mode with
    | .p3 => b.powerUp
    | .p4 => b.powerUp
    | .rails _ => b
    | .retry => b
    | .tripped => b
    | _ => b.enter (.reset level)

/-- A reset of source s at an asked level: taken, or where one no shallower is in progress recorded alone (R472). -/
def Blk.reset (z : Fuse) (b : Blk) (source : Nat) (req : Option Nat) : Blk :=
  let wait := if source ≤ 2 then 0 else ms 1
  let l := b.levelOf z source req
  let l := if b.level = 3 then Nat.min l 1 else l
  match b.aon.mode with
  | .dark => b
  | .boot _ => b.applyReset source l wait
  | .run => b.applyReset source l wait
  | _ =>
    match b.inReset with
    | some k => if l < k then b.applyReset source (Nat.min l 1) wait else b.crash source l
    | none => b.applyReset source (Nat.min l 1) wait

/-- PERST_N or SYS_RST_N has been low for 1 µs. -/
def Blk.pinReset (z : Fuse) (b : Blk) (source : Nat) : Blk := b.reset z source none

/-- The watchdog's period: 10 s until boot is done, then PERIOD_MS (R473). -/
def Blk.wdogSpan (b : Blk) : Nat :=
  if b.get Reg.GLB_BOOT_STATUS_STAGE < 10 then secs 10 else ms (b.get Reg.GLB_WDOG_PERIOD_MS)

/-- A boot that has failed goes no further, where the reset that ends it is L2 and leaves it in place (log entry 101). -/
def Blk.bootOver (b : Blk) : Blk :=
  match b.aon.mode with
  | .boot _ => b.enter (.boot 0)
  | _ => b

/-- The watchdog expires; before step 10 that is a failed boot (R484). -/
def Blk.wdogExpire (z : Fuse) (b : Blk) : Blk :=
  match b.aon.wdog with
  | none => b
  | some t =>
    if b.past t b.wdogSpan = false then b
    else
      match b.aon.mode with
      | .boot _ => ((b.put Reg.GLB_BOOT_STATUS_FAIL_CODE 4).reset z 3 none).bootOver
      | _ => b.reset z 3 none

/-! ### Escalation (R474) -/

/-- The unmasked device-fatal bits that are set, as page × 32 + bit, but for WIN's FENCE_ENTERED. -/
def Blk.fatalBits (b : Blk) : List Nat :=
  (b.entriesWith Reg.ERR_STICKY_ERR).flatMap fun p =>
    ((List.range (errBits p)).filter fun n => bitAt (b.get Reg.ERR_STICKY_ERR p) n && !bitAt (b.get Reg.ERR_MASK_MASK p) n && b.classOf p n == 3 &&
      !(p == Pg.win && n == 3)).map fun n => p * 32 + n

/-- Since when each has been set is kept. -/
def Blk.settleFatal (b : Blk) : Blk :=
  let now := b.fatalBits.map fun k => (k, match b.aon.fatal.find? fun e => e.1 == k with
    | some e => e.2
    | none => b.el)
  b.setAon fun a => { a with fatal := now }

/-- FATAL_ESCALATE. -/
def Blk.escalate (z : Fuse) (b : Blk) : Blk :=
  if b.flag Reg.GLB_ESCALATE_EN && b.aon.fatal.any fun e => b.past e.2 (ms (b.get Reg.GLB_ESCALATE_HOLD_MS)) then b.reset z 5 none else b

/-! ### Thermal trip (R475) -/

/-- The hottest sensor's reading, in °C. -/
def Blk.setTj (b : Blk) (tj : Int) : Blk := b.put Reg.PWR_THERM_TJ_C (tj % 256).toNat

/-- The hottest sensor is read: reaching WARN_C sets THERM_WARN and counts the crossing (R589). -/
def Blk.readTj (b : Blk) (tj : Int) : Blk :=
  let w : Int := b.get Reg.PWR_THERM_WARN_C
  if toSigned 8 (b.get Reg.PWR_THERM_TJ_C) < w ∧ w ≤ tj then ((b.setTj tj).count Reg.PWR_WARN_CNT).err Pg.pwr 0 else b.setTj tj

/-- A sensor reads 115 °C or more: the rails are released, and source `thermal` is raised as any other (R472, R475). -/
def Blk.thermalTrip (z : Fuse) (b : Blk) (tj : Int) : Blk :=
  if tj < 115 ∨ b.aon.mode = .dark ∨ b.aon.trip = true then b
  else
    let l := Nat.min (b.levelOf z 4 none) 1
    let b := match b.inReset with
      | some k => if l < k then (b.enter .tripped).applyReset 4 l 0 else (b.crash 4 l).enter .tripped
      | none => (b.enter .tripped).applyReset 4 l 0
    ((b.releaseRails).setAon fun a => { a with trip := true, wake := 0 }).setTj tj

/-- Every sensor reads below 95 °C. -/
def Blk.thermalRelease (b : Blk) (tj : Int) : Blk :=
  if b.aon.trip = false ∨ 95 ≤ tj then b else ((b.setAon fun a => { a with trip := false }).setTj tj).powerUp

/-! ### P4 and rail loss (R499, R585) -/

/-- At P3 or P4 entry `locked` time holds over (Table 18.2), at the mean rate of the last 64 s (R528). -/
def Blk.holdOver (b : Blk) : Blk := if b.get Reg.TIME_STATUS_STATE = 2 then b.toHoldover else b

/-- Enter P4; the rails are released after this, or lost. -/
def Blk.toP4 (b : Blk) : Blk :=
  (((b.closeLevel.clearL1).put Reg.PWR_WAKE_TIME_SECONDS (b.get Reg.PWR_WAKE_TIME_SECONDS)).holdOver).enter .p4

/-- Power-up starts again at step 3: what a wake from P3 would have resumed is lost. -/
def Blk.upAgain (b : Blk) : Blk :=
  let b := if b.aon.wake = 3 then (b.closeLevel.clearL1).setAon fun a => { a with wake := 4 } else b
  b.dropRails.powerUp

/-- A rail or the reference clock is lost (R585, R582): during a power-up it starts again, else the part is in P4. -/
def Blk.lostPower (b : Blk) : Blk :=
  match b.aon.mode with
  | .dark => b
  | .p4 => b.dropRails
  | .retry => b.dropRails
  | .tripped => b.dropRails
  | .rails _ => b.upAgain
  | .reset _ => if b.aon.up then b.upAgain else b.toP4.dropRails
  | _ => b.toP4.dropRails

/-- A power-good has fallen for more than 10 µs: one whose rail is being released lets the next request drop, a requested rail's is its loss. -/
def Blk.railLoss (b : Blk) (g : Nat) : Blk :=
  match b.aon.fall with
  | some (x, low, _) => if x = g then b.dropDown low [2, 1, 0] else if b.aon.goods.contains g then b.lostPower else b
  | none => if b.aon.goods.contains g then b.lostPower else b

/-- PG of group g rises: the next request is raised, or the reset may be released 2 ms later. -/
def Blk.goodRise (b : Blk) (g : Nat) : Blk :=
  if b.aon.mode = .rails g then (b.setAon fun a => { a with goods := a.goods ++ [g] }).powerUp else b

/-- It has not risen 50 ms after its request: every request drops, and what the stacks held is lost. -/
def Blk.goodTimeout (b : Blk) : Blk :=
  match b.aon.mode with
  | .rails _ =>
    if b.past b.aon.since (ms 50) then
      (if b.aon.wake = 3 then (b.closeLevel.clearL1).setAon fun a => { a with wake := 4 } else b).releaseRails.enter .retry
    else b
  | _ => b

/-- One second later power-up starts again at step 3. -/
def Blk.powerRetry (b : Blk) : Blk :=
  if b.aon.mode = .retry ∧ b.past b.aon.since (secs 1) = true then b.powerUp else b

/-- VAON and VAON_IO have gone: all AON state is lost. -/
def Blk.vaonLoss (b : Blk) : Blk :=
  (b.clearL0.setAon fun a => { nor := a.nor, reqs := [], goods := [] }).enter .dark

/-- They are good: an L0 reset begins, and power-up with it. -/
def Blk.vaonOn (b : Blk) : Blk :=
  if b.aon.mode = .dark then (b.clearL0.setAon fun a => { nor := a.nor, reqs := [], goods := [] }).powerUp else b

/-- TCXO_IN has been silent for 10 µs (R582): the counter holds, and the part acts as on a rail loss. -/
def Blk.tcxoLoss (b : Blk) : Blk :=
  if b.held = true ∨ b.aon.mode = .dark then b
  else
    { b with held := true }.lostPower

/-- Its edges return: the count goes on, and the time state is `free`. -/
def Blk.tcxoReturn (b : Blk) : Blk :=
  if b.held = false then b
  else
    let b := if b.get Reg.TIME_STATUS_STATE = 2 then (b.count Reg.TIME_LOCK_LOSS_CNT).err Pg.time 0 else b
    { b.put Reg.TIME_STATUS_STATE 0 with held := false }

end Sys2Proof.Machine
end

