-- ==== Sys2Proof/Machine/Health.lean ====
section
/-! DEFINITION. Health: tiles retired, canaries and self-test (R545 to R552), beacons and self-fencing (R538 to R540). -/
namespace Sys2Proof.Machine

/-! ### Tiles -/

/-- A tile's state (Table 10.1). -/
def Blk.tileState (b : Blk) (t : Nat) : Nat := b.get Reg.TILE_STATE_STATE t

/-- A tile is in `run` or `gated`. -/
def Blk.serving (b : Blk) (t : Nat) : Bool := b.tileState t == Ts.run || b.tileState t == Ts.gated

/-- Tiles in a state. -/
def Blk.tilesIn (b : Blk) (st : Nat) : List Nat := (List.range 96).filter fun t => b.tileState t == st

/-- MGMT_TILES. -/
def Blk.tilesRun (b : Blk) : Nat := ((List.range 96).filter b.serving).length

/-- The tiles in `run` or `gated` are counted; falling below MIN_TILES sets TILES_LOW (R552). -/
def Blk.checkTiles (b : Blk) : Blk :=
  let low : Bool := decide (b.tilesRun < b.get Reg.MGMT_CANARY_CFG_MIN_TILES)
  if b.aon.low = low then b
  else
    let b := b.setAon fun a => { a with low }
    if low then b.err Pg.mgmt 2 else b

/-- The part's work on a tile cannot go on there: descriptors its threads serve complete INTERNAL, and works it serves for peers
move to another tile (R551, R364). -/
def Blk.leaveTile (b : Blk) (t : Nat) : Blk :=
  let (u, b) := b.pick t (b.tilesIn Ts.run)
  let move (w : Work) : Work := if w.tile ≠ t then w else if w.kind ≤ 1 ∨ w.kind = 4 then { w with fault := true } else { w with tile := u }
  { b with eng := { b.eng with works := b.eng.works.map move, halted := b.eng.halted.filter (· ≠ t) } }

/-- A tile retires, with its entry in the log (Table 18.12). Causes: `canary` 0, `slice` 1, `full` 2, `vstep` 3. -/
def Blk.retireTile (b : Blk) (t cause id : Nat) : Blk :=
  let i := b.aon.retireNext
  let b := b.puts i [(Reg.retire_log_FAIL_TIME, b.now), (Reg.retire_log_LAST_PASS, Sparse.get 0 b.aon.passAt t), (Reg.retire_log_TILE, t),
    (Reg.retire_log_CAUSE, cause), (Reg.retire_log_CANARY_ID, id), (Reg.retire_log_VCORE_MV, b.get Reg.PWR_VCORE_STATUS_VCORE_MV),
    (Reg.retire_log_TJ_C, b.get Reg.PWR_THERM_TJ_C)]
  let b := b.setAon fun a => { a with retireNext := (i + 1) % 16 }
  (((b.put Reg.TILE_STATE_STATE Ts.retired t).leaveTile t).err (Pg.tile t) 1).checkTiles

/-! ### Canaries (R549 to R551) -/

/-- The canary set has run on a tile: it is counted, with the time and temperature of the tile's last run. -/
def Blk.ranCanaries (b : Blk) (t : Nat) : Blk :=
  (b.count Reg.MGMT_CANARY_CNT).setAon fun a => { a with
    canaryAt := Sparse.set 0 a.canaryAt t b.el, tempAt := Sparse.set 0 a.tempAt t (b.get Reg.PWR_THERM_TJ_C) }

/-- A tile has run the canary set: it passed, or canary `id` failed. -/
def Blk.canary (b : Blk) (t cause : Nat) (fail : Option Nat) : Blk :=
  let b := b.ranCanaries t
  match fail with
  | none => b.setAon fun a => { a with passAt := Sparse.set 0 a.passAt t b.now }
  | some id => ((b.count Reg.MGMT_CANARY_FAIL_CNT).retireTile t cause id).err Pg.mgmt 1

/-- The outcome of one tile among failures (tile, canary). -/
def failOf (fails : List (Nat × Nat)) (t : Nat) : Option Nat := (fails.find? fun e => e.1 == t).map (·.2)

/-- CANARY_RUN: thread 15 of a `run` tile runs the set every CANARY_MS. -/
def Blk.canaryRun (b : Blk) (t : Nat) (fail : Option Nat) : Blk :=
  if b.tileState t = Ts.run ∧ b.past (Sparse.get 0 b.aon.canaryAt t) (ms (b.get Reg.MGMT_CANARY_CFG_CANARY_MS)) = true then b.canary t 0 fail else b

/-- CANARY_TEMP_TRIGGER: the temperature has moved by TEMP_BAND_C since a tile's last run. -/
def Blk.canaryTemp (b : Blk) (tj : Int) (fails : List (Nat × Nat)) : Blk :=
  let b := b.readTj tj
  let moved (t : Nat) : Bool :=
    decide (b.get Reg.MGMT_CANARY_CFG_TEMP_BAND_C ≤ (toSigned 8 (b.get Reg.PWR_THERM_TJ_C) - toSigned 8 (Sparse.get 0 b.aon.tempAt t)).natAbs)
  b.each ((b.tilesIn Ts.run).filter moved) fun b t => b.canary t 0 (failOf fails t)

/-! ### Self-test slices (R545 to R547) -/

def mgmtCmd : CmdReg := ⟨Reg.MGMT_CMD_STATUS_DONE, Reg.MGMT_CMD_STATUS_CODE, Pg.mgmt⟩

/-- Send a tile out for a slice: it drains, or a gated one goes straight to step 2. -/
def Blk.startSlice (b : Blk) (t : Nat) (cmd : Bool) : Blk :=
  let g := b.tileState t == Ts.gated
  (b.put Reg.TILE_STATE_STATE (if g then Ts.testing else Ts.draining) t).setAon fun a =>
    { a with slice := some { tile := t, gated := g, testing := g, since := b.el, cmd } }

/-- SELFTEST_SLICE: every SLICE_S seconds the next tile in turn that may be tested. -/
def Blk.sliceTimer (b : Blk) : Blk :=
  let s := b.get Reg.MGMT_SELFTEST_CFG_SLICE_S
  if s = 0 ∨ b.aon.slice.isSome = true ∨ b.past b.aon.sliceAt (secs s) = false then b
  else
    let b := b.setAon fun a => { a with sliceAt := b.el }
    match ((List.range 96).map fun i => (b.aon.sliceNext + i) % 96).find? fun t => b.serving t && !b.eng.halted.contains t with
    | none => b
    | some t => (b.startSlice t false).setAon fun a => { a with sliceNext := (t + 1) % 96 }

/-- A draining tile of a slice enters `testing` once its threads have released their queues. -/
def Blk.settleSlice (b : Blk) : Blk :=
  match b.aon.slice with
  | some s =>
    if !s.testing && b.tileState s.tile == Ts.draining && b.threadsBusy s.tile == 0 then
      (b.put Reg.TILE_STATE_STATE Ts.testing s.tile).setAon fun a => { a with slice := some { s with testing := true } }
    else b
  | none => b

/-- The slice is over. -/
def Blk.endSlice (b : Blk) : Blk := b.setAon fun a => { a with slice := none }

/-- SLICE_DRAIN_TIMEOUT: the tile returns to `run`, the slice is abandoned; the code of a `selftest_tile` so abandoned is open. -/
def Blk.sliceTimeout (b : Blk) : Blk :=
  match b.aon.slice with
  | some s =>
    if s.testing ∨ b.past s.since (ms (b.get Reg.MGMT_SELFTEST_CFG_DRAIN_MAX_MS)) = false then b
    else
      let b := ((b.put Reg.TILE_STATE_STATE Ts.run s.tile).count Reg.MGMT_SLICE_ABANDON_CNT).endSlice
      if s.cmd then (let (c, b) := b.draw 16; b.cmdEnd mgmtCmd c) else b
  | none => b

/-- A tile has failed step 2 of Table 18.11: by canary `id`, or with 0xFFFF in a test of its units, banks or Mule lines (R551, Table 18.12). -/
def Blk.testFailed (b : Blk) (t cause id : Nat) : Blk :=
  if id = 0xFFFF then b.retireTile t cause id else ((b.count Reg.MGMT_CANARY_FAIL_CNT).retireTile t cause id).err Pg.mgmt 1

/-- SLICE_TEST_COMPLETE: step 2 of Table 18.11 has run, its canary set with it; `fail`: what failed, as CANARY_ID gives it. -/
def Blk.sliceDone (b : Blk) (fail : Option Nat) : Blk :=
  match b.aon.slice with
  | some s =>
    if s.testing = false then b
    else
      let b := ((b.count Reg.MGMT_SLICE_CNT).ranCanaries s.tile).endSlice
      let b := match fail with
        | none => (b.put Reg.TILE_STATE_STATE (if s.gated then Ts.gated else Ts.run) s.tile).setAon fun a => { a with passAt := Sparse.set 0 a.passAt s.tile b.now }
        | some id => b.testFailed s.tile 1 id
      if s.cmd then b.cmdEnd mgmtCmd (if fail.isNone then ok else badRange) else b
  | none => b

/-- MGMT_CMD `selftest_tile`. -/
def Blk.selftestTile (b : Blk) (t : Nat) : Blk :=
  b.cmd mgmtCmd none fun b =>
    if 96 ≤ t ∨ b.serving t = false then b.cmdEnd mgmtCmd badState
    else if b.aon.slice.isSome then b.cmdEnd mgmtCmd busy
    else b.startSlice t true

/-! ### The full test (R548) -/

/-- Every queue is `off` or `stopped` with no descriptor in progress. -/
def Blk.queuesIdle (b : Blk) : Bool :=
  ((b.entriesWith Reg.qctx_STATE).all fun q => b.get Reg.qctx_STATE q == Qst.stopped) && !b.eng.works.any fun w => w.kind ≤ 1

/-- It has waited for the queues: the tests run, or after 10 s it finishes `busy`. -/
def Blk.settleFull (b : Blk) : Blk :=
  match b.aon.full with
  | none => b
  | some (since, tiles, stks) =>
    let ended := b.setAon fun a => { a with full := none }
    if b.queuesIdle then
      let bad := (tiles.map (·.1)).filter b.serving
      let tested := (List.range 96).filter b.serving
      let good := tested.filter fun t => !bad.contains t
      let ended := (ended.each tested fun b t => b.ranCanaries t).setAon fun a => { a with passAt := good.foldl (fun m t => Sparse.set 0 m t b.now) a.passAt }
      let b := ended.each bad fun b t => b.testFailed t 2 ((failOf tiles t).getD 0xFFFF)
      let wrong := stks.filter fun k => b.get Reg.HBM_STATE_STACK_STATE k == Stk.up
      let b := if wrong = [] then b else b.err Pg.mgmt 4
      b.cmdEnd mgmtCmd (if bad = [] ∧ wrong = [] then ok else badRange)
    else if b.past since (secs 10) then ended.cmdEnd mgmtCmd busy
    else b

/-- MGMT_CMD `selftest_full`; `tiles`, `stks`: those that would fail, a tile with what fails on it. -/
def Blk.selftestFull (b : Blk) (tiles : List (Nat × Nat)) (stks : List Nat) : Blk :=
  b.cmd mgmtCmd none fun b => (b.setAon fun a => { a with full := some (b.el, tiles, stks) }).settleFull

/-! ### Beacons (R538 to R540) -/

/-- The part becomes FENCED on its own account (R540). -/
def Blk.selfFence (b : Blk) : Blk := (b.enterFenced).err Pg.mgmt 0

/-- A beacon is missed. -/
def Blk.beaconMiss (b : Blk) : Blk :=
  let b := (b.count Reg.MGMT_BEACON_MISS_CNT).setAon fun a => { a with misses := a.misses + 1 }
  let n := b.get Reg.MGMT_BEACON_CFG_SELF_FENCE
  if n ≠ 0 ∧ n ≤ b.aon.misses ∧ b.fenced = false then b.selfFence else b

/-- The outcome of the beacon that is out. -/
def Blk.beaconResult (b : Blk) (status : Nat) : Blk :=
  let b := b.setAon fun a => { a with beaconOut := false }
  if status = St.ok then b.setAon fun a => { a with misses := 0 } else b.beaconMiss

/-- The beacon's line (Table 18.7). -/
def Blk.beaconLine (b : Blk) : Line :=
  let flags := b2n ((b.entriesWith Reg.ERR_STICKY_ERR).any b.fatalHeld) + 2 * b2n (b.timeState == Tm.locked) +
    4 * b2n (b.get Reg.PEAT_STATE_STATE != Ps.ok)
  let n := b.now + b.node <<< 64 + b.restart <<< 80 + ((b.aon.beacons + 1) % 2 ^ 32) <<< 96 + flags <<< 128 +
    b.tilesRun <<< 136 + (b.tilesIn Ts.retired).length <<< 144
  .ofNat 512 n

/-- BEACON_SEND: the counter has come to a PERIOD_US boundary. -/
def Blk.beaconSend (b : Blk) : Blk :=
  let p := b.get Reg.MGMT_BEACON_CFG_PERIOD_US * 1000
  if b.now / p ≤ b.aon.beaconAt / p then b
  else
    let b := b.setAon fun a => { a with beaconAt := b.now }
    if b.flag Reg.MGMT_BEACON_CFG_EN = false ∨ b.restart = 0 ∨ b.fenced = true ∨ b.aon.beaconOut = true then b
    else
      let addr := b.get Reg.MGMT_BEACON_ADDR * 64
      let line := b.beaconLine
      match b.takeTag (addr / 2 ^ 47) with
      | (none, b) => b.beaconMiss
      | (some t, b) =>
        let b := b.sendOut { fr := b.reqFrame Opc.wrLine addr 0 false 0 line, agent := .beacon (b.aon.beacons + 1), sent := b.el, src := 34 } t
        ((b.count Reg.MGMT_BEACON_CNT).setAon fun a => { a with beaconOut := true, beacons := a.beacons + 1 }).emit (.beacon line)

/-- MGMT_CMD `fence`. -/
def Blk.mgmtFence (b : Blk) : Blk :=
  b.cmd mgmtCmd none fun b => (if b.fenced then b else b.enterFenced).cmdEnd mgmtCmd ok

end Sys2Proof.Machine
end

