-- ==== Sys2Proof/Machine/Power.lean ====
section
/-! DEFINITION. Power states: gating (R492, R493), VCORE and the power cap (R495, R496, R550), entry to P3 and P4 and wake
(R497 to R500, R508), temperature warnings (R589). -/
namespace Sys2Proof.Machine

/-! ### Gating -/

/-- A tile whose threads hold work, now. -/
def Blk.tileBusy (b : Blk) (t : Nat) : Bool := b.threadsBusy t != 0 || b.eng.works.any fun w => w.tile == t && w.kind != 3

/-- Tiles that hold work now are noted with the present moment. -/
def Blk.settleIdle (b : Blk) : Blk :=
  let busy := ((b.eng.bound.map (·.tile)) ++ ((b.eng.works.filter fun w => w.kind != 3).map (·.tile)))
  b.setAon fun a => { a with idle := busy.foldl (fun m t => Sparse.set 0 m t b.el) a.idle }

/-- A tile leaves `gated`. -/
def Blk.wakeTile (b : Blk) (t : Nat) : Blk :=
  (b.put Reg.TILE_STATE_STATE Ts.run t).setAon fun a => { a with idle := Sparse.set 0 a.idle t b.el, canaryAt := Sparse.set 0 a.canaryAt t b.el }

/-- GATE_IDLE_TIMEOUT: in P1 and P2 a `run` tile that has held no work for GATE_IDLE_US is gated. -/
def Blk.gateIdle (b : Blk) (t : Nat) : Blk :=
  if b.tileState t = Ts.run ∧ b.get Reg.PWR_CFG_RUN_STATE ≠ 0 ∧ b.tileBusy t = false ∧ b.eng.halted.contains t = false ∧
      b.past (Sparse.get 0 b.aon.idle t) (us (b.get Reg.PWR_CFG_GATE_IDLE_US)) = true then
    (b.put Reg.TILE_STATE_STATE Ts.gated t).count Reg.PWR_GATE_CNT
  else b

/-- A tile that is to stay gated: forced (R493) or gated by the cap (R496). -/
def Blk.heldDown (b : Blk) (t : Nat) : Bool := b.forced t || b.aon.capped.contains t

/-- Tiles to be held down drain, and enter `gated` once their threads are free; a tile out for a slice waits for its end. -/
def Blk.settleForce (b : Blk) : Blk :=
  let out (t : Nat) : Bool := match b.aon.slice with
    | some s => s.tile == t
    | none => false
  b.each ((List.range 96).filter fun t => b.heldDown t && !out t) fun b t =>
    let b := if b.tileState t = Ts.run ∧ b.eng.halted.contains t = false then b.put Reg.TILE_STATE_STATE Ts.draining t else b
    if b.tileState t = Ts.draining ∧ b.threadsBusy t = 0 then b.put Reg.TILE_STATE_STATE Ts.gated t else b

/-- Tiles no longer held down come back. -/
def Blk.release (b : Blk) (l : List Nat) : Blk :=
  b.each (l.filter fun t => !b.heldDown t && (b.tileState t == Ts.gated || b.tileState t == Ts.draining)) fun b t => b.wakeTile t

/-- TILE_FORCE_WRITE. -/
def Blk.tileForce (b : Blk) (lo hi : Nat) : Blk :=
  let was := (List.range 96).filter b.forced
  let b := (b.put Reg.PWR_TILE_FORCE_LO_MASK lo).put Reg.PWR_TILE_FORCE_HI_MASK hi
  (b.release was).settleForce

/-- PWR_CFG.RUN_STATE: in P0 no tile stays gated for idleness; in P2 ports that rest are powered down (R494). -/
def Blk.runState (b : Blk) (st : Nat) : Blk :=
  if st = 3 then b
  else
    let b := (b.put Reg.PWR_CFG_RUN_STATE st).each (List.range 24) Blk.power
    if st = 0 then b.release (b.tilesIn Ts.gated) else b

/-! ### VCORE (R495, R550) -/

/-- Command the next step toward TARGET_MV, where none is under way. -/
def Blk.stepVcore (b : Blk) : Blk :=
  let v := b.get Reg.PWR_VCORE_STATUS_VCORE_MV
  let t := b.get Reg.PWR_VCORE_TARGET_MV
  let s := b.get Reg.PWR_VCORE_STEP_MV
  if b.aon.avs.isSome ∨ v = t then b
  else
    let n := if v < t then Nat.min t (v + s) else Nat.max t (v - s)
    (b.setAon fun a => { a with avs := some (n, b.el), avsFrom := v }).emit (.avs n)

/-- VCORE_TARGET_WRITE: fields out of their range are ignored. -/
def Blk.vcoreWrite (b : Blk) (target step vmin : Nat) : Blk :=
  let b := if 600 ≤ target ∧ target ≤ 850 then b.put Reg.PWR_VCORE_TARGET_MV target else b
  let b := if 5 ≤ step ∧ step ≤ 25 then b.put Reg.PWR_VCORE_STEP_MV step else b
  let b := if 600 ≤ vmin ∧ vmin ≤ b.get Reg.PWR_VCORE_TARGET_MV then b.put Reg.PWR_VCORE_VMIN_MV vmin else b
  b.stepVcore

/-- VCORE_STEP_SETTLED: the canaries run on every `run` tile, and two or more retirements take VCORE back (R550). -/
def Blk.vcoreSettled (b : Blk) (fails : List (Nat × Nat)) : Blk :=
  match b.aon.avs with
  | none => b
  | some (mv, _) =>
    let from_ := b.aon.avsFrom
    let b := (b.put Reg.PWR_VCORE_STATUS_VCORE_MV mv).setAon fun a => { a with avs := none }
    let ran := b.tilesIn Ts.run
    let b := b.each ran fun b t => b.canary t 3 (failOf fails t)
    if 2 ≤ (ran.filter fun t => (failOf fails t).isSome).length then
      let b := (b.put Reg.PWR_VCORE_VMIN_MV from_).err Pg.mgmt 3
      let b := if b.get Reg.PWR_VCORE_TARGET_MV < from_ ∨ from_ < b.get Reg.PWR_VCORE_TARGET_MV then b.put Reg.PWR_VCORE_TARGET_MV from_ else b
      b.stepVcore
    else b.stepVcore

/-- AVSBUS_TIMEOUT: a command was unanswered for 1 ms; VCORE stays where it was. -/
def Blk.avsTimeout (b : Blk) : Blk :=
  match b.aon.avs with
  | some (_, since) => if b.past since (ms 1) then (b.setAon fun a => { a with avs := none }).err Pg.pwr 2 else b
  | none => b

/-! ### The power cap (R496) -/

/-- POWER_CAP_SAMPLE: the rail's current, read every 100 µs. -/
def Blk.capSample (b : Blk) (amps : Nat) : Blk :=
  let cap := b.get Reg.PWR_CAP_CORE_CAP_W
  if cap = 0 ∨ b.past b.aon.capAt (us 100) = false then b
  else
    let b := (b.put Reg.PWR_VCORE_STATUS_CURRENT_A amps).setAon fun a => { a with capAt := b.el }
    let mw := b.get Reg.PWR_VCORE_STATUS_VCORE_MV * b.get Reg.PWR_VCORE_STATUS_CURRENT_A
    let t := b.get Reg.PWR_VCORE_TARGET_MV
    let vmin := b.get Reg.PWR_VCORE_VMIN_MV
    if cap * 1000 < mw then
      if vmin < t then
        let b := b.setAon fun a => { a with capMoves := (false, t) :: a.capMoves }
        ((b.put Reg.PWR_VCORE_TARGET_MV (Nat.max vmin (t - b.get Reg.PWR_VCORE_STEP_MV))).count Reg.PWR_CAP_ACT_CNT).stepVcore
      else
        match b.tilesIn Ts.run with
        | [] => b.err Pg.pwr 1
        | l =>
          let (x, b) := b.pick 0 l
          ((b.setAon fun a => { a with capped := a.capped ++ [x], capMoves := (true, x) :: a.capMoves }).err Pg.pwr 1).settleForce
    else if mw < (cap - b.get Reg.PWR_CAP_HYST_W) * 1000 then
      match b.aon.capMoves with
      | [] => b
      | (true, x) :: l => (b.setAon fun a => { a with capped := a.capped.filter (· ≠ x), capMoves := l }).release [x]
      | (false, v) :: l => ((b.put Reg.PWR_VCORE_TARGET_MV v).setAon fun a => { a with capMoves := l }).stepVcore
    else b

/-- THERM_WARN: the hottest sensor reaches WARN_C. -/
def Blk.thermWarn (b : Blk) (tj : Int) : Blk := b.readTj tj

/-! ### Entry to P3 and P4 (R497, R499, Table 16.12) -/

/-- A command of some page is in progress. -/
def Blk.anyBusy (b : Blk) : Bool := (b.entriesWith Reg.PAGE_STATUS_BUSY).any fun p => p != Pg.pwr

/-- PWR_CMD `p3_enter` or `p4_enter`: step 1, every `ready` queue stops fetching. -/
def Blk.enterLow (b : Blk) (target : Nat) : Blk :=
  b.cmd pwrCmd none fun b =>
    if b.aon.mode = .l2 ∨ b.anyBusy = true then b.cmdEnd pwrCmd busy
    else if b.aon.mode ≠ .run ∨ b.recovery = true ∨ b.level = 3 then b.cmdEnd pwrCmd badState
    else
      let b := if b.level = 2 ∨ target = 4 then b.closeLevel else b
      let qs := (b.entriesWith Reg.qctx_STATE).filter fun q => b.get Reg.qctx_STATE q == Qst.ready
      let b := b.each qs fun b q => b.put Reg.qctx_STATE Qst.stopped q
      b.setAon fun a => { a with entry := some { target, since := b.el, queues := qs } }

/-- A descriptor that holds up step 2: not an armed SYNC_WAIT. -/
def Work.holdsUp (w : Work) : Bool := w.kind ≤ 2 && !(w.watch.isSome && w.phase == Phase.running && w.out.isEmpty)

/-- Change the entry. -/
def Blk.setEntry (b : Blk) (f : Entry → Entry) : Blk := b.setAon fun a => { a with entry := a.entry.map f }

/-- Step 3 begins: every directory entry is recalled, with tenure honoured. -/
def Blk.recallAll (b : Blk) : Blk := (b.setDrain { win := 4096, start := b.el, len := none, recalls := b.entriesWith Reg.dir_V }).settleHome

/-- Step 4 ends once fetches and write-downs have finished (R277): open rows are closed under R290, and when their programs have ended a checkpoint
is written. -/
def Blk.sealPeat (b : Blk) (next : Blk → Blk) : Blk :=
  if b.tier.fetches ≠ [] ∨ b.tier.downs ≠ [] then b
  else
    match (b.peat.open_ ++ b.peat.closing).filter fun o => o.used != [] && b.unfilled o != [] with
    | [] => if b.peat.ops ≠ [] ∨ b.peat.closing ≠ [] ∨ b.peat.fmt.isSome = true then b else next (b.checkpoint []).2
    | rows => b.each rows fun b o => b.closeRow o

/-- Step 5: links go down, and the PCIe link as R460, but that the queues keep the state they return to after P3 (R498). -/
def Blk.dropLinks (b : Blk) : Blk :=
  let b := b.each ((List.range 24).filter b.up) fun b p => b.linkDown p
  if b.linkUp then
    let b := { b with pcie := { nextTlp := b.pcie.nextTlp } }
    ((b.put Reg.PCIE_LINK_SPEED 0).put Reg.PCIE_LINK_WIDTH 0 |>.count Reg.PCIE_LINK_DOWN_CNT).err Pg.pcie 4
  else b

/-- Steps 6 and 7 of P3: the retention key is drawn, requests in flight are gone as their links are, from their windows' counts too, the stacks refresh themselves,
CORE and IO are released, outputs are high-impedance. -/
def Blk.toP3 (b : Blk) : Blk :=
  let (k, b) := b.draw (2 ^ 256)
  let b := (b.clearSpace .t_dir).clearSpace .t_pred
  let quiet (s : Stream) : Stream := { s with held := [] }
  let b := { b with
    sw := { nextId := b.sw.nextId, streams := b.sw.streams.map quiet }
    home := { nextId := b.home.nextId, nextPlace := b.home.nextPlace, nextTag := b.home.nextTag, drains := b.home.drains.filter (·.win ≠ 4096) } }
  let b := b.each (b.entriesWith Reg.window_INFLIGHT) fun b w => b.put Reg.window_INFLIGHT 0 w
  let b := ((b.put Reg.GLB_PIN_EN_GROUPS 0).put Reg.FEN_OCC_ENTRIES 0).each (List.range 24) Blk.darkPort
  let b := (b.setAon fun a => { a with retKey := some k, wdog := none, slice := none, full := none, avs := none }).dropDown 1 [2, 1, 0]
  (b.cmdEnd pwrCmd ok).holdOver.enter .p3

/-- P3_ENTRY_ADVANCE: the present step has finished, if it has. -/
def Blk.entryAdvance (b : Blk) : Blk :=
  match b.aon.entry with
  | none => b
  | some e =>
    let next := b.setEntry fun e => { e with step := e.step + 1 }
    if e.step = 2 then (if b.eng.works.any Work.holdsUp then b else next.recallAll)
    else if e.step = 3 then
      if b.entriesWith Reg.dir_V = [] ∧ b.home.reqs = [] then { next with home := { next.home with drains := next.home.drains.filter (·.win ≠ 4096) } }
      else b.recallAll
    else if e.step = 4 then b.sealPeat fun b => b.setEntry fun e => { e with step := e.step + 1 }
    else if e.step = 5 then
      let b := next.dropLinks
      if e.target = 4 then (b.setAon fun a => { a with entry := none }).toP4.releaseRails else b
    else if e.step = 6 then next
    else b.toP3

/-- P3_ENTRY_TIMEOUT: steps 2 to 4 took longer than 10 s. -/
def Blk.entryTimeout (b : Blk) : Blk :=
  match b.aon.entry with
  | none => b
  | some e =>
    if 4 < e.step ∨ b.past e.since (secs 10) = false then b
    else
      let b := b.each e.queues fun b q =>
        if b.get Reg.qctx_STATE q = Qst.stopped then (b.put Reg.qctx_STATE Qst.ready q).queueWaits q else b
      b.endEntry.err Pg.pwr 3

/-- WAKE: WAKE_N is low, or the counter has come to PWR_WAKE_TIME (R498, R499). -/
def Blk.wakeUp (b : Blk) (pin : Bool) : Blk :=
  let w := b.get Reg.PWR_WAKE_TIME_SECONDS
  let due := pin || (w != 0 && decide (w * 10 ^ 9 ≤ b.now))
  if due = false then b
  else
    match b.aon.mode with
    | .p3 => (b.setAon fun a => { a with wake := 3 }).powerUp
    | .p4 => (b.setAon fun a => { a with wake := 4 }).powerUp
    | _ => b

end Sys2Proof.Machine
end

