-- ==== Sys2Proof/Machine/Sec.lean ====
section
/-! DEFINITION. Security (R502 to R513): lifecycle, keys, CRYPT `load`, attestation; debug levels and their commands (R514 to R520)
but for `poke`. -/
namespace Sys2Proof.Machine

/-- The die: the fuses, which only gain bits, and the rest of the part. -/
structure Die where
  fuse : Fuse := {}
  blk : Blk := {}
  deriving DecidableEq, Repr

/-- Change all but the fuses. -/
def Die.on (d : Die) (f : Fuse → Blk → Blk) : Die := { d with blk := f d.fuse d.blk }

/-! ### Lifecycle and keys -/

/-- The lifecycle: `manufacture` 0, `provisioned` 1, `deployed` 2, `decommissioned` 3 (R503). -/
def Fuse.life (z : Fuse) : Nat :=
  if z.lc = 0 then 0 else if z.lc = 1 then 1 else if z.lc = 3 then 2 else 3

/-- The bytes of an ASCII label. -/
def label (s : String) : List Nat := s.toList.map Char.toNat

/-- DEVICE_SECRET's and OWNER_SEED's bytes. -/
def secretBytes : List Nat := natBytes 32 Config.deviceSecret
def Fuse.seedBytes (z : Fuse) : List Nat := natBytes 32 z.seed.toNat

/-- A KEK (Table 17.2). -/
def Fuse.kek (z : Fuse) (gen tenant : Nat) : List Nat := hmac z.seedBytes (label "GNK-KEK" ++ natBytes 4 gen ++ natBytes 2 tenant)

/-- The system key: K1 in the low 256 bits. -/
def Fuse.systemKey (z : Fuse) : Nat :=
  let k (i : Nat) : List Nat := hmac secretBytes (label "GNK-SYS" ++ z.seedBytes ++ [i])
  ofNatBytes (k 0 ++ k 1)

/-- The attestation seed, and the device's public key of 60 bytes. -/
def attestSeed : Nat := ofNatBytes (hmac secretBytes (label "GNK-ATT"))
def attestPub : Nat := ofNatBytes (hssPublic attestSeed)

/-- CRYPT `load` (R506, R239). -/
def Blk.cryptLoad (z : Fuse) (b : Blk) (slot : Nat) : Blk :=
  b.cmd cryptCmd none fun b =>
    let wrapped := natBytes 72 (b.get Reg.SEC_KEY_STAGE_WRAPPED)
    let key := keyUnwrap (z.kek (b.get Reg.SEC_KEY_GEN_GEN) slot) wrapped 8
    let b := b.put Reg.SEC_KEY_STAGE_WRAPPED 0
    let deny := ((b.count Reg.SEC_LOAD_DENIED_CNT).err Pg.sec 0).cmdEnd cryptCmd denied
    if z.life ≠ 2 ∨ b.recovery = true ∨ slot = 0 ∨ b.flag Reg.DBG_STATE_TENANT_DATA = true then deny
    else
      match key with
      | none => deny
      | some k =>
        if k.take 32 = k.drop 32 then deny
        else if b.loaded slot then b.cmdEnd cryptCmd badState
        else (b.loadKey slot (ofNatBytes k)).cmdEnd cryptCmd ok

/-! ### SEC commands (R503 to R505, R521) -/

def secCmd : CmdReg := ⟨Reg.SEC_CMD_STATUS_DONE, Reg.SEC_CMD_STATUS_CODE, Pg.sec⟩
def dbgCmd : CmdReg := ⟨Reg.DBG_CMD_STATUS_DONE, Reg.DBG_CMD_STATUS_CODE, Pg.dbg⟩

/-- A reset, an L3 one among them, or an entry to P3 or P4 is in progress (R521; log entry 103). -/
def Blk.unsettled (b : Blk) : Bool := b.aon.mode == .l2 || b.aon.entry.isSome || b.eng.tenantRst.isSome

/-- Blow bits of the fuses; `stuck`: bits that do not blow. -/
def Fuse.blowLc (z : Fuse) (n : BitVec 3) : Fuse := { z with lc := z.lc ||| n }
def Fuse.blowOwner (z : Fuse) (seed key stuckSeed stuckKey : BitVec 256) : Fuse :=
  { z with seed := z.seed ||| (seed &&& ~~~stuckSeed), dbgKey := z.dbgKey ||| (key &&& ~~~stuckKey) }

/-- A lifecycle transition ends in a reset at L1. -/
def Die.transition (d : Die) : Die := d.on fun _ b => (b.cmdEnd secCmd ok).applyReset 6 1 (ms 1)

/-- Run a SEC command on the die. -/
def Die.sec (d : Die) (run : Die → Die) : Die :=
  if d.blk.unsettled = true ∨ d.blk.get secCmd.done = 0 then d.on fun _ b => b.cmd secCmd none fun b => b.cmdEnd secCmd busy
  else run (d.on fun _ b => b.cmdStart secCmd)

/-- A SEC command ends with a code. -/
def Die.secEnd (d : Die) (code : Nat) : Die := d.on fun _ b => b.cmdEnd secCmd code

/-- SEC_CMD `advance`. -/
def Die.advance (d : Die) : Die :=
  d.sec fun d =>
    if d.fuse.life ≠ 0 ∨ d.blk.level ≠ 3 then d.secEnd badState
    else { d with fuse := d.fuse.blowLc 1 }.transition

/-- SEC_CMD `set_owner` (R504). No level is open in DECOMMISSIONED (Table 17.7): one that is, where the fuses fail, closes. -/
def Die.setOwner (d : Die) (stuckSeed stuckKey : BitVec 256) : Die :=
  d.sec fun d =>
    if d.fuse.life ≠ 1 then d.secEnd badState
    else
      let seed : BitVec 256 := .ofNat 256 (d.blk.get Reg.SEC_OWNER_STAGE_SEED)
      let key : BitVec 256 := .ofNat 256 (d.blk.get Reg.SEC_DBGKEY_STAGE_HASH)
      let z := d.fuse.blowOwner seed key stuckSeed stuckKey
      let d := { d with fuse := z }.on fun _ b => (b.put Reg.SEC_OWNER_STAGE_SEED 0).put Reg.SEC_DBGKEY_STAGE_HASH 0
      if z.seed = seed ∧ z.dbgKey = key then { d with fuse := z.blowLc 3 }.transition
      else { d with fuse := z.blowLc 7 }.on fun _ b => ((b.cmdEnd secCmd 9).err Pg.sec 2).closeLevel

/-- SEC_CMD `decommission` (R505). -/
def Die.decommission (d : Die) (key : Nat) : Die :=
  d.sec fun d =>
    if key ≠ 0xD5 then d.secEnd denied
    else if d.fuse.life ≠ 1 ∧ d.fuse.life ≠ 2 then d.secEnd badState
    else
      let d := d.on fun _ b => b.dropKeys
      { d with fuse := (d.fuse.blowOwner (BitVec.allOnes 256) 0 0 0).blowLc 7 }.transition

/-! ### One-time keys (R511, R512) -/

/-- A byte of the boot store; erased bytes read 0xFF. -/
def Blk.norByte (b : Blk) (a : Nat) : Nat := (Sparse.get (0xFF : Byte) b.aon.nor a).toNat

/-- `n` bytes of the boot store. -/
def Blk.norBytes (b : Blk) (a n : Nat) : List Nat := (List.range n).map fun i => b.norByte (a + i)

/-- Write bytes to the boot store. -/
def Blk.norWrite (b : Blk) (a : Nat) (l : List Nat) : Blk :=
  let nor := (l.zip (List.range l.length)).foldl (fun m x => Sparse.set (0xFF : Byte) m (a + x.2) (.ofNat 8 x.1)) b.aon.nor
  b.setAon fun x => { x with nor }

/-- Erase `n` bytes. -/
def Blk.norErase (b : Blk) (a n : Nat) : Blk :=
  b.setAon fun x => { x with nor := x.nor.filter fun e => !(decide (a ≤ e.1) && decide (e.1 < a + n)) }

/-- The CRC-32C of bytes given as numbers. -/
def crcOf (l : List Nat) : Nat := crc32c (l.map (BitVec.ofNat 8))

/-- NEXT of the counter record at a position; none where it is erased or fails its CRC. -/
def Blk.otsRecord (b : Blk) (pos : Nat) : Option Nat :=
  let r := b.norBytes (0x3200000 + 16 * pos) 16
  if ofNatBytes (slice_ r 8 4) = crcOf (r.take 8) then some (ofNatBytes (r.take 8)) else none

/-- Positions whose record is not wholly erased. -/
def Blk.otsPlaces (b : Blk) : List Nat :=
  ((b.aon.nor.filter fun e => decide (0x3200000 ≤ e.1) && decide (e.1 < 0x3A00000)).map fun e => (e.1 - 0x3200000) / 16).eraseDups

/-- The highest NEXT among valid records, with its position. -/
def Blk.otsBest (b : Blk) : Option (Nat × Nat) :=
  b.otsPlaces.foldl (fun o p => match b.otsRecord p, o with
    | none, o => o
    | some n, none => some (n, p)
    | some n, some (m, q) => if m < n then some (n, p) else some (m, q)) none

/-- SEC_OTS.NEXT: the state of R511. -/
def Blk.otsNext (b : Blk) : Nat := (b.otsBest.map (·.1)).getD 0

/-- Reserve leaves up to q + 1,024 by a record after the newest one; its sector is erased before its first record. -/
def Blk.otsReserve (b : Blk) (q : Nat) : Blk :=
  let pos := match b.otsBest with
    | some (_, p) => (p + 1) % (2048 * 256)
    | none => 0
  let b := if pos % 256 = 0 then b.norErase (0x3200000 + 16 * pos) 4096 else b
  let n := natBytes 8 (q + 1024)
  b.norWrite (0x3200000 + 16 * pos) (n ++ natBytes 4 (crcOf n) ++ [0, 0, 0, 0])

/-! ### Attestation (R513) -/

/-- The body of a report (Table 17.4). -/
def Blk.reportBody (z : Fuse) (b : Blk) : List Nat :=
  let flags := b2n b.recovery + 2 * b.get Reg.DBG_STATE_TENANT_DATA + 4 * b2n (bitAt (b.get Reg.ERR_STICKY_ERR Pg.glb) 0) + 8 * b2n b.fenced
  natBytes 4 0x4B484152 ++ [z.life, b.level, flags, b.get Reg.PWR_CFG_RUN_STATE] ++ natBytes 8 z.serial.toNat ++
  natBytes 32 (b.get Reg.SEC_ATTEST_NONCE_NONCE) ++ natBytes 8 b.now ++ natBytes 8 (b.get Reg.GLB_FW_VERSION_VERSION) ++
  [b.get Reg.GLB_SVN_RUN_SVN, z.svn] ++ natBytes 2 b.restart ++ natBytes 2 (b.get Reg.DBG_STATE_SESSION) ++
  natBytes 2 (b.get Reg.CRYPT_LOADED_COUNT) ++ natBytes 8 (if b.recovery then 0 else b.aon.cfgSeq) ++ natBytes 32 b.aon.image ++
  natBytes 32 b.aon.cfgHash ++ (if z.life < 2 then List.replicate 32 0 else sha256 (label "GNK-OWNER" ++ z.seedBytes)) ++ List.replicate 80 0

/-- The report: body, signature, zeros, as entries of 256 bytes. -/
def Blk.putReport (b : Blk) (bytes : List Nat) : Blk :=
  b.each (List.range 16) fun b i => b.put Reg.report_DATA (ofNatBytes (slice_ bytes (256 * i) 256)) i

/-- SEC_CMD `attest`. -/
def Blk.attest (z : Fuse) (b : Blk) : Blk :=
  if b.unsettled then b.cmd secCmd none fun b => b.cmdEnd secCmd busy
  else
    b.cmd secCmd none fun b =>
      let q := b.aon.leaf.getD b.otsNext
      if b.otsNext ≤ q ∧ 2 ^ 40 < q + 1024 then (b.cmdEnd secCmd badState).err Pg.sec 1
      else
        let b := if b.otsNext ≤ q then b.otsReserve q else b
        let b := b.setAon fun a => { a with leaf := some (q + 1) }
        let body := b.reportBody z
        ((b.putReport (body ++ hssSign attestSeed q body)).count Reg.SEC_ATTEST_CNT).cmdEnd secCmd ok

/-- SEC_FM is writable once after each L1 or L0. -/
def Blk.secFm (b : Blk) (en : Bool) (node : Nat) : Blk :=
  if b.aon.fmWritten then b
  else ((b.putB Reg.SEC_FM_EN en).put Reg.SEC_FM_NODE node).setAon fun a => { a with fmWritten := true }

/-! ### Debug (R514 to R517) -/

/-- Run a DBG command (R521). -/
def Blk.dbg (b : Blk) (run : Blk → Blk) : Blk :=
  if b.unsettled then b.cmd dbgCmd none fun b => b.cmdEnd dbgCmd busy else b.cmd dbgCmd none run

/-- DBG_CMD `challenge`. -/
def Blk.dbgChallenge (b : Blk) : Blk :=
  b.dbg fun b =>
    let (n, b) := b.draw (2 ^ 256)
    ((b.put Reg.DBG_CHALLENGE_NONCE n).setAon fun a => { a with chal := some b.el }).cmdEnd dbgCmd ok

/-- The challenge is gone. -/
def Blk.endChallenge (b : Blk) : Blk := (b.put Reg.DBG_CHALLENGE_NONCE 0).setAon fun a => { a with chal := none }

/-- A challenge is 60 s old. -/
def Blk.challengeOld (b : Blk) : Bool :=
  match b.aon.chal with
  | some t => b.past t (secs 60)
  | none => false

/-- CHALLENGE_EXPIRE. -/
def Blk.challengeExpire (b : Blk) : Blk := if b.challengeOld then b.endChallenge else b

/-- The 3,732 bytes of the token area. -/
def Blk.token (b : Blk) : List Nat := ((List.range 15).flatMap fun i => natBytes 256 (b.get Reg.token_area_DATA i)).take 3732

/-- Byte ranges of a token that must be zero (Table 17.6); PUBKEY is zero outside DEPLOYED. -/
def tokenZero (t : List Nat) (deployed : Bool) : Bool :=
  let zero (k n : Nat) : Bool := (slice_ t k n).all (· == 0)
  zero 6 2 && zero 52 12 && zero 124 4 && (deployed || zero 64 60)

/-- The level, the scope and the form of a token are as Table 17.6 gives. -/
def tokenForm (t : List Nat) (deployed : Bool) : Bool :=
  let level := nth 0 t 4
  let td := nth 0 t 5
  let life := ofNatBytes (slice_ t 48 4)
  ofNatBytes (t.take 4) == 0x4B484454 && tokenZero t deployed && 1 ≤ level && level ≤ 3 && td ≤ 1 && (td == 0 || level == 2) &&
  1 ≤ life && life ≤ 86400

/-- The lifecycle and the path allow a level (Table 17.7, Table 17.5, R486). -/
def Blk.levelAllowed (z : Fuse) (b : Blk) (level : Nat) (path : Path) : Bool :=
  z.life != 3 && (level != 3 || (z.life == 0 && path == .jtag)) && !(b.recovery && level != 1)

/-- The code of an `unlock` (R515). -/
def Blk.unlockCode (z : Fuse) (b : Blk) (path : Path) : Nat :=
  let t := b.token
  if b.aon.chal = none ∨ b.challengeOld = true then 0xE
  else if tokenForm t (z.life == 2) = false then badRange
  else if ofNatBytes (slice_ t 8 8) ≠ z.serial.toNat ∨ ofNatBytes (slice_ t 16 32) ≠ b.get Reg.DBG_CHALLENGE_NONCE then denied
  else if b.levelAllowed z (nth 0 t 4) path = false then denied
  else if z.life = 2 ∧ (z.dbgKey = 0 ∨ ofNatBytes (sha256 (slice_ t 64 60)) ≠ z.dbgKey.toNat) then denied
  else if hssVerify (if z.life = 2 then slice_ t 64 60 else natBytes 60 Config.debugKey) (t.take 128) (t.drop 128) then ok
  else 0xB

/-- The token's level opens. -/
def Blk.openLevel (b : Blk) (t : List Nat) : Blk :=
  let level := nth 0 t 4
  let td := nth 0 t 5
  let b := if td = 1 then (b.each (b.entriesWith Reg.slot_LOADED) fun b s => if s = 0 then b else b.dropKey s).err Pg.dbg 2 else b
  let b := if level = 3 then (b.dropKeys).setAon fun a => { a with retKey := none } else b
  let b := b.puts 0 [(Reg.DBG_STATE_LEVEL, level), (Reg.DBG_STATE_TENANT_DATA, td),
    (Reg.DBG_STATE_SESSION, b.get Reg.DBG_STATE_SESSION + 1), (Reg.DBG_EXPIRY_TIME, b.now + ofNatBytes (slice_ t 48 4) * 10 ^ 9)]
  ((b.setAon fun a => { a with expired := false }).count Reg.DBG_UNLOCK_CNT).err Pg.dbg 0

/-- DBG_CMD `unlock`. -/
def Blk.dbgUnlock (z : Fuse) (b : Blk) (path : Path) : Blk :=
  b.dbg fun b =>
    let code := b.unlockCode z path
    let b := b.endChallenge
    let b := if code = ok then b.openLevel b.token else (b.count Reg.DBG_DENY_CNT).err Pg.dbg 1
    (b.logDebug 2 code b.level 0).cmdEnd dbgCmd code

/-- DBG_CMD `lock`. -/
def Blk.dbgLock (b : Blk) : Blk :=
  b.dbg fun b =>
    let b := b.logDebug 3 ok b.level 0
    b.resumeAll.shutLevel.cmdEnd dbgCmd ok

/-- A command of the open level runs: a SYNC_DBG_CMD or a DBG_RST_CMD `tenant` that waits. -/
def Blk.levelRuns (b : Blk) : Bool := b.get syncCmd.done == 0 || (b.eng.rstDbg && b.eng.tenantRst.isSome)

/-- DEBUG_EXPIRY: a level one of whose commands runs closes once that has finished (R521). -/
def Blk.debugExpiry (b : Blk) : Blk :=
  if b.level = 0 ∨ b.now < b.get Reg.DBG_EXPIRY_TIME then b
  else if b.levelRuns then b.setAon fun a => { a with expired := true }
  else b.closeLevel

/-- That command has finished. -/
def Blk.settleExpiry (b : Blk) : Blk := if b.aon.expired = true ∧ b.levelRuns = false then b.closeLevel else b

/-- A D2 command on a tile ends: logged. -/
def Blk.dbgEnd (b : Blk) (op code tile : Nat) : Blk := (b.logDebug op code b.level tile).cmdEnd dbgCmd code

/-- DBG_CMD `halt` (R517). -/
def Blk.dbgHalt (b : Blk) (t : Nat) : Blk :=
  b.dbg fun b =>
    if b.level ≠ 2 then b.dbgEnd 4 denied t
    else if 96 ≤ t ∨ b.tileState t ≠ Ts.run then b.dbgEnd 4 badState t
    else { b.put Reg.TILE_STATE_STATE Ts.testing t with eng := { b.eng with halted := b.eng.halted ++ [t] } }.dbgEnd 4 ok t

/-- DBG_CMD `resume`. -/
def Blk.dbgResume (b : Blk) (t : Nat) : Blk :=
  b.dbg fun b =>
    if b.level ≠ 2 then b.dbgEnd 5 denied t
    else if b.eng.halted.contains t = false then b.dbgEnd 5 badState t
    else { b.put Reg.TILE_STATE_STATE Ts.run t with eng := { b.eng with halted := b.eng.halted.filter (· ≠ t) } }.dbgEnd 5 ok t

/-- DBG_CMD `peek`: what trace space holds is open, as is a byte of Sedge that nothing has written. -/
def Blk.dbgPeek (b : Blk) : Blk :=
  b.dbg fun b =>
    let sedge := b.flag Reg.DBG_PEEK_ADDR_SPACE
    let off := b.get Reg.DBG_PEEK_ADDR_OFFSET
    if b.level ≠ 1 ∧ b.level ≠ 2 ∨ sedge = true ∧ b.flag Reg.DBG_STATE_TENANT_DATA = false then b.cmdEnd dbgCmd denied
    else if 96 ≤ b.get Reg.DBG_PEEK_ADDR_TILE ∨ off % 8 ≠ 0 ∨ sedge = false ∧ 4096 ≤ off then b.cmdEnd dbgCmd badRange
    else
      let (v, b) := if sedge then b.sedgeRead (b.get Reg.DBG_PEEK_ADDR_TILE) (sedgeAt off) 8 else b.draw (2 ^ 64)
      (b.put Reg.DBG_DATA_DATA v).cmdEnd dbgCmd ok

/-! ### Reset commands (R476) -/

/-- GLB_RST_CMD or DBG_RST_CMD: OP `system` 1 at a level, `tenant` 2. -/
def Blk.rstRun (z : Fuse) (b : Blk) (source op key level tenant : Nat) : Blk :=
  b.cmd rstCmd none fun b =>
    if key ≠ 0x5A then b.cmdEnd rstCmd denied
    else if op = 1 then (b.cmdEnd rstCmd ok).reset z source (some level)
    else if op = 2 then b.resetTenant tenant
    else b.cmdEnd rstCmd badOp

/-- DBG_RST_CMD: acts only at D2; one that acts is logged (R519) under an OP the spec leaves open. -/
def Blk.dbgRst (z : Fuse) (b : Blk) (op key level tenant : Nat) : Blk :=
  if b.level ≠ 2 then b
  else if key ≠ 0x5A ∨ (op ≠ 1 ∧ op ≠ 2) ∨ b.get rstCmd.done = 0 then b.rstRun z 8 op key level tenant
  else
    let (o, b) := b.draw 256
    let b := { b with eng := { b.eng with rstDbg := true } }
    (b.logDebug o ok b.level 0).rstRun z 8 op key level tenant

end Sys2Proof.Machine
end

