-- ==== Sys2Proof/Machine/Nor.lean ====
section
/-! DEFINITION. The boot store (R479 to R482) and its commands (R487 to R490). -/
namespace Sys2Proof.Machine

/-! ### Layout (Table 16.6) -/

def copyBase (slot : Nat) : Nat := slot * 0x100000
def slotBase (slot : Nat) : Nat := 0x200000 + slot * 0x1800000

/-- Bytes of an image from an offset on. -/
abbrev Bytes := Nat → Nat → List Nat

/-- The bytes of a region of the boot store. -/
def Blk.norAt (b : Blk) (base : Nat) : Bytes := fun k n => b.norBytes (base + k) n

/-! ### Configuration copies (Table 16.7, R480) -/

/-- An entry of a configuration copy: offset, width, LOCK and value. -/
structure CfgEntry where
  off : Nat
  width : Nat
  lock : Bool
  value : Nat
  deriving DecidableEq, Repr

/-- A configuration copy as read: SEQ, FW_PREF, its entries and the SHA-256 of its bytes. -/
structure CfgCopy where
  seq : Nat
  pref : Nat
  entries : List CfgEntry
  hash : Nat
  bytes : List Nat
  deriving DecidableEq, Repr

/-- The bytes of an entry are as Table 16.7 gives. -/
def cfgEntryOk (e : List Nat) : Bool :=
  let width := nth 0 e 4
  let off := ofNatBytes (e.take 4)
  (width == 4 || width == 8) && off % width == 0 && decide (off < 0x4000000) && decide (nth 0 e 5 < 2) && nth 0 e 6 == 0 && nth 0 e 7 == 0 &&
  (width == 8 || (slice_ e 12 4).all (· == 0))

/-- The entry that 16 bytes hold. -/
def cfgEntry (e : List Nat) : CfgEntry :=
  { off := ofNatBytes (e.take 4), width := nth 0 e 4, lock := nth 0 e 5 == 1, value := ofNatBytes (slice_ e 8 8) }

/-- A configuration copy, where it is valid (R480) and lies in `room` bytes. -/
def cfgRead (rd : Bytes) (room : Nat) : Option CfgCopy :=
  let len := ofNatBytes (rd 8 4)
  if len % 16 ≠ 0 ∨ len < 32 ∨ 0x100000 < len ∨ room < len then none
  else
    let l := rd 0 len
    let entries := groups 16 ((len - 32) / 16) (l.drop 32)
    if ofNatBytes (slice_ l 12 4) = crcOf (l.take 12 ++ l.drop 16) ∧ ofNatBytes (slice_ l 16 2) = 1 ∧ nth 0 l 18 < 2 ∧
        (slice_ l 19 13).all (· == 0) = true ∧ entries.all cfgEntryOk = true then
      some { seq := ofNatBytes (l.take 8), pref := nth 0 l 18, entries := entries.map cfgEntry, hash := ofNatBytes (sha256 l), bytes := l }
    else none

/-- Copy A (0) or B (1) of the boot store. -/
def Blk.cfgCopy (b : Blk) (slot : Nat) : Option CfgCopy := cfgRead (b.norAt (copyBase slot)) 0x100000

/-- The copy that wins (R480). -/
def Blk.cfgWinner (b : Blk) : Option (Nat × CfgCopy) :=
  match b.cfgCopy 0, b.cfgCopy 1 with
  | none, none => none
  | some x, none => some (0, x)
  | none, some y => some (1, y)
  | some x, some y => if x.seq < y.seq then some (1, y) else some (0, x)

/-! ### Firmware images (Table 16.8, R482, R510) -/

def badSig : Nat := 0xB
def rollback : Nat := 0xC
def badImage : Nat := 0xD

/-- The checks of R482 on an image of a type, in order: a code, or `ok`. -/
def imageCode (z : Fuse) (rd : Bytes) (type : Nat) : Nat :=
  let h := rd 0 64
  let zero (k n : Nat) : Bool := (slice_ h k n).all (· == 0)
  if ofNatBytes (h.take 4) ≠ 0x4B484657 ∨ nth 0 h 4 ≠ type ∨ zero 5 3 = false ∨ zero 17 3 = false ∨ zero 56 8 = false ∨
      0x17FF000 < ofNatBytes (slice_ h 20 4) ∨ (rd 3668 428).all (· == 0) = false then badImage
  else if nth 0 h 16 < z.svn then rollback
  else if hssVerify (natBytes 60 Config.firmwareKey) h (rd 64 3604) = false then badSig
  else if sha256 (rd 4096 (ofNatBytes (slice_ h 20 4))) ≠ slice_ h 24 32 then badImage
  else ok

/-- The code of a firmware slot under R482. -/
def Blk.slotCode (z : Fuse) (b : Blk) (slot : Nat) : Nat := imageCode z (b.norAt (slotBase slot)) 1

/-! ### GLB_NOR_CMD -/

/-- The targets a write may have: in recovery mode firmware slot B, else the slot that is not running and the copy that did not
win (R486, R488). -/
def Blk.norTarget (b : Blk) (a : Nat) : Bool :=
  let inSlot (s : Nat) : Bool := decide (slotBase s ≤ a) && decide (a < slotBase s + 0x1800000)
  let inCopy (s : Nat) : Bool := decide (copyBase s ≤ a) && decide (a < copyBase s + 0x100000)
  if b.recovery then inSlot 1
  else inSlot (1 - b.get Reg.GLB_BOOT_STATUS_FW_SLOT) ||
    (match b.aon.loser with
     | some s => inCopy s
     | none => false)

/-- The first bytes of `nor_stage`. -/
def Blk.norStage (b : Blk) (n : Nat) : List Nat := (List.range (n / 8)).flatMap fun i => natBytes 8 (b.get Reg.nor_stage_DATA i)

/-- Erase the sectors whose first byte a run covers. -/
def Blk.norSectors (b : Blk) (off len : Nat) : Blk :=
  b.each ((List.range (len / 4096 + 2)).map fun i => off / 4096 * 4096 + i * 4096) fun b s =>
    if off ≤ s ∧ s < off + len then b.norErase s 4096 else b

/-- Run a command of the boot store on the die. -/
def Die.nor (d : Die) (run : Die → Die) : Die :=
  if d.blk.get norCmd.done = 0 then d.on fun _ b => b.put norCmd.code busy else run (d.on fun _ b => b.cmdStart norCmd)

def Die.norEnd (d : Die) (code : Nat) : Die := d.on fun _ b => b.cmdEnd norCmd code

/-- NOR_WRITE (R488); in recovery mode a write elsewhere than slot B is denied (R486). -/
def Die.norWrite (d : Die) : Die :=
  d.nor fun d =>
    let b := d.blk
    let off := b.get Reg.GLB_NOR_ARG_NOR_OFF
    let len := b.get Reg.GLB_NOR_ARG_LEN
    if off < 0x3A00000 ∧ 0x3200000 < off + len then d.norEnd denied
    else if len % 256 ≠ 0 ∨ off % 256 ≠ 0 ∨ len < 256 ∨ 65536 < len then d.norEnd badRange
    else if ((List.range (len / 256)).all fun i => b.norTarget (off + 256 * i)) = false then d.norEnd (if b.recovery then denied else badRange)
    else (d.on fun _ b => (b.norSectors off len).norWrite off (b.norStage len)).norEnd ok

/-- NOR_VERIFY (R489). -/
def Die.norVerify (d : Die) (slot : Nat) : Die :=
  d.nor fun d => if d.blk.recovery then d.norEnd denied else d.norEnd (d.blk.slotCode d.fuse slot)

/-- COMMIT_SVN (R490). -/
def Die.commitSvn (d : Die) : Die :=
  d.nor fun d =>
    let b := d.blk
    let run := b.get Reg.GLB_SVN_RUN_SVN
    let other := 1 - b.get Reg.GLB_BOOT_STATUS_FW_SLOT
    if b.recovery then d.norEnd denied
    else if run ≤ d.fuse.svn then d.norEnd ok
    else if b.slotCode d.fuse other ≠ ok ∨ b.norByte (slotBase other + 16) < run then d.norEnd badState
    else { d with fuse := { d.fuse with svn := run } }.norEnd ok

/-- The code of a recovery image in slot B: the outer image, the inner one, then the copy (R487). -/
def Blk.recoverCode (z : Fuse) (b : Blk) : Nat :=
  let body := ofNatBytes (b.norBytes (slotBase 1 + 20) 4)
  let inner := 4096 + ofNatBytes (b.norBytes (slotBase 1 + 4096 + 20) 4)
  let c := imageCode z (b.norAt (slotBase 1)) 2
  if c ≠ ok then c
  else
    let c := imageCode z (b.norAt (slotBase 1 + 4096)) 1
    if c ≠ ok then c
    else if body < inner ∨ (cfgRead (b.norAt (slotBase 1 + 4096 + inner)) (body - inner)).isNone then badImage
    else ok

/-- The highest SEQ of the valid copies, 0 for none. -/
def Blk.topSeq (b : Blk) : Nat := ((List.range 2).map fun s => ((b.cfgCopy s).map (·.seq)).getD 0).foldl Nat.max 0

/-- A copy's bytes under another SEQ, with the CRC that belongs to them. -/
def withSeq (l : List Nat) (seq : Nat) : List Nat :=
  let head := natBytes 8 seq ++ slice_ l 8 4
  head ++ natBytes 4 (crcOf (head ++ l.drop 16)) ++ l.drop 16

/-- NOR_RECOVER (R487). -/
def Die.norRecover (d : Die) : Die :=
  d.nor fun d =>
    let b := d.blk
    let code := b.recoverCode d.fuse
    if code ≠ ok then d.norEnd code
    else
      let inner := 4096 + ofNatBytes (b.norBytes (slotBase 1 + 4096 + 20) 4)
      let image := b.norBytes (slotBase 1 + 4096) inner
      let copy := ((cfgRead (b.norAt (slotBase 1 + 4096 + inner)) 0x100000).map (·.bytes)).getD []
      let seq := b.topSeq + 1
      d.on fun _ b =>
        let b := (b.norErase (slotBase 0) 0x1800000).norWrite (slotBase 0) image
        let b := (b.norErase (copyBase 0) 0x100000).norWrite (copyBase 0) (withSeq copy seq)
        let b := b.norErase (copyBase 1) 0x100000
        ((b.put Reg.GLB_FAILED_START_COUNT 0).cmdEnd norCmd ok).applyReset 6 1 (ms 1)

end Sys2Proof.Machine
end

