-- ==== Sys2Proof/Machine/Pages.lean ====
section
/-! DEFINITION. Reading the register pages: the page map (R553 to R556), access widths (R557), and the value each field shows
where the part's state gives it (the register tables of the chapters). -/
namespace Sys2Proof.Machine

/-! ### The page map -/

/-- The page at a BAR0 page number, where one is present. Numbers 0x20 to 0x22 show SWC, FLOCK and SLOUGH, and 0x90 QMGR (log
entry 5). -/
def pageAt (n : Nat) : Option Nat :=
  if n ≤ 4 ∨ n = 8 then some n
  else if 0x20 ≤ n ∧ n ≤ 0x22 then some n
  else if 0x10 ≤ n ∧ n < 0x28 then some (Pg.fqp (n - 0x10))
  else if n = 0x30 ∨ n = 0x31 ∨ n = 0x40 ∨ n = 0x41 ∨ (0x50 ≤ n ∧ n < 0x5C) ∨ n = 0x60 ∨ n = 0x61 ∨ n = 0x70 ∨ n = 0x71 then some n
  else if n = 0x90 ∨ n = 0xA0 ∨ n = 0xB0 ∨ n = 0xB1 ∨ n = 0xB2 then some n
  else if 0x80 ≤ n ∧ n < 0xA0 then some (Pg.pch (n - 0x80))
  else if 0x1000 ≤ n ∧ n < 0x1600 ∧ n % 16 = 0 then some n
  else if n = Pg.dbg then some n
  else none

/-- The space of a page's registers and the page's instance (Table 19.1). -/
def spaceOf (p : Nat) : Space × Nat :=
  if p = Pg.glb then (.glb, 0)
  else if p = Pg.pwr then (.pwr, 0)
  else if p = Pg.sec then (.sec, 0)
  else if p = Pg.time then (.time, 0)
  else if p = Pg.mgmt then (.mgmt, 0)
  else if p = Pg.pcie then (.pcie, 0)
  else if p = Pg.swc then (.swc, 0)
  else if p = Pg.flock then (.flock, 0)
  else if p = Pg.slough then (.slough, 0)
  else if p = Pg.fen then (.fen, 0)
  else if p = Pg.pred then (.pred, 0)
  else if p = Pg.xlt then (.xlt, 0)
  else if p = Pg.win then (.win, 0)
  else if 0x50 ≤ p ∧ p < 0x5C then (.hbm, p - 0x50)
  else if p = Pg.crypt then (.crypt, 0)
  else if p = Pg.prot then (.prot, 0)
  else if p = Pg.tier then (.tier, 0)
  else if p = Pg.peat then (.peat, 0)
  else if p = Pg.qmgr then (.qmgr, 0)
  else if p = Pg.sync then (.sync, 0)
  else if p = Pg.emb then (.emb, 0)
  else if p = Pg.vse then (.vse, 0)
  else if p = Pg.wst then (.wst, 0)
  else if 0x1000 ≤ p ∧ p < 0x1600 then (.tile, (p - 0x1000) / 16)
  else if 0x4000 ≤ p ∧ p < 0x4018 then (.fqp, p - 0x4000)
  else if 0x5000 ≤ p ∧ p < 0x5020 then (.pch, p - 0x5000)
  else (.dbg, 0)

/-- BLOCK_TYPE (Table 19.1). -/
def blockType (p : Nat) : Nat :=
  if p ≤ 4 then p + 1
  else if 0x4000 ≤ p ∧ p < 0x5000 then 0x10
  else if 0x5000 ≤ p then 0x72
  else if 0x50 ≤ p ∧ p < 0x5C then 0x50
  else if 0x1000 ≤ p ∧ p < 0x1600 then 0x100
  else if p = Pg.dbg then 0x200
  else p

/-- Offsets of the 64-bit registers of a space (R557); its other registers are 32 bits wide. -/
def wideAt : Space → List Nat
  | .xlt => [0x48]
  | .win => [0x48, 0x58, 0x68, 0x70, 0x78]
  | .swc => [0x48, 0x60, 0x68, 0x70, 0x78, 0x80, 0x88, 0x90, 0x98]
  | .fqp => [0x58, 0x60, 0x68, 0x70, 0x78, 0x80, 0x88, 0x90, 0x98, 0xA0, 0xA8, 0xB0]
  | .slough => [0x48, 0x50, 0x58, 0x60]
  | .flock => [0x48, 0x50, 0x58, 0x60]
  | .fen => [0x60, 0x68, 0x70, 0x78, 0x80, 0x88, 0x90, 0x98, 0xA0, 0xA8, 0xB0, 0xB8]
  | .pred => [0x48, 0x50, 0x58]
  | .sync => [0x48, 0x50, 0x58, 0x68, 0x78, 0x80, 0x88, 0x90, 0x98, 0xA0, 0xA8]
  | .hbm => [0x50, 0x58, 0x60, 0x68]
  | .crypt => [0x50]
  | .prot => [0x48, 0x58, 0x60, 0x68, 0x70]
  | .tier => [0x68, 0x70, 0x78, 0x80, 0x88, 0x90, 0x98, 0xA0, 0xA8, 0xB0, 0xB8, 0xC0, 0xC8, 0xD0, 0xD8, 0xE0]
  | .peat => [0x48, 0x50, 0x68, 0x70, 0x98, 0xA0, 0xA8, 0xB0, 0xB8, 0xC0, 0xC8, 0xD0, 0xD8, 0xE0]
  | .pch => [0x50, 0x58, 0x60, 0x68, 0x70, 0x78]
  | .qmgr => [0x58, 0x60, 0x68, 0x70, 0x78, 0x80]
  | .tile => [0x50, 0x58, 0x60, 0x68, 0x70, 0x78, 0x80, 0x88, 0x90, 0x98]
  | .cbw => [0x0, 0x8]
  | .emb => [0x58, 0x60, 0x68, 0x70, 0x78, 0x80, 0x88, 0x90, 0x98, 0xA0, 0xA8, 0xB0]
  | .vse => [0x58, 0x60, 0x68, 0x70, 0x78, 0x80, 0x88, 0x90, 0x98, 0xA0, 0xA8, 0xB0, 0xB8, 0xC0, 0xC8]
  | .wst => [0x48, 0x50, 0x58, 0x60, 0x68, 0x70, 0x78]
  | .pcie => [0x50, 0x58, 0x60, 0x68, 0x70, 0x78, 0x80, 0x88, 0x90, 0x98, 0xA0]
  | .glb => [0x50, 0x68, 0x78, 0x80, 0x88, 0x90, 0x120, 0x148]
  | .pwr => [0x50, 0x58, 0x70, 0x78, 0x80, 0x88]
  | .sec => [0x50, 0x68, 0x70, 0x78]
  | .dbg => [0x50, 0x58, 0x68, 0xA0, 0xA8]
  | .time => [0x40, 0x70, 0x78, 0x80, 0x88, 0x90, 0x98]
  | .mgmt => [0x48, 0x68, 0x70, 0x78, 0x80, 0x88, 0x90]
  | .hdr => [0x18, 0x20, 0x28]
  | .tbl => [0xF08, 0xF10]
  | _ => []

/-- The areas of several words, which take 4-byte and 8-byte accesses at any aligned offset (R557), each with its first offset. -/
def areaOf (sp : Space) (off : Nat) : Option (Fld × Nat) :=
  if 0xE00 ≤ off ∧ off < 0xF00 then some (Reg.TABLE_DATA_DATA, 0xE00)
  else if sp = .sec ∧ 0x100 ≤ off ∧ off < 0x148 then some (Reg.SEC_KEY_STAGE_WRAPPED, 0x100)
  else if sp = .sec ∧ 0x180 ≤ off ∧ off < 0x1A0 then some (Reg.SEC_OWNER_STAGE_SEED, 0x180)
  else if sp = .sec ∧ 0x1A0 ≤ off ∧ off < 0x1C0 then some (Reg.SEC_DBGKEY_STAGE_HASH, 0x1A0)
  else if sp = .sec ∧ 0x1C0 ≤ off ∧ off < 0x1E0 then some (Reg.SEC_ATTEST_NONCE_NONCE, 0x1C0)
  else if sp = .dbg ∧ 0x80 ≤ off ∧ off < 0xA0 then some (Reg.DBG_CHALLENGE_NONCE, 0x80)
  else none

/-- The space, instance and offset in it of a register at an offset of a page. -/
def regSpace (path p off : Nat) : Space × Nat × Nat :=
  if off < 0x40 then (.hdr, p, off)
  else if 0xE00 ≤ off then (.tbl, path * 2 ^ 16 + p, off)
  else
    let (sp, i) := spaceOf p
    if sp = .tile ∧ 0x100 ≤ off ∧ off < 0x180 then (.cbw, i * 8 + (off - 0x100) / 16, (off - 0x100) % 16) else (sp, i, off)

/-- A 64-bit register starts at an offset of a page. -/
def isWide (p off : Nat) : Bool :=
  let (sp, _, o) := regSpace 0 p off
  (wideAt sp).contains o

/-- An access of a width at an offset has the width and place of what lies there (R557). -/
def accessOk (p off n : Nat) : Bool :=
  (n == 4 || n == 8) && off % n == 0 &&
  ((areaOf (spaceOf p).1 off).isSome || if n = 8 then isWide p off else !isWide p off && !isWide p (off / 8 * 8))

/-! ### Tables (Table 19.5) -/

/-- A table of a page: its space, bytes per entry, entries and whether it may be written. -/
structure Tab where
  sp : Space
  bytes : Nat
  count : Nat
  rw : Bool
  deriving DecidableEq, Repr

/-- The tables of a page, by TABLE_SEL; GLB's `page_sum` is derived (R576) and has no space of its own. -/
def Blk.tablesOf (b : Blk) (p : Nat) : List Tab :=
  if p = Pg.glb then [⟨.t_crash, 32, 16, false⟩, ⟨.t_nor_stage, 8, 8192, true⟩, ⟨.glb, 8, 512, false⟩]
  else if p = Pg.sec then [⟨.t_report, 256, 16, false⟩, ⟨.t_attest_pub, 256, 1, false⟩]
  else if p = Pg.mgmt then [⟨.t_qmark, 16, 1048576, false⟩, ⟨.t_hist, 128, 256, true⟩, ⟨.t_retire_log, 32, 16, false⟩]
  else if p = Pg.pcie then [⟨.t_func, 8, 65, true⟩, ⟨.t_seg, 8, 66560, true⟩]
  else if p = Pg.swc then [⟨.t_route, 8, 65536, true⟩, ⟨.t_mcast, 8, 4096, true⟩]
  else if p = Pg.fen then [⟨.t_dir, 32, 262144, false⟩, ⟨.t_member, 4, 64, false⟩]
  else if p = Pg.pred then [⟨.t_pred, 8, 16384, false⟩]
  else if p = Pg.xlt then [⟨.t_xlt_entry, 8, 65536, true⟩, ⟨.t_tenant_ctx, 32, 4096, true⟩]
  else if p = Pg.win then [⟨.t_window, 32, 4096, true⟩]
  else if 0x50 ≤ p ∧ p < 0x5C then [⟨.t_ue_log, 16, 32, false⟩]
  else if p = Pg.crypt then [⟨.t_slot, 4, 4096, false⟩]
  else if p = Pg.prot then [⟨.t_region, 32, 256, true⟩]
  else if p = Pg.tier then
    [⟨.t_place, 32, 4096, true⟩, ⟨.t_pin, 8, 4096, true⟩, ⟨.t_map, 8, 2 ^ 31, false⟩, ⟨.t_frame, 16, b.get Reg.TIER_POOL_TOTAL_FRAMES, false⟩]
  else if p = Pg.peat then
    [⟨.t_sb, 16, b.nandGroups.length * 8192, false⟩, ⟨.t_blk, 8, 4194304, false⟩, ⟨.t_lmap, 8, b.get Reg.PEAT_LOGICAL_BLOCKS_COUNT, false⟩]
  else if p = Pg.qmgr then [⟨.t_qctx, 32, 1048576, true⟩]
  else if p = Pg.sync then [⟨.t_monitor, 32, 65536, false⟩, ⟨.t_dbg_log, 32, 64, false⟩]
  else if p = Pg.emb then [⟨.t_table, 128, 4096, true⟩]
  else if p = Pg.vse then [⟨.t_index, 128, 256, true⟩]
  else if p = Pg.wst then [⟨.t_stream, 32, 1024, false⟩, ⟨.t_members, 256, 4096, true⟩]
  else if p = Pg.dbg then [⟨.t_token_area, 256, 16, true⟩, ⟨.t_log, 16, 32, false⟩]
  else []

/-- The page has a command register beside the table window's (PAGE_CAP.CMD). -/
def hasCmd (p : Nat) : Bool :=
  [Pg.glb, Pg.pwr, Pg.sec, Pg.time, Pg.mgmt, Pg.swc, Pg.fen, Pg.win, Pg.crypt, Pg.prot, Pg.tier, Pg.peat, Pg.qmgr, Pg.sync, Pg.emb, Pg.vse, Pg.dbg].contains p

/-- Some field of the page is locked by PAGE_LOCK (R563). -/
def lockable (p : Nat) : Bool :=
  [Pg.glb, Pg.slough, Pg.hbm 0, Pg.qmgr, Pg.emb, Pg.vse].contains p || decide (0x5000 ≤ p ∧ p < 0x5020)

/-! ### What fields show -/

/-- A page's block holds no work in flight (R561). -/
def Blk.quiesced (b : Blk) (p : Nat) : Bool :=
  let (sp, i) := spaceOf p
  let engine (l : List Nat) : Bool := b.eng.works.all fun w => !l.contains w.opcode
  b.get Reg.PAGE_STATUS_BUSY p == 0 &&
  match sp with
  | .fqp => (b.port i).unacked == [] && (b.port i).out == [] && (b.port i).hdr == none && (b.port i).sending == none
  | .swc => b.sw.queue == [] && b.orig.out == [] && b.orig.waiting == []
  | .slough => b.sloughUsed == 0
  | .flock => b.get Reg.FLOCK_OCC_ENTRIES == 0
  | .fen => b.home.reqs == [] && b.home.snoops == [] && b.home.grants == []
  | .pred | .xlt | .crypt => b.home.reqs == []
  | .hbm => b.home.reqs.all fun q => ((b.raOf q.line).map b.stackOf) != some i
  | .win => b.home.inbox == [] && b.home.reqs == [] && b.home.drains == []
  | .prot => b.prot == none
  | .tier => b.tier.fetches == [] && b.tier.downs == [] && b.tier.job == none
  | .peat => b.peat.reads == [] && b.peat.ops == [] && b.peat.fmt == none
  | .pch => b.peat.reads.all (fun r => (b.readDies r).all fun x => chanOf x.g x.pos != i) && b.peat.ops.all fun o => chanOf o.at_.g o.at_.pos != i
  | .qmgr => b.eng.bound == [] && b.eng.works == []
  | .tile => b.threadsBusy i == 0
  | .sync => b.eng.monWork == []
  | .emb => engine [Dop.embLookup, Dop.embUpdate] && b.eng.chans.all fun c => c.eng != 0
  | .vse => engine [Dop.vseSearch, Dop.vseRerank, Dop.vseMutate, Dop.vseMerge] && b.eng.chans.all fun c => c.eng != 1
  | .wst => b.eng.streams == []
  | .pcie => b.pcie.tlps == []
  | .pwr => b.aon.entry == none && b.aon.avs == none
  | .mgmt => b.aon.slice == none && b.aon.full == none && !b.aon.beaconOut
  | _ => true

/-- Some INT_STATUS bit of a page is enabled. -/
def Blk.pageInt (b : Blk) (p : Nat) : Bool :=
  (b.flag Reg.INT_STATUS_CMD_DONE p && b.flag Reg.INT_ENABLE_CMD_DONE p) || (b.flag Reg.INT_STATUS_ERR p && b.flag Reg.INT_ENABLE_ERR p) ||
  (b.get Reg.INT_STATUS_BLOCK p &&& b.get Reg.INT_ENABLE_BLOCK p) != 0

/-- The lowest BAR0 page number among pages, or 0x3FFF. -/
def lowestPage (l : List Nat) : Nat := (l.map barPage).foldl Nat.min 0x3FFF

/-- Pages whose INT_STATUS or ERR_STICKY may be nonzero. -/
def Blk.intPages (b : Blk) : List Nat :=
  (b.entriesWith Reg.INT_STATUS_CMD_DONE ++ b.entriesWith Reg.INT_STATUS_ERR ++ b.entriesWith Reg.INT_STATUS_BLOCK).eraseDups

/-- Entry `i` of `page_sum` (R576). Where two pages share a number their bits are joined (log entry 5). -/
def Blk.pageSum (b : Blk) (i : Nat) : Nat :=
  let bit (l : List Nat) (k : Nat) : Nat := ((l.map barPage).filter fun n => n / 32 == i).foldl (fun a n => a ||| 2 ^ (2 * (n % 32) + k)) 0
  bit (b.intPages.filter b.pageInt) 0 ||| bit (b.entriesWith Reg.ERR_STICKY_ERR) 1

/-- What a header field of a page shows. -/
def Blk.showHdr (b : Blk) (f : Fld) (p : Nat) : Nat :=
  if f = Reg.PAGE_ID_BLOCK_TYPE then blockType p
  else if f = Reg.PAGE_ID_INSTANCE then (spaceOf p).2
  else if f = Reg.PAGE_CAP_ERR_BITS then errBits p
  else if f = Reg.PAGE_CAP_TABLES then (b.tablesOf p).length
  else if f = Reg.PAGE_CAP_CMD then b2n (hasCmd p)
  else if f = Reg.PAGE_CAP_LOCKABLE then b2n (lockable p)
  else if f = Reg.PAGE_STATUS_QUIESCED then b2n (b.quiesced p)
  else if f = Reg.ERR_SEVERITY_CLASS then b.severity p
  else b.get f p

/-- What a field of the table window shows (Table 19.4). -/
def Blk.showTbl (b : Blk) (f : Fld) (i p : Nat) : Nat :=
  let tab := (b.tablesOf p)[b.get Reg.TABLE_SEL_SEL i]?
  if f = Reg.TABLE_INFO_ENTRY_BYTES then (tab.map (·.bytes)).getD 0
  else if f = Reg.TABLE_INFO_ACCESS then (tab.map fun t => if t.rw then 2 else 1).getD 0
  else if f = Reg.TABLE_ENTRIES_COUNT then (tab.map (·.count)).getD 0
  else b.get f i

/-- What a GLB field shows. -/
def Blk.showGlb (z : Fuse) (b : Blk) (f : Fld) : Nat :=
  if f = Reg.GLB_INT_NEXT_PAGE then lowestPage (b.intPages.filter b.pageInt)
  else if f = Reg.GLB_FATAL_NEXT_PAGE then lowestPage ((b.entriesWith Reg.ERR_STICKY_ERR).filter b.fatalOn)
  else if f = Reg.GLB_RESET_MAP_FUSE_MAP then z.map.toNat
  else if f = Reg.GLB_RESET_MAP_FUSE_LIMIT then z.limit.toNat
  else if f = Reg.GLB_FAILED_START_LIMIT then (if z.limit = 0 then 3 else z.limit.toNat)
  else if f = Reg.GLB_RESET_MAP_EFF_MAP then (List.range 8).foldl (fun a s => a + b.levelOf z (s + 1) none * 4 ^ s) 0
  else if f = Reg.GLB_SVN_FUSE_SVN then z.svn
  else b.get f

/-- What a SEC, PWR, TIME or MGMT field shows. -/
def Blk.showAon (z : Fuse) (b : Blk) (f : Fld) : Nat :=
  if f = Reg.SEC_LC_LC then z.life
  else if f = Reg.SEC_LC_OWNER_SET then b2n (z.seed != 0)
  else if f = Reg.SEC_LC_DBG_KEY_SET then b2n (z.dbgKey != 0)
  else if f = Reg.SEC_SERIAL_SERIAL then z.serial.toNat
  else if f = Reg.SEC_IANA_IANA then Config.iana
  else if f = Reg.SEC_OTS_NEXT then b.otsNext
  else if f = Reg.PWR_STATE_STATE then b.get Reg.PWR_CFG_RUN_STATE
  else if f = Reg.PWR_STATE_TILES_GATED then (b.tilesIn Ts.gated).length
  else if f = Reg.TIME_NS_NS then b.now
  else if f = Reg.MGMT_TILES_RUN then b.tilesRun
  else if f = Reg.MGMT_TILES_RETIRED then (b.tilesIn Ts.retired).length
  else b.get f

/-- What a field of the fabric, home and store blocks shows. -/
def Blk.showHome (b : Blk) (f : Fld) (i : Nat) : Nat :=
  if f = Reg.XLT_VALID_ENTRIES then (b.entriesWith Reg.xlt_entry_V).length
  else if f = Reg.SWC_GRANT_USED_CREDITS then b.grantUsed
  else if f = Reg.SLOUGH_OCC_OCC_FRAMES then b.sloughUsed
  else if f = Reg.TIER_OLDEST_STAMP then ((b.oldest b.evictable).map fun f => b.get Reg.frame_STAMP f).getD 0
  else if f = Reg.PEAT_FREE_SB_FREE then b.freeSbs.length
  else if f = Reg.PEAT_WEAR_AVG_PE then b.avgPe
  else if f = Reg.PEAT_WEAR_MIN_PE then b.minPe
  else if f = Reg.PEAT_WEAR_MAX_PE then b.maxPe
  else if f = Reg.HBM_GLB_STACK_EN ∧ i ≠ 0 then 0
  else b.get f i

/-- What a field of the queue manager, the tiles and the engines shows. -/
def Blk.showEng (b : Blk) (f : Fld) (i : Nat) : Nat :=
  let active (s : Fld) (n : Nat) : Nat := ((b.entriesWith s).filter fun e => b.get s e == n).length
  if f = Reg.QMGR_BOUND_THREADS then b.eng.bound.length
  else if f = Reg.QMGR_READY_QUEUES then b.eng.waiting.length
  else if f = Reg.TILE_STATE_THREADS_BUSY then b.threadsBusy i
  else if f = Reg.EMB_ACTIVE_TABLES then active Reg.table_STATE 1
  else if f = Reg.VSE_ACTIVE_INDEXES then active Reg.index_STATE 1
  else if f = Reg.WST_ACTIVE_STREAMS then b.eng.streams.length
  else b.get f i

/-- Counters of steps the model does not take: they have moved by an open amount since they were last seen (R7, Table 10.15). -/
def stepCounters : List Fld := [Reg.TILE_STEP_CNT, Reg.TILE_BUSY_STEP_CNT, Reg.TILE_SWITCH_CNT, Reg.MULE_BANK_WAIT_CNT]

/-- Shares of a channel's time, which the model does not measure: open (Table 9.9). -/
def shareFields : List Fld := [Reg.PCH_SHARE_DEMAND_PCT, Reg.PCH_SHARE_WRITE_PCT, Reg.PCH_SHARE_UPKEEP_PCT, Reg.PCH_SHARE_IDLE_PCT]

/-- The value a read of a field gives (R9); `p` is its page. -/
def Blk.showFld (z : Fuse) (b : Blk) (f : Fld) (i p : Nat) : Nat × Blk :=
  if f.acc = .wo then (0, b)
  else if stepCounters.contains f then
    let (d, b) := b.draw (2 ^ 48)
    let b := b.countN f d i
    (b.get f i, b)
  else if shareFields.contains f then b.draw 101
  else
    match f.sp with
    | .hdr => (b.showHdr f p, b)
    | .tbl => (b.showTbl f i p, b)
    | .glb => (b.showGlb z f, b)
    | .sec | .pwr | .time | .mgmt => (b.showAon z f, b)
    | .qmgr | .tile | .emb | .vse | .wst => (b.showEng f i, b)
    | _ => (b.showHome f i, b)

/-- The value an RC field restarts from: what it tracks, as it is now (R536). -/
def Blk.rcNow (b : Blk) (f : Fld) : Nat :=
  if f = Reg.SLOUGH_OCC_HWM_FRAMES then b.sloughUsed
  else if f = Reg.FLOCK_OCC_HWM then b.get Reg.FLOCK_OCC_ENTRIES
  else if f = Reg.FEN_RSV_OCC_HWM then b.get Reg.FEN_RSV_OCC_USED
  else if f = Reg.SYNC_MON_OCC_HWM then b.get Reg.SYNC_MON_OCC_ARMED
  else 0

/-- Read fields of a register whose first bit is `lo`; RC fields restart in the same step (R559). -/
def Blk.readFields (z : Fuse) (i p lo : Nat) : List Fld → Blk → Nat × Blk
  | [], b => (0, b)
  | f :: fs, b =>
    let (v, b) := b.showFld z f i p
    let b := if f.acc = .rc then b.put f (b.rcNow f) i else b
    let (r, b) := Blk.readFields z i p lo fs b
    ((v % 2 ^ f.w) <<< (f.bit - lo) ||| r, b)

/-- The fields inside a register of `n` bytes at an offset of a space. -/
def fieldsAt (sp : Space) (off n : Nat) : List Fld :=
  (Reg.all sp).filter fun f => decide (8 * off ≤ f.bit) && decide (f.bit + f.w ≤ 8 * (off + n))

/-- A read of a register, or of a word of an area; a read of TIME_NS latches TIME_FRAC (Table 18.13). -/
def Blk.readReg (z : Fuse) (b : Blk) (path p off n : Nat) : Nat × Blk :=
  if accessOk p off n = false then (0, b)
  else
    let (sp, i, o) := regSpace path p off
    match areaOf sp off with
    | some (f, base) => (if f.acc = .wo then 0 else (b.get f i >>> (8 * (off - base))) % 2 ^ (8 * n), b)
    | none =>
      let (v, b) := Blk.readFields z i p (8 * o) (fieldsAt sp o n) b
      (v, if p = Pg.time ∧ off = 0x40 then b.put Reg.TIME_FRAC_FRAC (b.t % 2 ^ 32) else b)

/-! ### Table entries -/

/-- What a field of a table entry shows. -/
def Blk.showEntry (b : Blk) (f : Fld) (i : Nat) : Nat :=
  if f = Reg.table_PINS_A then b.pinCount 0 i 0
  else if f = Reg.table_PINS_B then b.pinCount 0 i 1
  else if f = Reg.index_PINS_A then b.pinCount 1 i 0
  else if f = Reg.index_PINS_B then b.pinCount 1 i 1
  else if f.sp = .t_stream then (((b.streamEntry i).find? fun e => e.1 == f).map (·.2)).getD 0
  else if f = Reg.attest_pub_DATA then attestPub
  else b.get f i

/-- An entry of a table as a number. -/
def Blk.entryRead (b : Blk) (p : Nat) (t : Tab) (i : Nat) : Nat :=
  if t.sp = .glb then b.pageSum i
  else
    let i := if t.sp = .t_ue_log then (p - 0x50) * 32 + i else i
    (Reg.all t.sp).foldl (fun v f => v ||| (b.showEntry f i % 2 ^ f.w) <<< f.bit) 0

end Sys2Proof.Machine
end

