-- ==== Sys2Proof/Machine/Regs.lean ====
section
/-! DEFINITION. Writing the register pages (R9, R532, R534, R537, R562, R563), the command registers, the table window (R565 to
R570) and the paths into BAR0 (R555, R571, R572, R574), with DBG `poke` (R518). -/
namespace Sys2Proof.Machine

/-! ### Fields and their ranges -/

/-- Fields with a range, by their lowest and highest value: a write outside it is ignored (log entry 26). -/
def rangesA : List (Fld × Nat × Nat) := [
  (Reg.SWC_REQ_TIMEOUT_TIMEOUT_US, 100, 1000000), (Reg.FQP_TIMING_FRAME_STALL_US, 0, 1000), (Reg.FQP_TIMING_REPLAY_MAX, 1, 4),
  (Reg.FQP_TIMING_LOCK_HOLD_US, 1, 8), (Reg.SWC_ARB_AGE_THRESH_NS, 100, 60000), (Reg.SWC_RESEQ_HOLE_US, 20, 1000000),
  (Reg.SLOUGH_CFG_SIZE_GIB, 4, 64), (Reg.SLOUGH_THRESH_FULL_LIMIT_MS, 1, 10000), (Reg.SLOUGH_THRESH_SPILL_PCT, 10, 100),
  (Reg.FEN_CFG_TENURE_NS, 50, 2000), (Reg.FEN_CFG_SNOOP_TIMEOUT_US, 1, 10000), (Reg.FEN_RSV_CFG_LINE_QUEUE, 1, 8),
  (Reg.FEN_RSV_CFG_RSV_HOLD_US, 1, 1000), (Reg.SYNC_CFG_POLL_NS, 100, 65535), (Reg.SYNC_CFG_PUBLISH_TRIES, 1, 255),
  (Reg.SYNC_TENANT_LIMIT_MONITORS, 1, 65536), (Reg.HBM_CFG_LC_MODE, 0, 2), (Reg.HBM_SCRUB_PERIOD_H, 1, 168),
  (Reg.TIER_CFG_FREE_LOW_PCT, 1, 50), (Reg.TIER_CFG_FREE_HIGH_PCT, 2, 60), (Reg.TIER_CFG_TOUCH_GRAIN_US, 1, 65535),
  (Reg.TIER_TIMEOUT_PEAT_US, 100, 65535), (Reg.TIER_TIMEOUT_HOST_US, 20, 65535), (Reg.HIWYN_CFG_HEAT_UP, 1, 255),
  (Reg.HIWYN_CFG_HALVE_MS, 1, 65535), (Reg.TIER_HANDOFF_CFG_GUARD_US, 1, 65535)]
def rangesB : List (Fld × Nat × Nat) := [
  (Reg.PEAT_GC_GC_START_PCT, 1, 25), (Reg.PEAT_GC_GC_STOP_PCT, 2, 30), (Reg.PEAT_GC_UPKEEP_MIN_PCT, 0, 50),
  (Reg.PEAT_GC_UPKEEP_MAX_PCT, 10, 100), (Reg.PEAT_WL_WL_DELTA, 20, 5000), (Reg.PEAT_WL_RATED_PE, 100, 60000),
  (Reg.PEAT_DISTURB_RD_THRESH, 1000, 10000000), (Reg.PEAT_RET_RET_PERIOD_D, 1, 60), (Reg.PEAT_RET_RET_MAX_AGE_D, 1, 365),
  (Reg.PEAT_RET_RET_BITS, 8, 200), (Reg.PEAT_TIMING_ROW_CLOSE_US, 100, 65535), (Reg.PEAT_TIMING_SUSPEND_MAX, 0, 15),
  (Reg.PEAT_TIMING_READ_RETRY_MAX, 0, 15), (Reg.PEAT_CKPT_CKPT_S, 10, 3600), (Reg.QMGR_CFG_AGE_US, 1, 65535),
  (Reg.QMGR_CFG_QUANTUM, 1, 65535), (Reg.QMGR_DB_BASE_BASE, 0, 2 ^ 21 - 1024), (Reg.EMB_CFG_RETIRE_GRACE_MS, 1, 60000),
  (Reg.VSE_CFG_RETIRE_GRACE_MS, 1, 60000), (Reg.VSE_CFG_COMMIT_WAIT_US, 10, 65535), (Reg.GLB_NODE_ID_NODE, 0, 0x3F),
  (Reg.GLB_MGMT_UDP_PORT, 1, 65535), (Reg.GLB_ESCALATE_HOLD_MS, 1, 65535), (Reg.GLB_NOR_ARG_LEN, 256, 65536),
  (Reg.PWR_CFG_GATE_IDLE_US, 1, 65535), (Reg.PWR_CAP_HYST_W, 1, 255), (Reg.PWR_THERM_WARN_C, 60, 110),
  (Reg.TIME_LOCK_UNLOCK_NS, 100, 10000), (Reg.TIME_LOCK_LOCK_NS, 10, 1000), (Reg.TIME_SERVO_SLEW_PPM, 1, 1000),
  (Reg.TIME_SERVO_HOLDOVER_S, 1, 65535), (Reg.TIME_STEP_THRESH_NS, 1000, 2 ^ 32 - 1), (Reg.MGMT_BEACON_CFG_PERIOD_US, 10, 1000000),
  (Reg.MGMT_SELFTEST_CFG_DRAIN_MAX_MS, 1, 65535), (Reg.MGMT_CANARY_CFG_CANARY_MS, 100, 65535), (Reg.MGMT_CANARY_CFG_TEMP_BAND_C, 2, 50),
  (Reg.MGMT_CANARY_CFG_MIN_TILES, 1, 96), (Reg.hist_BASE_US, 1, 1048575)]

/-- A local unit lies in an aperture of the part that ranks below `n`: QMGR 0, EMB 1, VSE 2. -/
def Blk.inAperture (b : Blk) (n unit : Nat) : Bool :=
  let q := b.get Reg.QMGR_DB_BASE_BASE
  (decide (q ≤ unit) && decide (unit < q + 1024)) || (decide (1 < n) && unit == b.get Reg.EMB_XAP_BASE_BASE) ||
  (decide (2 < n) && unit == b.get Reg.VSE_XAP_BASE_BASE)

/-- A field takes a value. -/
def Blk.takes (b : Blk) (f : Fld) (x : Nat) : Bool :=
  if f = Reg.PWR_CAP_CORE_CAP_W then x == 0 || (decide (100 ≤ x) && decide (x ≤ 950))
  else if f = Reg.PCH_RATE_MTS then [800, 1200, 1600, 2400, 3200, 3600].contains x
  else if f = Reg.EMB_XAP_BASE_BASE then !b.inAperture 1 x
  else if f = Reg.VSE_XAP_BASE_BASE then !b.inAperture 2 x
  else if f = Reg.GLB_FMW_BASE_BASE then !b.inAperture 3 x
  else
    match (rangesA ++ rangesB).find? fun r => r.1 == f with
    | some (_, lo, hi) => decide (lo ≤ x) && decide (x ≤ hi)
    | none => true

/-- The fields locked by PAGE_LOCK (R563). -/
def lockedFields : List Fld := [Reg.HBM_GLB_STACK_EN, Reg.SLOUGH_CFG_SIZE_GIB, Reg.PCH_CTRL_DIE_EN, Reg.QMGR_DB_BASE_BASE,
  Reg.EMB_XAP_BASE_BASE, Reg.VSE_XAP_BASE_BASE, Reg.GLB_NODE_ID_NODE, Reg.GLB_FMW_BASE_BASE]

/-- A write reaches a field by its access code (R9); writing 1 to a counter's OVF also clears its COUNT (R537). `open_`:
PAGE_LOCK does not hold. -/
def Blk.writeFld (b : Blk) (open_ : Bool) (i x : Nat) (f : Fld) : Blk :=
  match f.acc with
  | .rw => if (!open_ && lockedFields.contains f) || !b.takes f x || (f == Reg.HBM_GLB_STACK_EN && i != 0) then b else b.put f x i
  | .w1c =>
    let b := b.put f (b.get f i - (b.get f i &&& x)) i
    if f.w = 1 ∧ f.bit % 64 = 63 ∧ x = 1 then b.put { f with bit := f.bit - 63, w := 48, acc := .ro } 0 i else b
  | .w1s => b.put f (b.get f i ||| x) i
  | .ro | .wo | .rc => b

/-- Pairs of fields of one register whose write is ignored where it would leave them the wrong way round. -/
def Blk.fixPairs (old b : Blk) : Blk :=
  let keep (f : Fld) (b : Blk) : Blk := b.put f (old.get f)
  let b := if b.get Reg.TIER_CFG_FREE_HIGH_PCT ≤ b.get Reg.TIER_CFG_FREE_LOW_PCT then
    keep Reg.TIER_CFG_FREE_LOW_PCT (keep Reg.TIER_CFG_FREE_HIGH_PCT b) else b
  let b := if b.get Reg.PEAT_GC_GC_STOP_PCT ≤ b.get Reg.PEAT_GC_GC_START_PCT then keep Reg.PEAT_GC_GC_STOP_PCT b else b
  let b := if b.get Reg.PEAT_GC_UPKEEP_MAX_PCT < b.get Reg.PEAT_GC_UPKEEP_MIN_PCT then keep Reg.PEAT_GC_UPKEEP_MAX_PCT b else b
  if b.get Reg.TIME_LOCK_UNLOCK_NS ≤ b.get Reg.TIME_LOCK_LOCK_NS then keep Reg.TIME_LOCK_LOCK_NS b else b

/-- A write to the fields of a register without behaviour of its own (REGISTER_WRITE, R9). -/
def Blk.writeFields (b : Blk) (open_ : Bool) (i lo v : Nat) (fs : List Fld) : Blk :=
  Blk.fixPairs b (b.each fs fun b f => b.writeFld open_ i (v / 2 ^ (f.bit - lo) % 2 ^ f.w) f)

/-! ### The header -/

/-- PAGE_INJECT (R562). -/
def Blk.inject_ (b : Blk) (p bit : Nat) : Blk := if bit < errBits p then b.errInfo p bit 0xFFFFFFFF else b

/-- ERR_STICKY_CLEAR (R534): when all bits are clear the first error is no longer valid; two first-failure registers are held until their
bit clears. -/
def Blk.stickyClear (b : Blk) (p v : Nat) : Blk :=
  let e := b.get Reg.ERR_STICKY_ERR p
  let e := e - (e &&& v)
  let b := b.put Reg.ERR_STICKY_ERR e p
  let b := if e = 0 then b.put Reg.ERR_FIRST_VALID 0 p else b
  let b := if p = Pg.pcie ∧ bitAt v 0 = true then
      b.puts 0 [(Reg.PCIE_BAR4_ERR_FIRST_OFFSET, 0), (Reg.PCIE_BAR4_ERR_FIRST_FUNC, 0), (Reg.PCIE_BAR4_ERR_FIRST_STATUS, 0)]
    else b
  if p = Pg.sync ∧ bitAt v 0 = true then
    b.puts 0 [(Reg.SYNC_BLOCKED_FIRST_SRC_TENANT, 0), (Reg.SYNC_BLOCKED_FIRST_OBJ_TENANT, 0), (Reg.SYNC_BLOCKED_FIRST_SRC_NODE, 0),
      (Reg.SYNC_BLOCKED_FIRST_STAGE, 0)]
  else b

/-- ERR_COUNT_CLEAR (R534). -/
def Blk.errCountClear (b : Blk) (p : Nat) : Blk := b.puts p [(Reg.ERR_COUNT_SAT, 0), (Reg.ERR_COUNT_COUNT, 0)]

/-- The classes after a write: each field only rises (R532). -/
def raised (old v : Nat) : Nat → Nat
  | 0 => 0
  | n + 1 => raised old v n + Nat.max (old / 4 ^ n % 4) (v / 4 ^ n % 4) * 4 ^ n

/-- ERR_SEVERITY_WRITE (R532). -/
def Blk.severityWrite (b : Blk) (p v : Nat) : Blk :=
  b.put Reg.ERR_SEVERITY_CLASS (raised (b.severity p) v (errBits p) ^^^ classWord (pageClasses p)) p

/-- ERR_MASK_WRITE (R563): under MASK_LOCK it only clears bits. -/
def Blk.maskWrite (b : Blk) (open_ : Bool) (p v : Nat) : Blk :=
  b.put Reg.ERR_MASK_MASK (if b.flag Reg.PAGE_LOCK_MASK_LOCK p && !open_ then b.get Reg.ERR_MASK_MASK p &&& v else v) p

/-- PAGE_LOCK_WRITE (R563): its bits are only set. -/
def Blk.lockWrite (b : Blk) (p v : Nat) : Blk := b.each [Reg.PAGE_LOCK_LOCK, Reg.PAGE_LOCK_MASK_LOCK] fun b f => b.writeFld true p (v / 2 ^ (f.bit % 32) % 2) f

/-- INT_STATUS_CLEAR (R534). -/
def Blk.intClear (b : Blk) (p v : Nat) : Blk := b.writeFields true p (0x38 * 8) v (fieldsAt .hdr 0x38 4)

/-- A write to a register of the common header. -/
def Blk.hdrWrite (b : Blk) (poke : Bool) (p off v : Nat) : Blk :=
  if off = 0x08 then (if bitAt v 31 then b.inject_ p (v % 32) else b)
  else if off = 0x10 then b.stickyClear p v
  else if off = 0x14 then b.maskWrite poke p v
  else if off = 0x18 then b.severityWrite p v
  else if off = 0x30 then (if bitAt v 31 then b.errCountClear p else b)
  else if off = 0x34 then b.writeFields true p (0x34 * 8) v (fieldsAt .hdr 0x34 4)
  else if off = 0x38 then b.intClear p v
  else if off = 0x3C then b.lockWrite p v
  else b

/-! ### The table window -/

/-- The window of a path on a page. -/
def winOf (path p : Nat) : Nat := path * 2 ^ 16 + p

/-- TABLE_SEL_WRITE (R565): it clears TABLE_DATA. -/
def Blk.tableSel (b : Blk) (path p sel : Nat) : Blk := (b.put Reg.TABLE_SEL_SEL sel (winOf path p)).put Reg.TABLE_DATA_DATA 0 (winOf path p)

/-- A table command finishes; INC acts after `ok` (R564, R568). -/
def Blk.tableEnd (b : Blk) (path p : Nat) (inc : Bool) (code : Nat) : Blk :=
  let i := winOf path p
  let b := (b.put Reg.TABLE_STATUS_CODE code i).put Reg.INT_STATUS_CMD_DONE 1 p
  if inc && code == ok then b.put Reg.TABLE_INDEX_INDEX (b.get Reg.TABLE_INDEX_INDEX i + 1) i else b

/-- A table command's table, or the code it is refused with (R568). -/
def Blk.tablePick (b : Blk) (path p : Nat) (write : Bool) : Except Nat Tab :=
  let i := winOf path p
  match (b.tablesOf p)[b.get Reg.TABLE_SEL_SEL i]? with
  | none => .error badOp
  | some t =>
    if t.count ≤ b.get Reg.TABLE_INDEX_INDEX i then .error badRange
    else if write && !t.rw then .error denied
    else .ok t

/-- TABLE_READ (R566). -/
def Blk.tableRead (b : Blk) (path p : Nat) (inc : Bool) : Blk :=
  match b.tablePick path p false with
  | .error c => b.tableEnd path p inc c
  | .ok t =>
    let i := winOf path p
    (b.put Reg.TABLE_DATA_DATA (b.entryRead p t (b.get Reg.TABLE_INDEX_INDEX i)) i).tableEnd path p inc ok

/-- A field's part of an entry's bytes. -/
def entryPart (f : Fld) (v : Nat) : Nat := v / 2 ^ f.bit % 2 ^ f.w

/-- A field of slot A or B of a versioned entry. -/
def slotField (sp : Space) (f : Fld) : Option Nat :=
  let a := if sp = .t_table then [Reg.table_VERSION_A, Reg.table_VA_BASE_A, Reg.table_OPT_VA_A]
    else [Reg.index_VERSION_A, Reg.index_BASE_SEQ_A, Reg.index_LIST_VA_A]
  if a.contains f then some 0 else if (a.map fun g => inSlot g 1).any fun g => g.bit == f.bit then some 1 else none

/-- A write to an active entry touches more than the fields of free slots (R372). -/
def Blk.slotsOnly (b : Blk) (sp : Space) (sstate : Fld) (i v : Nat) : Bool :=
  (Reg.all sp).all fun f => f.acc != .rw || b.get f i == entryPart f v ||
    (match slotField sp f with
     | some s => b.get (inSlot sstate s) i == 0
     | none => false)

/-- What the owning block's rule makes of an entry write that it discards (R36, R37, R320, R372, R434); none where it takes it. -/
def Blk.entryRule (b : Blk) (sp : Space) (i v : Nat) : Option Blk :=
  let part (f : Fld) : Nat := entryPart f v
  match sp with
  | .t_xlt_entry =>
    if part Reg.xlt_entry_V = 1 ∧ part Reg.xlt_entry_SIZE = 1 ∧ part Reg.xlt_entry_PPN % 32 ≠ 0 then some (b.err Pg.xlt 0) else none
  | .t_tenant_ctx =>
    let lg := part Reg.tenant_ctx_LG_COUNT
    let sm := part Reg.tenant_ctx_SM_COUNT
    if 65536 < lg ∨ 65536 < sm ∨ 65536 < part Reg.tenant_ctx_LG_FIRST + lg ∨ 65536 < part Reg.tenant_ctx_SM_FIRST + sm then some (b.err Pg.xlt 1) else none
  | .t_qctx => if b.get Reg.qctx_STATE i ≠ Qst.off then some (b.err Pg.qmgr 4) else none
  | .t_place => if b.get Reg.place_STATE i ≠ 0 then some (b.err Pg.tier 7) else none
  | .t_table => if b.get Reg.table_STATE i ≠ 0 ∧ b.slotsOnly .t_table Reg.table_SSTATE_A i v = false then some (b.err Pg.emb 4) else none
  | .t_index => if b.get Reg.index_STATE i ≠ 0 ∧ b.slotsOnly .t_index Reg.index_SSTATE_A i v = false then some (b.err Pg.vse 7) else none
  | .t_members =>
    if b.eng.streams.any (fun s => match b.work? s.work with
        | some w => w.group == i
        | none => false) then some (b.err Pg.wst 3) else none
  | _ => none

/-- The writable fields of an entry are taken whole (R567). A histogram's bins clear (R544); a group holds members below its COUNT
alone (R434). -/
def Blk.entryWrite (b : Blk) (sp : Space) (i v : Nat) : Blk :=
  let b := b.each (Reg.all sp) fun b f => b.writeFld true i (entryPart f v) f
  match sp with
  | .t_hist => b.each ((Reg.all .t_hist).filter fun f => f.acc == .ro) fun b f => b.put f 0 i
  | .t_members =>
    b.each ((Reg.all .t_members).filter fun f => decide (64 + 16 * entryPart Reg.members_COUNT v ≤ f.bit)) fun b f => b.put f 0 i
  | _ => b

/-- TABLE_WRITE (R567). -/
def Blk.tableWrite (b : Blk) (path p : Nat) (inc : Bool) : Blk :=
  match b.tablePick path p true with
  | .error c => b.tableEnd path p inc c
  | .ok t =>
    let i := b.get Reg.TABLE_INDEX_INDEX (winOf path p)
    let v := b.get Reg.TABLE_DATA_DATA (winOf path p) % 2 ^ (8 * t.bytes)
    match b.entryRule t.sp i v with
    | some b => b.tableEnd path p inc badState
    | none => (b.entryWrite t.sp i v).tableEnd path p inc ok

/-- A write to a window register. -/
def Blk.tblWrite (b : Blk) (path p off v : Nat) : Blk :=
  if off = 0xF00 then b.tableSel path p (v % 256)
  else if off = 0xF10 then b.put Reg.TABLE_INDEX_INDEX v (winOf path p)
  else if off = 0xF18 then
    if bits v 31 28 = 1 then b.tableRead path p (bitAt v 27)
    else if bits v 31 28 = 2 then b.tableWrite path p (bitAt v 27)
    else b.tableEnd path p (bitAt v 27) badOp
  else b

/-! ### Registers with behaviour of their own -/

/-- A command register given an OP it does not have. -/
def Blk.noOp (b : Blk) (c : CmdReg) (rej : Option Nat) : Blk :=
  b.cmd c rej fun b => match rej with
    | some r => b.cmdEndRej c r badOp
    | none => b.cmdEnd c badOp

/-- WIN_CMD. -/
def Blk.winCmdWrite (b : Blk) (v : Nat) : Blk :=
  let w := bits v 27 16
  match bits v 31 28 with
  | 1 => b.winInstall w
  | 2 => b.winDrain w
  | 3 => b.winRevoke w
  | 4 => b.winBump w
  | 5 => b.winBumpSrc (bits v 15 0)
  | 6 => b.winFree w
  | _ => b.noOp winCmd (some 0)

/-- FQP_CTRL: ROLE is taken only while ENABLE is 0. -/
def Blk.fqpCtrl (b : Blk) (n v : Nat) : Blk :=
  if b.flag Reg.FQP_CTRL_ENABLE n then (if bitAt v 31 then b else b.portDisable n)
  else
    let b := b.put Reg.FQP_CTRL_ROLE (bits v 30 30) n
    if bitAt v 31 then b.portEnable n else b

/-- The command registers of the fabric and the home. -/
def Blk.homeCmd (b : Blk) (p off v : Nat) : Option Blk :=
  let op := bits v 31 28
  if p = Pg.win ∧ off = 0x40 then some (b.winCmdWrite v)
  else if p = Pg.win ∧ off = 0x60 then some (b.restartWrite (v % 2 ^ 16))
  else if p = Pg.swc ∧ off = 0xA0 then some (if op = 1 then b.srcReset (bits v 15 0) else b.noOp swcCmd none)
  else if 0x4000 ≤ p ∧ p < 0x4018 ∧ off = 0x40 then some (b.fqpCtrl (p - 0x4000) v)
  else if p = Pg.fen ∧ off = 0x48 then
    some (if op = 1 then b.memberSet (bits v 21 16) (bits v 15 0) (bitAt v 22) else if op = 2 then b.fenPurge (bits v 21 16) else b.noOp fenCmd none)
  else if p = Pg.pred ∧ off = 0x40 then some (b.predCfg v)
  else if p = Pg.sync ∧ off = 0x50 then
    some (if bits v 63 60 = 1 then b.syncSetWord (bits v 43 0) else if bits v 63 60 = 2 then b.syncFire (bits v 43 0)
      else b.dbgSync fun b => b.cmdEnd syncCmd badOp)
  else none

/-- The command registers of the store, the tiers and the engines. -/
def Blk.storeCmd (z : Fuse) (w : World) (b : Blk) (p off v : Nat) : Option Blk :=
  let op := bits v 31 28
  if p = Pg.crypt ∧ off = 0x40 then
    some (if op = 1 then b.cryptLoad z (bits v 11 0) else if op = 2 then b.cryptZeroise (bits v 11 0) else b.noOp cryptCmd none)
  else if p = Pg.prot ∧ off = 0x40 then
    let r := bits v 19 12
    some (match op with
      | 1 => b.protActivate r
      | 2 => b.protDeactivate r
      | 3 => b.protFreeze r
      | 4 => b.protThaw r
      | 5 => b.protRebuild r (bits v 2 0)
      | _ => b.noOp protCmd none)
  else if p = Pg.tier ∧ off = 0x40 then
    let d := bits v 11 0
    some (if op = 1 then b.tierPlace d else if op = 2 then b.tierRetire d else if op = 3 then b.tierFlush d else b.noOp tierCmd (some 7))
  else if p = Pg.peat ∧ off = 0x40 then
    some (if op = 1 then b.peatFormat w.marks else if op = 2 then b.peatTrim else if op = 3 then b.peatCheckpoint w.bad else b.noOp peatCmd none)
  else if p = Pg.qmgr ∧ off = 0x40 then
    let q := bits v 19 0
    some (match op with
      | 1 => b.queueEnable q
      | 2 => b.queueStop q
      | 3 => b.queueResume q
      | 4 => b.queueReset q
      | _ => b.noOp qmgrCmd (some 4))
  else if p = Pg.emb ∧ off = 0x40 then
    let t := bits v 11 0
    some (if op = 1 then b.embDefine t else if op = 2 then b.embUndefine t else if op = 3 then b.embStage t (bits v 12 12) else b.noOp embCmd (some 4))
  else if p = Pg.vse ∧ off = 0x40 then
    some (if op = 1 then b.vseDefine (bits v 7 0) else if op = 2 then b.vseUndefine (bits v 7 0) else b.noOp vseCmd (some 7))
  else if 0x1000 ≤ p ∧ p < 0x1600 ∧ off = 0x48 then some (if bitAt v 0 then b.tileSnap ((p - 0x1000) / 16) else b)
  else none

/-- RESET_MAP_SW_WRITE (R471): a field changes only to a deeper level. -/
def mapSwNew (old v : Nat) : Nat → Nat
  | 0 => 0
  | n + 1 =>
    let o := old / 4 ^ n % 4
    let x := v / 4 ^ n % 4
    mapSwNew old v n + (if x < o then x else o) * 4 ^ n

def Blk.mapSwWrite (b : Blk) (v : Nat) : Blk := b.put Reg.GLB_RESET_MAP_SW_MAP (mapSwNew (b.get Reg.GLB_RESET_MAP_SW_MAP) v 8)

/-- The reset source that a path's GLB_RST_CMD raises (R476). -/
def rstSource : Path → Nat
  | .fabric .. => 7
  | _ => 6

/-- The registers of the GLB, PWR, TIME and MGMT pages with behaviour of their own. -/
def Blk.aonCmd (z : Fuse) (w : World) (b : Blk) (path : Path) (p off v : Nat) : Option Blk :=
  let op := bits v 31 28
  if p = Pg.glb ∧ off = 0x100 then some (b.rstRun z (rstSource path) op (bits v 23 16) (bits v 27 26) (bits v 11 0))
  else if p = Pg.glb ∧ off = 0x10C then some (b.mapSwWrite v)
  else if p = Pg.pwr ∧ off = 0x44 then
    some ((b.runState (bits v 31 30)).writeFields true 0 (0x44 * 8) v [Reg.PWR_CFG_GATE_IDLE_US])
  else if p = Pg.pwr ∧ off = 0x48 then some (if op = 1 then b.enterLow 3 else if op = 2 then b.enterLow 4 else b.noOp pwrCmd none)
  else if p = Pg.pwr ∧ off = 0x50 then some (b.tileForce v (b.get Reg.PWR_TILE_FORCE_HI_MASK))
  else if p = Pg.pwr ∧ off = 0x58 then some (b.tileForce (b.get Reg.PWR_TILE_FORCE_LO_MASK) (v % 2 ^ 32))
  else if p = Pg.pwr ∧ off = 0x60 then some (b.vcoreWrite (bits v 31 22) (bits v 21 17) (bits v 16 7))
  else if p = Pg.time ∧ off = 0x4C then
    let pps := bitAt v 30 && !b.flag Reg.TIME_CTRL_PPS_IN_EN
    some ((b.writeFields true 0 (0x4C * 8) v (fieldsAt .time 0x4C 4)).timeCtrl pps)
  else if p = Pg.time ∧ off = 0x60 then some (b.writeFields true 0 (0x60 * 8) v (fieldsAt .time 0x60 4)).limitAdj
  else if p = Pg.time ∧ off = 0x68 then some (if op = 1 then b.timeStepTo else b.noOp timeCmd none)
  else if p = Pg.mgmt ∧ off = 0x40 then
    some (if op = 1 then b.mgmtFence else if op = 2 then b.selftestTile (bits v 6 0)
      else if op = 3 then b.selftestFull w.tiles w.stks else b.noOp mgmtCmd none)
  else if p = Pg.mgmt ∧ off = 0x50 then
    let fresh := bitAt v 31 && !b.flag Reg.MGMT_BEACON_CFG_EN
    let b := b.writeFields true 0 (0x50 * 8) v (fieldsAt .mgmt 0x50 4)
    some (if fresh then b.setAon fun a => { a with beaconAt := b.now } else b)
  else if p = Pg.sec ∧ off = 0x5C then some (b.secFm (bitAt v 31) (bits v 15 0))
  else none

/-- The commands of DBG_CMD but for `poke`, and DBG_RST_CMD. -/
def Blk.dbgWrite (z : Fuse) (b : Blk) (path : Path) (off v : Nat) : Option Blk :=
  if off = 0x40 then
    some (match bits v 31 28 with
      | 1 => b.dbgChallenge
      | 2 => b.dbgUnlock z path
      | 3 => b.dbgLock
      | 4 => b.dbgHalt (bits v 6 0)
      | 5 => b.dbgResume (bits v 6 0)
      | 6 => b.dbgPeek
      | _ => b.dbg fun b => b.cmdEnd dbgCmd badOp)
  else if off = 0x70 then some (b.dbgRst z (bits v 31 28) (bits v 23 16) (bits v 27 26) (bits v 11 0))
  else none

/-- A channel's ENABLE: set, a channel that is off begins to train; clear, it is off. -/
def Blk.pchCtrl (b : Blk) (c : Nat) : Blk :=
  if b.flag Reg.PCH_CTRL_ENABLE c then (if b.get Reg.PCH_STATE_STATE c = Pst.off then b.put Reg.PCH_STATE_STATE Pst.training c else b)
  else b.put Reg.PCH_STATE_STATE Pst.off c

/-- A word of an area takes the bytes written; areas that are read-only do not. -/
def Blk.areaWrite (b : Blk) (i : Nat) (f : Fld) (base off n v : Nat) : Blk :=
  if f.acc = .ro then b else b.put f (putBits (b.get f i) (8 * (off - base)) (8 * n) v) i

/-- A write of `n` bytes to a register of a page, `poke` for DBG `poke`, which PAGE_LOCK does not block. -/
def Blk.regWrite (z : Fuse) (w : World) (b : Blk) (path : Path) (poke : Bool) (pn p off n v : Nat) : Blk :=
  let (sp, i, o) := regSpace pn p off
  match areaOf sp off with
  | some (f, base) => b.areaWrite i f base off n v
  | none =>
    if off < 0x40 then b.hdrWrite poke p off v
    else if 0xE00 ≤ off then b.tblWrite pn p off v
    else
      let own : Option Blk := match b.homeCmd p off v, b.storeCmd z w p off v, b.aonCmd z w path p off v with
        | some x, _, _ => some x
        | none, some x, _ => some x
        | none, none, some x => some x
        | none, none, none => if p = Pg.dbg then b.dbgWrite z path off v else none
      match own with
      | some x => x
      | none =>
        let b := b.writeFields (poke || !b.flag Reg.PAGE_LOCK_LOCK p) i (8 * o) v (fieldsAt sp o n)
        if sp = .pch ∧ off = 0x40 then b.pchCtrl i else b

/-- SEC_CMD. -/
def Die.secWrite (w : World) (d : Die) (v : Nat) : Die :=
  match bits v 31 28 with
  | 1 => d.advance
  | 2 => d.setOwner w.stuckSeed w.stuckKey
  | 3 => d.decommission (bits v 23 16)
  | 4 => d.on fun z b => b.attest z
  | _ => d.sec fun d => d.secEnd badOp

/-- GLB_NOR_CMD; in recovery mode all but `write` and `recover` are denied (R486). -/
def Die.norCmdWrite (d : Die) (v : Nat) : Die :=
  match bits v 31 28 with
  | 1 => d.norWrite
  | 2 => d.norVerify (v % 2)
  | 3 => d.commitSvn
  | 4 => d.norRecover
  | _ => d.nor fun d => d.norEnd (if d.blk.recovery then denied else badOp)

/-! ### Paths into BAR0 -/

def Path.num : Path → Nat
  | .bar0 => 0
  | .mgmt => 1
  | .i3c => 2
  | .fabric .. => 3
  | .debug => 4
  | .jtag => 5

/-- A path reaches a page (Table 19.7, R486; JTAG by Table 17.5: the DBG page, and at D3, where it alone reaches the part, SEC, for the `advance` of
Table 17.1; log entry 103). -/
def Blk.reaches (b : Blk) (path : Path) (p : Nat) : Bool :=
  let shown := !b.recovery || [Pg.glb, Pg.sec, Pg.time].contains p
  match path with
  | .i3c => shown && [Pg.glb, Pg.pwr, Pg.sec, Pg.time, Pg.mgmt, Pg.dbg].contains p
  | .debug => shown && p != Pg.sec && p != Pg.dbg
  | .jtag => p == Pg.dbg || (p == Pg.sec && b.level == 3)
  | _ => shown

/-- A path leads to an absent page (R555): not one whose pages Table 19.7 lists. -/
def Blk.opensTo (b : Blk) (path : Path) : Option Nat → Bool
  | some p => b.reaches path p
  | none => path != .i3c && path != .debug && path != .jtag

/-- A write through the fabric management window is refused: it lacks the fabric manager's credential, or its page is SEC or DBG (R502). -/
def Blk.fmwRefuses (b : Blk) (path : Path) (p : Option Nat) : Bool :=
  match path with
  | .fabric src tenant => !(b.flag Reg.SEC_FM_EN && src.toNat == b.get Reg.SEC_FM_NODE && tenant == 0) || p == some Pg.sec || p == some Pg.dbg
  | _ => false

/-- A write that finds nothing there is counted (R555, R572). -/
def Blk.absentWrite (b : Blk) : Blk := (b.count Reg.GLB_ABSENT_CNT).err Pg.glb 4

/-- A page's block is in an L2 reset. -/
def Blk.pageInL2 (b : Blk) (p : Nat) : Bool := b.aon.mode == .l2 && pagesL2.contains p

/-- One write of one width to a page that a path reaches (all but `poke`, which reaches a page through another command). -/
def Die.pageWrite (w : World) (d : Die) (path : Path) (poke : Bool) (p off n v : Nat) : Die :=
  if accessOk p off n = false then d
  else if p = Pg.sec ∧ off = 0x44 then d.secWrite w v
  else if p = Pg.glb ∧ off = 0x140 then d.norCmdWrite v
  else d.on fun z b => b.regWrite z w path poke path.num p off n v

/-- Bytes of the register that starts at an aligned offset of a page, 4 in an area of several words; 0 inside a 64-bit register. -/
def regBytes (p off : Nat) : Nat :=
  if (areaOf (spaceOf p).1 off).isSome then 4 else if isWide p off then 8 else if isWide p (off / 8 * 8) then 0 else 4

/-- The registers of a page, as (offset, bytes), that a TLP of `n` bytes covers whole, in ascending order; `holes`: its bytes that no byte enable names
(R558). -/
def covered (p off n : Nat) (holes : List Nat) : List (Nat × Nat) :=
  (((List.range (n / 4 + 1)).map fun i => (off + 3) / 4 * 4 + 4 * i).map fun o => (o, regBytes p o)).filter fun x =>
    decide (0 < x.2) && decide (x.1 + x.2 ≤ off + n) && holes.all fun k => decide (off + k < x.1) || decide (x.1 + x.2 ≤ off + k)

/-- A TLP's write at a BAR0 offset: each register it covers is written in turn (R558), while the part answers. -/
def Die.spread (d : Die) (p off n : Nat) (holes : List Nat) (v : Nat) (one : Die → Nat → Nat → Nat → Die) : Die :=
  let m := d.blk.aon.mode
  (covered p off n holes).foldl (fun d x =>
    if d.blk.aon.mode ≠ m ∧ d.blk.alive = false then d
    else if d.blk.pageInL2 p then d.on fun _ b => b.absentWrite
    else one d x.1 x.2 (v / 2 ^ (8 * (x.1 - off)) % 2 ^ (8 * x.2))) d

/-- DBG `poke` (R518): a write that acts is logged before it does, as it may reset the part (R519). -/
def Die.poke (w : World) (d : Die) : Die :=
  let off := d.blk.get Reg.DBG_POKE_ADDR_OFFSET
  let v := d.blk.get Reg.DBG_DATA_DATA
  if d.blk.unsettled then d.on fun _ b => b.cmd dbgCmd none fun b => b.cmdEnd dbgCmd busy
  else if d.blk.get dbgCmd.done = 0 then d.on fun _ b => b.put dbgCmd.code busy
  else
    let d := d.on fun _ b => b.cmdStart dbgCmd
    let done (d : Die) (code : Nat) : Die := d.on fun _ b => b.dbgEnd 7 code 0
    let acts (f : Die → Die) : Die := (f (d.on fun _ b => b.logDebug 7 ok b.level 0)).on fun _ b => if b.alive then b.cmdEnd dbgCmd ok else b
    if d.blk.level ≠ 2 then done d denied
    else if off % 8 ≠ 0 then done d badRange
    else
      match pageAt (off / 4096) with
      | none => acts fun d => d.on fun _ b => b.absentWrite
      | some p =>
        if d.blk.reaches .debug p = false then done d denied
        else acts fun d => d.spread p (off % 4096) 8 [] v fun d o n v => d.pageWrite w .debug true p o n v

/-- A write of one register that a path reaches. -/
def Die.regAccess (w : World) (d : Die) (path : Path) (p off n v : Nat) : Die :=
  if p = Pg.dbg ∧ off = 0x40 ∧ n = 4 ∧ bits v 31 28 = 7 then d.poke w else d.pageWrite w path false p off n v

/-- A write of `n` bytes at a BAR0 offset on a path: over PCIe a TLP, with the bytes `holes` not enabled, on another path one register. -/
def Die.busWrite (w : World) (d : Die) (path : Path) (off n v : Nat) (holes : List Nat := []) : Die :=
  match pageAt (off / 4096 % 16384) with
  | none => if d.blk.opensTo path none then d.on fun _ b => b.absentWrite else d
  | some p =>
    if d.blk.reaches path p = false then d
    else if path = .bar0 then d.spread p (off % 4096) n holes v fun d o n v => d.regAccess w path p o n v
    else if d.blk.pageInL2 p then d.on fun _ b => b.absentWrite
    else d.regAccess w path p (off % 4096) n v

/-- Registers of a page read in turn: the value of the whole, whose lowest byte lies at `off`. -/
def Blk.readAll (z : Fuse) (pn p off : Nat) : List (Nat × Nat) → Nat × Blk → Nat × Blk
  | [], x => x
  | (o, n) :: l, (v, b) =>
    let (u, b) := if b.pageInL2 p = true ∧ 0x40 ≤ o then (0, b) else b.readReg z pn p o n
    Blk.readAll z pn p off l (v + u * 2 ^ (8 * (o - off)), b)

/-- A read of `n` bytes at a BAR0 offset on a path: `tlp` of every register that the bytes cover, else of the one register there. -/
def Blk.busRead (z : Fuse) (b : Blk) (path : Path) (tlp : Bool) (off n : Nat) (holes : List Nat := []) : Nat × Blk :=
  match pageAt (off / 4096 % 16384) with
  | none => (0, b)
  | some p =>
    let o := off % 4096
    if b.reaches path p = false then (0, b)
    else Blk.readAll z path.num p o (if tlp then covered p o n holes else [(o, n)]) (0, b)

/-! ### The fabric management window (R574, R502) -/

/-- A request is served against BAR0 at an offset: the answer's opcode, status and line. -/
def Die.fmwServe (d : Die) (f : Frame) (off : Nat) : (Nat × Nat × Line) × Die :=
  let o := f.op
  let n := f.plen
  if o = Opc.rdLine ∨ o = Opc.rdLineNa ∨ o = Opc.rdVol then
    let (v, b) := d.blk.busRead d.fuse (.fabric f.src f.tenant) true (off / 64 * 64) 64
    ((Opc.rspData, St.ok, .ofNat 512 v), { d with blk := b.count Reg.GLB_FMW_REQ_CNT })
  else if o = Opc.wrPartial ∧ (n = 4 ∨ n = 8) ∧ off % n = 0 then
    if d.blk.fmwRefuses (.fabric f.src f.tenant) (pageAt (off / 4096 % 16384)) = true then
      ((Opc.rspErr, St.rights, 0), d.on fun _ b => b.err Pg.sec 3)
    else ((Opc.rspAck, St.ok, 0), (d.busWrite {} (.fabric f.src f.tenant) off n (lineGet f.data (off % 64) n)).on fun _ b => b.count Reg.GLB_FMW_REQ_CNT)
  else ((Opc.rspErr, St.unsupported, 0), d)

end Sys2Proof.Machine
end

