-- ==== Sys2Proof/Machine/Boot.lean ====
section
/-! DEFINITION. Boot and what else follows the release of a reset (R483 to R486, Table 16.9), resume from P3 (R498, R508) and the way
back from an L2 reset (Table 16.3). -/
namespace Sys2Proof.Machine

/-! ### What boot does at its steps -/

/-- The limit of failed starts (R485). -/
def Fuse.startLimit (z : Fuse) : Nat := if z.limit = 0 then 3 else z.limit.toNat

/-- GLB_MGMT_IP at reset (R590). -/
def Fuse.ip (z : Fuse) : Nat :=
  let b := z.serial.toNat % 256
  0xA9FE0000 + z.serial.toNat / 256 % 256 * 256 + (if b = 0 then 1 else if b = 255 then 254 else b)

/-- The fuses' station address, and the address that follows from the serial (R590). -/
def Blk.ownAddress (z : Fuse) (b : Blk) : Blk := (b.put Reg.GLB_MGMT_MAC_MAC z.mac.toNat).put Reg.GLB_MGMT_IP_IP z.ip

/-- GLB_BOOT_STATUS.STAGE. -/
def Blk.atStage (b : Blk) (k : Nat) : Blk := b.put Reg.GLB_BOOT_STATUS_STAGE k

/-- A failed boot (R484). -/
def Blk.bootFail (z : Fuse) (b : Blk) (code : Nat) : Blk := ((b.put Reg.GLB_BOOT_STATUS_FAIL_CODE code).reset z 3 none).bootOver

/-- Recovery mode is entered (R486, R473). -/
def Blk.enterRecovery (b : Blk) : Blk :=
  let b := ((b.put Reg.GLB_BOOT_STATUS_RECOVERY 1).atStage 0xE).err Pg.glb 3
  let b := b.each (List.range 96) fun b t => b.put Reg.TILE_STATE_STATE Ts.gated t
  let b := b.each [Pg.glb, Pg.sec, Pg.time] fun b p => b.put Reg.PAGE_STATUS_READY 1 p
  ((b.pinsOn 0xF).setAon fun a => { a with wdog := none, wake := 0 }).enter .run

/-- Step 2 of Table 16.9: the watchdog is armed, the failed-start counter checked (R485). `true`: recovery mode. -/
def Blk.checkStart (z : Fuse) (b : Blk) (force : Bool) : Bool × Blk :=
  let b := ((b.enter (.boot 2)).setAon fun a => { a with wdog := some b.el }).atStage 2
  let n := b.get Reg.GLB_FAILED_START_COUNT
  let b := if n = 0 then b else b.err Pg.glb 2
  if force = true ∨ z.startLimit ≤ n then (true, b)
  else (false, (b.put Reg.GLB_FAILED_START_COUNT (Nat.min 15 (n + 1))).pinsOn 7 |>.put Reg.PWR_VCORE_STATUS_VCORE_MV 750)

/-- The image of a slot runs (step 4); `pref` is the winning copy's slot. -/
def Blk.runImage (b : Blk) (slot pref : Nat) : Blk :=
  let h := b.norBytes (slotBase slot) 64
  let b := (b.puts 0 [(Reg.GLB_BOOT_STATUS_FW_SLOT, slot), (Reg.GLB_FW_VERSION_VERSION, ofNatBytes (slice_ h 8 8)), (Reg.GLB_SVN_RUN_SVN, nth 0 h 16)]).setAon
    fun a => { a with image := ofNatBytes (slice_ h 24 32) }
  if slot = pref then b else b.err Pg.glb 0

/-- The slot that boots (R483): COUNT was even before step 2 raised it, so the preferred slot is tried first, else the other. -/
def Blk.bootSlot (z : Fuse) (b : Blk) (odd : Bool) (pref : Nat) : Option Nat :=
  let first := if odd then 1 - pref else pref
  [first, 1 - first].find? fun s => b.slotCode z s == ok

/-- Step 3: the copies are read and one wins. -/
def Blk.takeCopy (b : Blk) (slot : Nat) (c : CfgCopy) : Blk :=
  let b := if (b.cfgCopy 0).isNone ∨ (b.cfgCopy 1).isNone then b.err Pg.glb 1 else b
  (b.put Reg.GLB_BOOT_STATUS_CFG_SLOT slot).setAon fun a => { a with loser := some (1 - slot), cfgSeq := c.seq, cfgHash := c.hash }

/-- The page an entry of the copy names: firmware means PCH_CTRL and PCH_RATE of channel 16 where QMGR, whose page number that channel
shares, has its command and status registers (Table 9.9; log entry 5). -/
def CfgEntry.page (e : CfgEntry) : Option Nat :=
  if e.off / 4096 = 0x90 ∧ (e.off % 4096 = 0x40 ∨ e.off % 4096 = 0x44) then some (Pg.pch 16) else pageAt (e.off / 4096)

/-- The pages that the copy's entries with LOCK name, and HBM stack page 0 (R481, R225). -/
def lockPages (c : CfgCopy) : List Nat := ((c.entries.filter (·.lock)).filterMap fun e => e.page) ++ [Pg.hbm 0]

/-- One entry of the copy is applied (R481); nothing more of it is once one has reset the part. -/
def Die.cfgApply (w : World) (d : Die) (e : CfgEntry) : Die :=
  if d.blk.aon.mode ≠ .boot 5 then d
  else if e.off / 4096 = Pg.sec ∨ e.off / 4096 = Pg.dbg then
    d.on fun _ b => b.put Reg.GLB_BOOT_STATUS_CFG_SKIPPED (b.get Reg.GLB_BOOT_STATUS_CFG_SKIPPED + 1)
  else if e.page = some (Pg.pch 16) then d.spread (Pg.pch 16) (e.off % 4096) e.width [] e.value fun d o n v => d.pageWrite w .bar0 false (Pg.pch 16) o n v
  else d.busWrite w .bar0 e.off e.width e.value

/-- Step 6: the stacks of STACK_EN are trained (R225, R226). -/
def Blk.trainStacks (z : Fuse) (b : Blk) (bad : List Nat) : Blk :=
  let en := b.get Reg.HBM_GLB_STACK_EN
  let b := (b.each (List.range 12) fun b k =>
    b.put Reg.HBM_STATE_STACK_STATE (if bitAt en k = false then Stk.disabled else if bad.contains k then Stk.lost else Stk.up) k).storePowerUp
  if (List.range 12).all (fun k => b.get Reg.HBM_STATE_STACK_STATE k != Stk.up) = true ∨
      (List.range 12).any (fun k => b.get Reg.HBM_STATE_STACK_STATE k == Stk.lost) = true then b.bootFail z 3 else b

/-- The pool and its frame table (R259). -/
def Blk.makePool (b : Blk) : Blk :=
  let total := b.sloughBase / 1024
  let table := (total * 16 + 65535) / 65536
  let b := (b.put Reg.TIER_POOL_TOTAL_FRAMES total).put Reg.TIER_POOL_FREE_FRAMES total
  let b := b.each (List.range table) fun b _ => match b.freeFrame with
    | (some f, b) => (let (k, b) := b.draw (2 ^ 31); b.useFrame f 0 k true)
    | (none, b) => b
  b.pinFrames table

/-! ### The Peat map region (R283) -/

/-- The units of the four apertures. -/
def Blk.apertureUnits (b : Blk) : List (Nat × Nat) :=
  [(b.get Reg.QMGR_DB_BASE_BASE, 1024), (b.get Reg.EMB_XAP_BASE_BASE, 1), (b.get Reg.VSE_XAP_BASE_BASE, 1), (b.get Reg.GLB_FMW_BASE_BASE, 1)]

/-- The highest run of `n` units that meets none of the apertures: a run that could be moved up ends at the top or below one. -/
def Blk.mapRun (b : Blk) (n : Nat) : Option Nat :=
  let ends := 2 ^ 21 :: b.apertureUnits.map (·.1)
  let bases := (ends.filter fun e => decide (n ≤ e)).map fun e => e - n
  let fit := bases.filter fun x => b.apertureUnits.all fun u => !meet x n u.1 u.2
  fit.foldl (fun (o : Option Nat) (x : Nat) => match o with
    | none => some x
    | some y => some (Nat.max x y)) none

/-- Take `n` free frames for descriptor `d`, the first `m` for its block map. -/
def Blk.mapFrames (d m : Nat) : Nat → Blk → List Nat → List Nat × Blk
  | 0, b, got => (got, b)
  | n + 1, b, got =>
    match b.freeFrame with
    | (none, b) => (got, b)
    | (some f, b) =>
      let k := got.length
      let (blk, b) := if k < m then b.draw (2 ^ 31) else (b.get Reg.place_LOCAL_BASE d * 1024 + (k - m), b)
      mapFrames d m n (b.useFrame f 0 blk true) (got ++ [f])

/-- The map region is placed at entry 4,095, once its size is known. -/
def Blk.placeMap (b : Blk) : Blk :=
  let d := 4095
  let n := b.get Reg.PEAT_MAP_UNITS_UNITS
  if n = 0 ∨ b.get Reg.place_STATE d ≠ 0 then b
  else
    match b.mapRun n with
    | none => b
    | some base =>
      let b := b.puts d [(Reg.place_CLASS, Cls.resident), (Reg.place_TENANT, 0), (Reg.place_LOCAL_BASE, base), (Reg.place_SIZE, n)]
      if b.get Reg.TIER_POOL_FREE_FRAMES < b.pinsOf d + b.mapFramesOf d then b.clearEntry .t_place d
      else
        let (got, b) := Blk.mapFrames d (b.mapFramesOf d) (b.pinsOf d + b.mapFramesOf d) b []
        b.placedIn d got

/-- Firmware reads the geometry of the dies that the configuration copy enables, and places the map region (R278, R283); where it has not
found it, the region is placed when the channels have trained (log entry 40). -/
def Blk.readGeometry (b : Blk) : Option Geom → Blk
  | none => b
  | some g =>
    if b.populated = false ∨ g.ok = false then b
    else
      let b := b.puts 0 [(Reg.PEAT_GEOM_BLOCKS, g.blocks), (Reg.PEAT_GEOM_PAGES, g.pages), (Reg.PEAT_GEOM_DIES, b.nandDies)]
      (b.put Reg.PEAT_MAP_UNITS_UNITS b.mapUnits).placeMap

/-- Step 7. -/
def Blk.placeStore (z : Fuse) (b : Blk) (c : CfgCopy) (keyFail : Bool) (geom : Option Geom) : Blk :=
  if keyFail then b.bootFail z 5
  else
    let b := (((b.loadKey 0 z.systemKey).makePool).readGeometry geom).pinsOn 16
    b.each (lockPages c) fun b p => b.put Reg.PAGE_LOCK_LOCK 1 p

/-- Tiles that are not retired run their canaries, and enter `run` where they pass (step 8; R551). -/
def Blk.startTiles (b : Blk) (bad : List (Nat × Nat)) : Blk :=
  let l := (List.range 96).filter fun t => b.tileState t != Ts.retired && b.tileState t != Ts.gated
  let b := b.each l fun b t => b.put Reg.TILE_STATE_STATE Ts.run t
  let b := b.checkTiles.each l fun b t => b.canary t 0 (failOf bad t)
  b.setAon fun a => { a with idle := l.foldl (fun m t => Sparse.set 0 m t b.el) a.idle }

/-- Ports with ENABLE begin bring-up, and their lasers may light (step 9). -/
def Blk.startPorts (b : Blk) : Blk :=
  let l := (List.range 24).filter fun p => b.flag Reg.FQP_CTRL_ENABLE p
  (b.each l Blk.attempt).pinsOn (if l = [] then 0 else 32)

/-- Step 9: the local route entry (R117), ports, READY. -/
def Blk.openPages (b : Blk) : Blk :=
  let b := b.puts b.node [(Reg.route_V, 1), (Reg.route_LOCAL, 1)]
  b.startPorts.each allPages fun b p => b.put Reg.PAGE_STATUS_READY 1 p

/-- Step 10: boot is done. -/
def Blk.bootDone (b : Blk) : Blk :=
  let b := (((b.put Reg.GLB_FAILED_START_COUNT 0).atStage 10).setAon fun a => { a with wdog := some b.el, wake := 0, beaconAt := b.now, sliceAt := b.el })
  (b.enter .run).stepVcore

/-- Step `k` of Table 16.9 begins where the one before has ended, and is done unless firmware stalls in it. -/
def Die.bootStep (o : BootIn) (k : Nat) (f : Die → Die) (d : Die) : Die :=
  if d.blk.aon.mode ≠ .boot (k - 1) then d
  else
    let d := d.on fun _ b => (b.enter (.boot k)).atStage k
    if o.stall = k then d else f d

/-- Steps 5 to 10, on firmware. -/
def Die.bootFirmware (o : BootIn) (c : CfgCopy) (d : Die) : Die :=
  let d := d.bootStep o 5 fun d =>
    let d := c.entries.foldl (Die.cfgApply o.world) d
    if d.blk.aon.mode = .boot 5 then d.on fun _ b => b.pinsOn 8 else d
  let d := d.bootStep o 6 fun d => d.on fun z b => b.trainStacks z o.badStacks
  let d := d.bootStep o 7 fun d => d.on fun z b => b.placeStore z c o.keyFail o.geom
  let d := d.bootStep o 8 fun d => d.on fun _ b => b.startTiles o.badTiles
  let d := d.bootStep o 9 fun d => d.on fun _ b => b.openPages
  d.bootStep o 10 fun d => d.on fun _ b => b.bootDone

/-- Boot after L0 or L1. -/
def Die.boot (o : BootIn) (d : Die) : Die :=
  let odd := d.blk.get Reg.GLB_FAILED_START_COUNT % 2 == 1
  let (rec_, b) := (d.blk.ownAddress d.fuse).checkStart d.fuse o.force
  let d := { d with blk := b }
  if rec_ then d.on fun _ b => b.enterRecovery
  else
    let d := d.on fun _ b => (b.enter (.boot 3)).atStage 3
    match d.blk.cfgWinner with
    | none => d.on fun z b => b.bootFail z 1
    | some (slot, c) =>
      let d := d.on fun _ b => (((b.takeCopy slot c).enter (.boot 4)).atStage 4)
      match d.blk.bootSlot d.fuse odd c.pref with
      | none => d.on fun z b => b.bootFail z 2
      | some s => (d.on fun _ b => b.runImage s c.pref).bootFirmware o c

/-! ### Resume from P3 (R498, R508) -/

/-- The saved state is back: key slots but for the lost ones, queues to the state they had. -/
def Blk.restore (b : Blk) (o : BootIn) : Blk :=
  let b := b.each o.lostKeys fun b s => if b.loaded s then b.dropKey s else b
  let qs := match b.aon.entry with
    | some e => e.queues
    | none => []
  let b := b.each qs fun b q => if b.get Reg.qctx_STATE q = Qst.stopped then (b.put Reg.qctx_STATE Qst.ready q).queueWaits q else b
  b.setAon fun a => { a with retKey := none, entry := none }

/-- A wake from P3 ends in recovery mode: no stack is trained, so all that was saved in the pool is lost; the AON island keeps the debug level (R486,
R498, R520). -/
def Blk.coldRecovery (z : Fuse) (b : Blk) (force : Bool) : Blk :=
  let keep := [Reg.DBG_STATE_LEVEL, Reg.DBG_EXPIRY_TIME].map fun f => (f, b.get f)
  ((((b.clearL1.puts 0 keep).ownAddress z).checkStart z force).2).enterRecovery

/-- Resume: steps 2 and 4, then firmware restores the state and goes on to step 10. -/
def Die.resume (o : BootIn) (d : Die) : Die :=
  let odd := d.blk.get Reg.GLB_FAILED_START_COUNT % 2 == 1
  let was := d.blk
  let (rec_, b) := d.blk.checkStart d.fuse o.force
  let d := { d with blk := b }
  if rec_ then { d with blk := was.coldRecovery d.fuse o.force }
  else
    let pref := (d.blk.cfgWinner.map (·.2.pref)).getD 0
    let d := d.on fun _ b => (b.enter (.boot 4)).atStage 4
    match d.blk.bootSlot d.fuse odd pref with
    | none => d.on fun z b => b.bootFail z 2
    | some s =>
      let d := d.on fun _ b => (b.runImage s pref).enter (.boot 6)
      let d := d.bootStep o 7 fun d => d.on fun _ b => (b.restore o).pinsOn 0x1F
      let d := d.bootStep o 8 fun d => d.on fun _ b => b.startTiles o.badTiles
      let d := d.bootStep o 9 fun d => d.on fun _ b => b.startPorts
      d.bootStep o 10 fun d => d.on fun _ b => b.bootDone

/-! ### The release of a reset -/

/-- Steps 4 and 5 of an L2 reset (Table 16.3); in recovery mode there is no tile or port to bring back (R486). -/
def Blk.l2Return (b : Blk) (bad : List (Nat × Nat)) : Blk :=
  if b.recovery then b.enter .run
  else
    let b := b.startTiles bad
    let b := b.each pagesL2 fun b p => b.put Reg.PAGE_STATUS_READY 1 p
    b.startPorts.enter .run

/-- RESET_RELEASE: firmware has the part back after L2, or an L0 or L1 reset is released where its time has come. -/
def Die.release (d : Die) (o : BootIn) : Die :=
  match d.blk.aon.mode with
  | .l2 => d.on fun _ b => b.l2Return o.badTiles
  | .reset _ =>
    if d.blk.past d.blk.aon.ready 0 then
      let d := d.on fun _ b => b.setAon fun a => { a with up := false }
      if d.blk.aon.wake = 3 then d.resume o else d.boot o
    else d
  | _ => d

end Sys2Proof.Machine
end

