-- ==== Sys2Proof/Machine/Settle.lean ====
section
/-! DEFINITION. What follows a command by itself: the home, the tiers, the engines, PCIe and the tiles go on until each waits for
something outside (log entry 27), and the fabric management window is served. -/
namespace Sys2Proof.Machine

/-! ### Outcomes of requests the part originated -/

/-- An outcome goes to whoever asked. -/
def Blk.takeResult (b : Blk) (x : Agent × Nat × Line) : Blk :=
  match x with
  | (.work w op, st, d) => b.workResult w op st d
  | (.bar4 id piece, st, d) => b.bar4Result id piece st d
  | (.mirror q r, st, _) => b.protAck q r st
  | (.parity q r, st, _) => b.protAck q r st
  | (.repair q r ra, st, d) => b.repairDone q r ra st d
  | (.scrub r ra, st, d) => b.scrubRepaired r ra st d
  | (.prot r j, st, d) => b.protStep r j st d
  | (.beacon _, st, _) => b.beaconResult st

/-- Every outcome is taken, in order. -/
def Blk.takeResults (b : Blk) : Blk := { b with orig := { b.orig with results := [] } }.each b.orig.results Blk.takeResult

/-! ### Engines -/

/-- Works go on until none changes anything, for at most `n` rounds. -/
def Blk.settleWorks : Nat → Blk → Blk
  | 0, b => b
  | n + 1, b => if b.eng.works = [] then b else if b.worksStep = b then b else settleWorks n b.worksStep

/-- Frames held at an ingress port that have room now, frames no command brings, the home, the tiers and the PROT command. -/
def Blk.settleStore (b : Blk) : Blk := b.ingressMove.strays.settleHome.settleTier.settlePeat.settleFreeze

/-- The engines with what they hold of tables, channels and streams. -/
def Blk.settleEngines (b : Blk) : Blk := ((b.settleWorks 64).trimUpd).settleChans.settleStreams

/-! ### The fabric management window -/

/-- One access is served and answered (R574). -/
def Die.serveOne (d : Die) (x : Nat × Frame × Nat) : Die :=
  if d.blk.on = false then d
  else
    let ((opc, st, line), d) := d.fmwServe x.2.1 x.2.2
    d.on fun _ b => match b.req? x.1 with
      | some q => ((b.dropReq q.id).leaveAll q).respond q.fr opc st line
      | none => b

/-- Every access that has come to the window, in order. -/
def Die.serveBus (d : Die) : Die :=
  d.blk.home.busQ.foldl Die.serveOne { d with blk := { d.blk with home := { d.blk.home with busQ := [] } } }

/-! ### All of it -/

/-- Threads, stops, slices, forced tiles, the idle times of tiles and how many serve. -/
def Blk.settleTiles (b : Blk) : Blk := b.settleThreads.settleStop.settleTenant.settleExpiry.settleSlice.settleFull.settleForce.settleIdle.checkTiles

/-- What stands of errors and of their interrupt. -/
def Blk.settleSigns (b : Blk) : Blk := b.settleFatal.settleInt

/-- What is done at once while the whole part serves. -/
def Die.settleAll (d : Die) : Die :=
  (d.on fun _ b => b.settleStore.takeResults.settleEngines).serveBus.on fun _ b => b.settleStore.takeResults.settleEngines.settleBar4.settleTiles

/-- After every command. -/
def Die.settle (d : Die) : Die :=
  let d := if d.blk.on then d.settleAll else d
  if d.blk.alive then d.on fun _ b => b.settleSigns else d

/-! ### How a command comes to the part -/

/-- What a command drives or sends is new with it. -/
def Die.fresh (d : Die) : Die := d.on fun _ b => { b with emits := [] }

/-- A command to a unit that serves while the whole part does; else nothing takes it (log entry 28). -/
def Die.whileOn (d : Die) (f : Blk → Blk) : Die := if d.blk.on then (d.fresh.on fun _ b => f b).settle else d.fresh

/-- A command to the management cores, which also run in recovery mode and through an L2 reset; at D3 the core is held for scan (Table 17.5). -/
def Die.whileAlive (d : Die) (f : Fuse → Blk → Blk) : Die := if d.blk.served then (d.fresh.on f).settle else d.fresh

/-- A command on the PCIe link, which trains from step 2 of a boot on (Table 16.9). -/
def Die.whilePcie (d : Die) (f : Blk → Blk) : Die := if d.blk.pcieOn then (d.fresh.on fun _ b => f b).settle else d.fresh

/-- A command to a unit that an L2 reset leaves alone. -/
def Blk.kept (b : Blk) : Bool := b.alive && !b.recovery && b.level != 3

def Die.whileKept (d : Die) (f : Blk → Blk) : Die := if d.blk.kept then (d.fresh.on fun _ b => f b).settle else d.fresh

/-- A write through a path to a page, or to an absent one: `f` where the path reaches it (R571, R486). A write through the fabric window that R502
refuses records that, and the debug path is DBG `poke` alone. -/
def Die.whilePath (d : Die) (path : Path) (page : Option Nat) (f : Die → Die) : Die :=
  let d := d.fresh
  if d.blk.answers path = false ∨ path = .debug ∨ d.blk.opensTo path page = false then d
  else if d.blk.fmwRefuses path page then (d.on fun _ b => b.err Pg.sec 3).settle
  else (f d).settle

/-- A command through a path to a register of a page: the page's own meaning `f`, but while its block is in an L2 reset (R572). -/
def Die.whilePage (d : Die) (path : Path) (p : Nat) (f : Die → Die) : Die :=
  d.whilePath path (some p) fun d => if d.blk.pageInL2 p then d.on fun _ b => b.absentWrite else f d

/-- A read through a path. -/
def Die.whileRead (d : Die) (path : Path) (f : Die → Die) : Die :=
  if d.blk.answers path = false ∨ path = .debug then d.fresh else (f d.fresh).settle

/-- A command to the AON island or the board, whatever the state. -/
def Die.always (d : Die) (f : Fuse → Blk → Blk) : Die := (d.fresh.on f).settle

end Sys2Proof.Machine
end

