-- ==== Sys2Proof/Machine/Ports.lean ====
section
/-! DEFINITION. Requests for registers beside BAR0: the management port (R573), the I3C sideband (R522), absent pages (R555), reads with
an effect (R536, Table 18.13) and the clearing of counters (R537). -/
namespace Sys2Proof.Machine

/-! ### The management port -/

/-- The fields of a datagram (Table 19.8), byte 0 lowest. -/
def dgMagic (m : Nat) : Nat := bits m 15 0
def dgOp (m : Nat) : Nat := bits m 23 16
def dgWidth (m : Nat) : Nat := bits m 31 24
def dgSeq (m : Nat) : Nat := bits m 63 32
def dgOffset (m : Nat) : Nat := bits m 95 64
def dgData (m : Nat) : Nat := bits m 191 128

/-- MAGIC, OP, WIDTH and the zero bytes are as Table 19.8 gives. -/
def dgOk (m : Nat) : Bool :=
  dgMagic m == 0x4B52 && (dgOp m == 1 || dgOp m == 2) && (dgWidth m == 4 || dgWidth m == 8) && bits m 127 104 == 0 &&
  (dgWidth m == 8 || bits m 191 160 == 0)

/-- A register access on a path that answers with a status: the page is one the path reaches. -/
def Blk.refusesAt (b : Blk) (path : Path) (off : Nat) : Bool :=
  match pageAt (off / 4096) with
  | some p => !b.reaches path p
  | none => b.recovery

/-- A request datagram acts and is answered at the address and port it came from. -/
def Die.datagram (d : Die) (srcIp srcPort m : Nat) : Die :=
  let off := dgOffset m
  let answer (st v : Nat) (d : Die) : Die :=
    d.on fun _ b => (b.count Reg.GLB_MGMT_REQ_CNT).emit (.mgmt srcIp srcPort (dgOp m + 128) (dgWidth m) (dgSeq m) off st v)
  if dgOk m = false then d.on fun _ b => b.count Reg.GLB_MGMT_BAD_CNT
  else if 0x4000000 ≤ off then answer badRange (dgData m) d
  else if d.blk.refusesAt .mgmt off then answer denied (dgData m) d
  else if dgOp m = 2 then answer ok (dgData m) (d.busWrite {} .mgmt off (dgWidth m) (dgData m))
  else
    let (v, b) := d.blk.busRead d.fuse .mgmt false off (dgWidth m)
    answer ok v { d with blk := b }

/-- MGMT_UDP_REQUEST: a datagram that reaches the port, for its address and port or not. -/
def Die.mgmtUdp (d : Die) (ip port srcIp srcPort m : Nat) : Die :=
  if ip = d.blk.get Reg.GLB_MGMT_IP_IP ∧ port = d.blk.get Reg.GLB_MGMT_UDP_PORT then d.datagram srcIp srcPort m else d

/-- MGMT_ARP_REQUEST. -/
def Blk.mgmtArp (b : Blk) (ip : Nat) : Blk :=
  if ip = b.get Reg.GLB_MGMT_IP_IP then b.emit (.arp ip (b.get Reg.GLB_MGMT_MAC_MAC)) else b

/-! ### The sideband -/

/-- A register request: an access to any page the sideband does not reach is answered `denied`. The answer to a command or
width that R522 does not give is open. -/
def Die.sideband (d : Die) (m : Nat) : Die :=
  let cmd := bits m 7 0
  let off := bits m 39 8
  let n := bits m 47 40
  let answer (okay : Bool) (v : Nat) (d : Die) : Die := d.on fun _ b => b.emit (.i3c off v okay)
  let page := ((pageAt (off / 4096)).map fun p => d.blk.reaches .i3c p).getD false
  if page = false then answer false 0 d
  else if (cmd ≠ 1 ∧ cmd ≠ 2) ∨ (n ≠ 4 ∧ n ≠ 8) then
    let (k, b) := d.blk.draw 2
    answer (k == 0) 0 { d with blk := b }
  else if cmd = 2 then answer true (bits m 111 48) (d.busWrite {} .i3c off n (bits m (47 + 8 * n) 48))
  else
    let (v, b) := d.blk.busRead d.fuse .i3c false off n
    answer true v { d with blk := b }

/-- I3C_MCTP_REQUEST: the control commands answer as DSP0236 gives (log entry 29). -/
def Die.mctp (d : Die) (m : Mctp) : Die :=
  match m with
  | .setEid e =>
    if e = 0 ∨ e = 0xFF then d.on fun _ b => b.emit (.mctp [2])
    else d.on fun _ b => (b.setAon fun a => { a with eid := e.toNat }).emit (.mctp [0, 0, e.toNat, 0])
  | .getEid => d.on fun _ b => b.emit (.mctp [0, b.aon.eid, 0, 0])
  | .versions => d.on fun _ b => b.emit (.mctp [0, 1, 0xF1, 0xF3, 0xFF, 0x00])
  | .types => d.on fun _ b => b.emit (.mctp [0, 1, 0x7F])
  | .register m => d.sideband m.toNat

/-! ### Accesses named by their effect -/

/-- ABSENT_PAGE_ACCESS: a write is discarded and counted, a read returns zero; where the page is present nothing is done. -/
def Blk.absentAccess (b : Blk) (off : Nat) (write : Bool) : Blk :=
  if (pageAt (off / 4096 % 16384)).isSome then b
  else if write then b.absentWrite
  else b.emit (.bar off 4 0)

/-- RC_FIELD_READ, as any read of a register: the value read is handed out. -/
def Die.readAccess (d : Die) (path : Path) (off n : Nat) (holes : List Nat) : Die :=
  let (v, b) := d.blk.busRead d.fuse path (path == .bar0) off n holes
  { d with blk := b.emit (.bar off n v) }

/-- COUNTER_OVF_CLEAR (R537): writing 1 to OVF of the statistics counter at an offset of a page. -/
def Blk.ovfClear (b : Blk) (p off : Nat) : Blk :=
  let (sp, i, o) := regSpace 0 p off
  b.each ((fieldsAt sp o 8).filter fun f => f.w == 1 && f.bit % 64 == 63 && f.acc == .w1c) fun b f => b.writeFld true i 1 f

end Sys2Proof.Machine
end

