-- ==== Sys2Proof/Machine/Operands.lean ====
section
/-! DEFINITION. The forms in which commands name what they act on: a frame of a given operation, a stream at a sink, a handoff
descriptor of a given kind. -/
namespace Sys2Proof.Machine

/-- A frame of one operation arrives at its home. -/
def Blk.arriveAs (b : Blk) (opc : Nat) (f : Frame) : Blk := b.arrive { f with opc := .ofNat 8 opc }

/-- HOLE_TIMEOUT (R130): a stream that holds frames behind a hole has waited HOLE_US. -/
def Blk.holeTimeout (b : Blk) (sink src dst tc : Nat) : Blk :=
  let s := b.stream sink src dst tc
  if s.held ≠ [] ∧ b.past s.timer (us (b.get Reg.SWC_RESEQ_HOLE_US)) = true then b.closeHole s else b

/-- A TIER_HANDOFF descriptor whose OP is `sel` (Table 8.8) starts; so does one of OP 0b11, which ends MALFORMED (Table 8.9) and which any of the
three rows names (log entry 97). -/
def Blk.startHandoff (b : Blk) (sel q i : Nat) : Blk :=
  if b.eng.works.any fun w => w.kind == 0 && w.queue == q && w.index == i && (w.f 27 1 0 == sel || w.f 27 1 0 == 3) then b.startOp Dop.handoff q i else b

end Sys2Proof.Machine
end

