-- ==== Sys2Proof/Machine/State.lean ====
section
/-! DEFINITION. The state of the part: its fuses, everything else the spec gives it, and the commands that wait. -/
namespace Sys2Proof.Machine

/-- The part. `fuse`: one-time-programmable bits (R503, R504, R590, Table 16.13). `blk`: registers, tables, buffers, engines
and the AON island. `pending`: commands waiting, first in, first out. -/
structure State where
  fuse : Fuse := {}
  blk : Blk := {}
  pending : List Instr := []
  deriving DecidableEq, Repr

/-- Reasons to stop. The spec gives every command an effect, so no meaning raises one. -/
inductive Fault where
  deriving DecidableEq, Repr

/-- Refusals. -/
inductive Refusal where
  /-- A command that has no meaning: raised by `exec`'s own arms alone, and safe, since the machine stops. No arm raises it. -/
  | notModelled (mnemonic : String)
  deriving DecidableEq, Repr

/-- The part in the L0 reset that power-on begins (R584, Table 20.6), its rails good and its release due: every register at its reset
value, nothing stored, no command waiting. -/
def State.reset : State := {}

end Sys2Proof.Machine
end

