-- ==== Sys2Proof/Machine/Command.lean ====
section
/-! DEFINITION. How a command's meaning is made from an operation of the part: which states of the part take it, and what follows by
itself. -/
namespace Sys2Proof.Machine

/-- The state without its queue. -/
def State.die (s : State) : Die := { fuse := s.fuse, blk := s.blk }

/-- The state with another die; the queue stays. -/
def State.withDie (s : State) (d : Die) : State := { s with fuse := d.fuse, blk := d.blk }

/-- A command to a unit that serves while the whole part does. -/
def State.whileOn (s : State) (f : Blk → Blk) : Host.Outcome State Fault Refusal := .next (s.withDie (s.die.whileOn f))

/-- A command to a unit that an L2 reset leaves alone. -/
def State.whileKept (s : State) (f : Blk → Blk) : Host.Outcome State Fault Refusal := .next (s.withDie (s.die.whileKept f))

/-- A command to the management cores. -/
def State.whileAlive (s : State) (f : Fuse → Blk → Blk) : Host.Outcome State Fault Refusal := .next (s.withDie (s.die.whileAlive f))

/-- A command on the PCIe link. -/
def State.whilePcie (s : State) (f : Blk → Blk) : Host.Outcome State Fault Refusal := .next (s.withDie (s.die.whilePcie f))

/-- A command to the AON island or the board. -/
def State.always (s : State) (f : Fuse → Blk → Blk) : Host.Outcome State Fault Refusal := .next (s.withDie (s.die.always f))

/-- Commands that may also blow fuses. -/
def State.alwaysDie (s : State) (f : Die → Die) : Host.Outcome State Fault Refusal := .next (s.withDie (f s.die.fresh).settle)
def State.servedDie (s : State) (f : Die → Die) : Host.Outcome State Fault Refusal :=
  .next (s.withDie (if s.blk.served then (f s.die.fresh).settle else s.die.fresh))

/-- A write or a read through a path, wherever it goes. -/
def State.onPath (s : State) (path : Path) (page : Option Nat) (f : Die → Die) : Host.Outcome State Fault Refusal :=
  .next (s.withDie (s.die.whilePath path page f))
def State.readPath (s : State) (path : Path) (f : Die → Die) : Host.Outcome State Fault Refusal := .next (s.withDie (s.die.whileRead path f))

/-- A command through a path to a register of a page. -/
def State.onPageDie (s : State) (path : Path) (p : Nat) (f : Die → Die) : Host.Outcome State Fault Refusal :=
  .next (s.withDie (s.die.whilePage path p f))
def State.onPage (s : State) (path : Path) (p : Nat) (f : Fuse → Blk → Blk) : Host.Outcome State Fault Refusal :=
  s.onPageDie path p fun d => d.on f

/-- A write through a path to the page at a BAR0 page number; an absent page counts it (R555). -/
def State.onPageNumber (s : State) (path : Path) (n : Nat) (f : Nat → Blk → Blk) : Host.Outcome State Fault Refusal :=
  match pageAt n with
  | some p => s.onPage path p fun _ b => f p b
  | none => s.onPath path none fun d => d.on fun _ b => b.absentWrite

end Sys2Proof.Machine
end

