-- ==== Sys2Proof/Machine/Access.lean ====
section
/-! DEFINITION. The meanings of the commands of one family. Register accesses by path (R9, R522, R555, R571 to R573). -/
namespace Sys2Proof.Machine

/-- I3C_MCTP_REQUEST (R522): an MCTP request on I3C reads or writes a reachable register. -/
def execI3cMctpRequest (m : Mctp) (s : State) : Host.Outcome State Fault Refusal :=
  s.servedDie fun d => d.mctp m

/-- MGMT_UDP_REQUEST (R573): A management datagram reads or writes a register and is answered. -/
def execMgmtUdpRequest (ip : BitVec 32) (port : BitVec 16) (srcIp : BitVec 32) (srcPort : BitVec 16) (m : BitVec 192) (s : State) : Host.Outcome State Fault
    Refusal :=
  s.servedDie fun d => d.mgmtUdp ip.toNat port.toNat srcIp.toNat srcPort.toNat m.toNat

/-- ABSENT_PAGE_ACCESS (R555): an access to an absent page reads zero or is discarded and counted. -/
def execAbsentPageAccess (off : BitVec 26) (write : Bool) (s : State) : Host.Outcome State Fault Refusal :=
  s.whileAlive fun _ b => b.absentAccess off.toNat write

/-- REGISTER_WRITE (R9): A write to a register without behaviour of its own takes effect by its access code. Over PCIe it is a TLP of `width` bytes, those
at `holes` not enabled (R558). -/
def execRegisterWrite (path : Path) (off : BitVec 26) (width v : Nat) (holes : List Nat) (world : World) (s : State) : Host.Outcome State Fault
    Refusal :=
  s.onPath path (pageAt (off.toNat / 4096)) fun d => d.busWrite world path off.toNat width v holes

/-- RC_FIELD_READ (R536): A BAR0 read of an RC field, such as a high-water mark, returns it and restarts it, and an 8-byte
TIME_NS read latches TIME_FRAC. -/
def execRcFieldRead (path : Path) (off : BitVec 26) (width : Nat) (holes : List Nat) (s : State) : Host.Outcome State Fault Refusal :=
  s.readPath path fun d => d.readAccess path off.toNat width holes

/-- MGMT_ARP_REQUEST (R573): an ARP request for GLB_MGMT_IP arrives on the management port and is answered with GLB_MGMT_MAC. -/
def execMgmtArpRequest (ip : BitVec 32) (s : State) : Host.Outcome State Fault Refusal :=
  s.whileAlive fun _ b => b.mgmtArp ip.toNat

end Sys2Proof.Machine
end

