-- ==== Sys2Proof/Machine/Admission.lean ====
section
/-! DEFINITION. The meanings of the commands of one family. Windows, the restart epoch, the member table and the predictor (R43
to R66, R171 to R176). -/
namespace Sys2Proof.Machine

/-- WIN_INSTALL (R47): WIN_CMD install checks and activates a free window. -/
def execWinInstall (w : Fin 4096) (s : State) : Host.Outcome State Fault Refusal :=
  s.onPage .bar0 Pg.win fun _ b => b.winInstall w.val

/-- WIN_DRAIN (R50): WIN_CMD drain puts an active window into draining and starts its recalls. -/
def execWinDrain (w : Fin 4096) (s : State) : Host.Outcome State Fault Refusal :=
  s.onPage .bar0 Pg.win fun _ b => b.winDrain w.val

/-- WIN_REVOKE_NOW (R50): WIN_CMD revoke_now ends uncommitted requests REVOKED and runs every recall to its end. -/
def execWinRevokeNow (w : Fin 4096) (s : State) : Host.Outcome State Fault Refusal :=
  s.onPage .bar0 Pg.win fun _ b => b.winRevoke w.val

/-- REVOKE_NOW_DONE (R50): the last recall of a revoke_now ends, and the window becomes revoked. -/
def execRevokeNowDone (w : Fin 4096) (s : State) : Host.Outcome State Fault Refusal :=
  s.whileKept fun b => b.revokeDone w.val

/-- WIN_BUMP (R48): WIN_CMD bump sets a window's epoch unless the new one is older. -/
def execWinBump (w : Fin 4096) (s : State) : Host.Outcome State Fault Refusal :=
  s.onPage .bar0 Pg.win fun _ b => b.winBump w.val

/-- WIN_BUMP_SRC (R59): WIN_CMD bump_src marks a part dead and advances the epochs of windows admitting it. -/
def execWinBumpSrc (node : Node) (s : State) : Host.Outcome State Fault Refusal :=
  s.onPage .bar0 Pg.win fun _ b => b.winBumpSrc node.toNat

/-- WIN_FREE (R46): WIN_CMD free clears a revoked window with no requests in flight. -/
def execWinFree (w : Fin 4096) (s : State) : Host.Outcome State Fault Refusal :=
  s.onPage .bar0 Pg.win fun _ b => b.winFree w.val

/-- DRAIN_DONE (R49): A draining window's INFLIGHT reaches zero with recalls done, and it becomes revoked. -/
def execDrainDone (w : Fin 4096) (s : State) : Host.Outcome State Fault Refusal :=
  s.whileKept fun b => b.drainDone w.val

/-- DRAIN_DEADLINE (R55): A drain deadline passes, uncommitted requests complete REVOKED and unanswered recalls are dropped. -/
def execDrainDeadline (w : Fin 4096) (s : State) : Host.Outcome State Fault Refusal :=
  s.whileKept fun b => b.drainDeadline w.val

/-- RESTART_EPOCH_WRITE (R64): A write to WIN_RESTART_EPOCH sets it only while zero, otherwise sets RESTART_REWRITE. -/
def execRestartEpochWrite (v : BitVec 16) (s : State) : Host.Outcome State Fault Refusal :=
  s.onPage .bar0 Pg.win fun _ b => b.restartWrite v.toNat

/-- FEN_PURGE (R175): FEN_CMD purge clears a fen number from the member table and every directory entry. -/
def execFenPurge (fen : Fin 64) (s : State) : Host.Outcome State Fault Refusal :=
  s.onPage .bar0 Pg.fen fun _ b => b.fenPurge fen.val

/-- FEN_MEMBER_SET (R176): FEN_CMD member_set writes a member entry unless refused. -/
def execFenMemberSet (fen : Fin 64) (node : Node) (near : Bool) (s : State) : Host.Outcome State Fault Refusal :=
  s.onPage .bar0 Pg.fen fun _ b => b.memberSet fen.val node.toNat near

/-- PRED_CFG_WRITE (R173): A GRAIN_LOG2 or MODE change clears every predictor entry. -/
def execPredCfgWrite (v : BitVec 32) (s : State) : Host.Outcome State Fault Refusal :=
  s.onPage .bar0 Pg.pred fun _ b => b.predCfg v.toNat

end Sys2Proof.Machine
end

