-- ==== Sys2Proof/Machine/Clock.lean ====
section
/-! DEFINITION. The meanings of the commands of one family. The time counter and its discipline (R523 to R531). -/
namespace Sys2Proof.Machine

/-- TCXO_TICK (R523): each TCXO period advances the time counter by 40 ns plus ADJ. -/
def execTcxoTick (s : State) : Host.Outcome State Fault Refusal :=
  s.always fun _ b => b.tick

/-- TIME_STEP_TO (R524): TIME_CMD step_to sets the counter forward to TIME_CMD_ARG. -/
def execTimeStepTo (s : State) : Host.Outcome State Fault Refusal :=
  s.onPage .bar0 Pg.time fun _ b => b.timeStepTo

/-- PTP_SYNC (R528): A PTP Sync gives an offset and the servo adjusts, steps or changes time state. -/
def execPtpSync (m : PtpSync) (s : State) : Host.Outcome State Fault Refusal :=
  s.whileAlive fun _ b => b.ptpSync m

/-- MASTER_LOSS (R528): no Sync for three announce intervals moves locked to holdover. -/
def execMasterLoss (s : State) : Host.Outcome State Fault Refusal :=
  s.whileAlive fun _ b => b.masterLoss

/-- HOLDOVER_EXPIRE (R528): HOLDOVER_S passes in holdover and the state becomes free. -/
def execHoldoverExpire (s : State) : Host.Outcome State Fault Refusal :=
  s.whileAlive fun _ b => b.holdoverExpire

/-- PPS_IN_EDGE (R531): A PPS_IN edge is timestamped and disciplines the phase when enabled. -/
def execPpsInEdge (s : State) : Host.Outcome State Fault Refusal :=
  s.always fun _ b => b.ppsEdge

/-- PPS_IN_MISS (R531): no PPS_IN edge for 1.5 s sets PPS_MISS and falls back to PTP phase. -/
def execPpsInMiss (s : State) : Host.Outcome State Fault Refusal :=
  s.whileAlive fun _ b => b.ppsMiss

/-- PTP_ANNOUNCE (R528): A PTP Announce message lets the servo select a master, moving the time state from free to acquiring. -/
def execPtpAnnounce (m : Announce) (s : State) : Host.Outcome State Fault Refusal :=
  s.whileAlive fun _ b => b.ptpAnnounce m

end Sys2Proof.Machine
end

