-- ==== Sys2Proof/Machine/Embedding.lean ====
section
/-! DEFINITION. The meanings of the commands of one family. Embedding tables (R367 to R396). -/
namespace Sys2Proof.Machine

/-- EMB_LOOKUP (R373): an EMB_LOOKUP descriptor pins a version and gathers, coalesces and pools rows. -/
def execEmbLookup (q : Queue) (i : Nat) (s : State) : Host.Outcome State Fault Refusal :=
  s.whileOn fun b => b.startOp Dop.embLookup q.toNat i

/-- EMB_UPDATE (R388): an EMB_UPDATE descriptor forms gradients per distinct key and sends update chunks. -/
def execEmbUpdate (q : Queue) (i : Nat) (s : State) : Host.Outcome State Fault Refusal :=
  s.whileOn fun b => b.startOp Dop.embUpdate q.toNat i

/-- EMB_GATHER_CHUNK (R384): an owner serves a gather request chunk and returns rows and trailer. -/
def execEmbGatherChunk (peer : Fin 64) (ch : Nat) (s : State) : Host.Outcome State Fault Refusal :=
  s.whileOn fun b => b.takeChunk 0 peer.val ch (· != 2)

/-- EMB_UPDATE_CHUNK (R389): an owner applies an update request chunk and returns its trailer. -/
def execEmbUpdateChunk (peer : Fin 64) (ch : Nat) (s : State) : Host.Outcome State Fault Refusal :=
  s.whileOn fun b => b.takeChunk 0 peer.val ch (· == 2)

/-- EMB_REPLY_TRAILER (R386): A reply trailer is taken and its chunk completes, or is discarded on a serial mismatch. -/
def execEmbReplyTrailer (peer : Fin 64) (ch : Nat) (s : State) : Host.Outcome State Fault Refusal :=
  s.whileOn fun b => b.replyTrailer 0 peer.val ch

/-- EMB_CHUNK_TIMEOUT (R387): no trailer arrives within TIMEOUT_US and the chunk fails. -/
def execEmbChunkTimeout (peer : Fin 64) (ch : Nat) (s : State) : Host.Outcome State Fault Refusal :=
  s.whileOn fun b => b.chunkTimeout 0 peer.val ch

/-- EMB_DEFINE (R371): EMB_CMD define checks and activates a table with slot A staged. -/
def execEmbDefine (t : Fin 4096) (s : State) : Host.Outcome State Fault Refusal :=
  s.onPage .bar0 Pg.emb fun _ b => b.embDefine t.val

/-- EMB_UNDEFINE (R371): EMB_CMD undefine frees a table whose slots are unpinned. -/
def execEmbUndefine (t : Fin 4096) (s : State) : Host.Outcome State Fault Refusal :=
  s.onPage .bar0 Pg.emb fun _ b => b.embUndefine t.val

/-- EMB_STAGE (R393): EMB_CMD stage makes a free slot staged. -/
def execEmbStage (t : Fin 4096) (slot : Fin 2) (s : State) : Host.Outcome State Fault Refusal :=
  s.onPage .bar0 Pg.emb fun _ b => b.embStage t.val slot.val

/-- EMB_SLOT_RETIRE (R394): A superseded unpinned slot returns to free after RETIRE_GRACE_MS. -/
def execEmbSlotRetire (t : Fin 4096) (slot : Fin 2) (s : State) : Host.Outcome State Fault Refusal :=
  s.whileOn fun b => b.retireSlot embVer t.val slot.val

end Sys2Proof.Machine
end

