-- ==== Sys2Proof/Machine/Flash.lean ====
section
/-! DEFINITION. The meanings of the commands of one family. The flash tier (R278 to R307). -/
namespace Sys2Proof.Machine

/-- PEAT_FORMAT (R306): PEAT_CMD format erases every good block, clears the map and recomputes LOGICAL_BLOCKS. -/
def execPeatFormat (marks : List (Nat × Nat × Nat)) (s : State) : Host.Outcome State Fault Refusal :=
  s.onPage .bar0 Pg.peat fun _ b => b.peatFormat marks

/-- PEAT_TRIM (R285): PEAT_CMD trim invalidates a range of logical blocks. -/
def execPeatTrim (s : State) : Host.Outcome State Fault Refusal :=
  s.onPage .bar0 Pg.peat fun _ b => b.peatTrim

/-- PEAT_CHECKPOINT (R304): PEAT_CMD checkpoint writes the map region as map_ckpt blocks. -/
def execPeatCheckpoint (bad : List (Nat × Nat × Nat)) (s : State) : Host.Outcome State Fault Refusal :=
  s.onPage .bar0 Pg.peat fun _ b => b.peatCheckpoint bad

/-- CKPT_TIMER (R304): every CKPT_S seconds a map checkpoint is written. -/
def execCkptTimer (bad : List (Nat × Nat × Nat)) (s : State) : Host.Outcome State Fault Refusal :=
  s.whileKept fun b => b.ckptTimer bad

/-- PEAT_MOUNT (R304): mount reads the newest checkpoint and adopts later data blocks, then leaves mounting. -/
def execPeatMount (bad : List Nat) (s : State) : Host.Outcome State Fault Refusal :=
  s.whileKept fun b => b.mount bad

/-- NAND_READ_COMPLETE (R286): A multi-plane read completes and its codewords are decoded up the ladder. -/
def execNandReadComplete (id : Nat) (tries : List (List Try)) (s : State) : Host.Outcome State Fault Refusal :=
  s.whileKept fun b => b.nandRead id tries

/-- PEAT_PROGRAM_COMPLETE (R289): A program completes; on pass the map names the new slot, on fail the block is marked grown and
retried. -/
def execPeatProgramComplete (id : Nat) (pass : Bool) (s : State) : Host.Outcome State Fault Refusal :=
  s.whileKept fun b => b.programDone id pass

/-- ROW_CLOSE_TIMEOUT (R290): ROW_CLOSE_US after a row's first program, its parity is programmed with pads. -/
def execRowCloseTimeout (g : Fin 32) (sb : Fin 8192) (s : State) : Host.Outcome State Fault Refusal :=
  s.whileKept fun b => b.rowTimeout g.val sb.val

/-- RELOCATION_START (R294): upkeep starts a relocation for the highest-order trigger. -/
def execRelocationStart (s : State) : Host.Outcome State Fault Refusal :=
  s.whileKept fun b => b.relocStart

/-- RELOCATION_COMPLETE (R292): A relocated super-block's valid blocks have been copied, and it is erased and freed. -/
def execRelocationComplete (s : State) : Host.Outcome State Fault Refusal :=
  s.whileKept fun b => b.relocDone

/-- ERASE_COMPLETE (R293): A super-block erase completes, one member's block at a time, after its in-flight reads have finished. -/
def execEraseComplete (id : Nat) (pass : Bool) (s : State) : Host.Outcome State Fault Refusal :=
  s.whileKept fun b => b.eraseDone id pass

/-- RETENTION_SCRUB (R296): retention scrub reads a valid tier block and records its largest correction. -/
def execRetentionScrub (lbn : Nat) (tries : List (List Try)) (s : State) : Host.Outcome State Fault Refusal :=
  s.whileKept fun b => b.retentionScrub lbn tries

/-- PROGRAM_RESUME (R299): A suspended program or erase resumes once the demand reads that suspended it finish. -/
def execProgramResume (id : Nat) (s : State) : Host.Outcome State Fault Refusal :=
  s.whileKept fun b => b.programResume id

/-- DIE_TIMEOUT (R301): A die fails to answer within 10 ms or grows 16 bad blocks in an hour and is declared dead. -/
def execDieTimeout (c : ChanId) (die : Fin 16) (s : State) : Host.Outcome State Fault Refusal :=
  s.whileKept fun b => b.dieTimeout c.val die.val

/-- CHANNEL_TRAIN (R278): an enabled channel trains and reads each die's geometry. -/
def execChannelTrain (c : ChanId) (good : Bool) (dies : List Geom) (s : State) : Host.Outcome State Fault Refusal :=
  s.whileKept fun b => (b.channelTrain c.val good dies).placeMap

end Sys2Proof.Machine
end

