-- ==== Sys2Proof/Machine/Header.lean ====
section
/-! DEFINITION. The meanings of the commands of one family. The common header and the table window (R532 to R537, R560 to R570).
-/
namespace Sys2Proof.Machine

/-- PAGE_INJECT (R562): PAGE_CTRL INJECT records one occurrence of an error bit. -/
def execPageInject (path : Path) (n : BitVec 14) (bit : Fin 32) (s : State) : Host.Outcome State Fault Refusal :=
  s.onPageNumber path n.toNat fun p b => b.inject_ p bit.val

/-- ERR_STICKY_CLEAR (R534): A W1C write to ERR_STICKY clears bits and VALID when all clear. -/
def execErrStickyClear (path : Path) (n : BitVec 14) (v : BitVec 32) (s : State) : Host.Outcome State Fault Refusal :=
  s.onPageNumber path n.toNat fun p b => b.stickyClear p v.toNat

/-- ERR_COUNT_CLEAR (R534): writing 1 to ERR_COUNT.SAT clears SAT and COUNT. -/
def execErrCountClear (path : Path) (n : BitVec 14) (s : State) : Host.Outcome State Fault Refusal :=
  s.onPageNumber path n.toNat fun p b => b.errCountClear p

/-- ERR_SEVERITY_WRITE (R532): an ERR_SEVERITY write only raises classes. -/
def execErrSeverityWrite (path : Path) (n : BitVec 14) (v : BitVec 64) (s : State) : Host.Outcome State Fault Refusal :=
  s.onPageNumber path n.toNat fun p b => b.severityWrite p v.toNat

/-- ERR_MASK_WRITE (R563): an ERR_MASK write sets the mask, or only clears bits under MASK_LOCK. -/
def execErrMaskWrite (path : Path) (n : BitVec 14) (v : BitVec 32) (s : State) : Host.Outcome State Fault Refusal :=
  s.onPageNumber path n.toNat fun p b => b.maskWrite false p v.toNat

/-- PAGE_LOCK_WRITE (R563): A PAGE_LOCK write sets LOCK or MASK_LOCK permanently until L1. -/
def execPageLockWrite (path : Path) (n : BitVec 14) (v : BitVec 32) (s : State) : Host.Outcome State Fault Refusal :=
  s.onPageNumber path n.toNat fun p b => b.lockWrite p v.toNat

/-- COUNTER_OVF_CLEAR (R537): writing 1 to a counter's OVF clears OVF and COUNT. -/
def execCounterOvfClear (path : Path) (n : BitVec 14) (off : BitVec 12) (s : State) : Host.Outcome State Fault Refusal :=
  s.onPageNumber path n.toNat fun p b => b.ovfClear p off.toNat

/-- INT_STATUS_CLEAR (R534): A W1C write to INT_STATUS clears interrupt bits. -/
def execIntStatusClear (path : Path) (n : BitVec 14) (v : BitVec 32) (s : State) : Host.Outcome State Fault Refusal :=
  s.onPageNumber path n.toNat fun p b => b.intClear p v.toNat

/-- TABLE_SEL_WRITE (R565): A TABLE_SEL write selects a table and clears TABLE_DATA. -/
def execTableSelWrite (path : Path) (n : BitVec 14) (sel : Byte) (s : State) : Host.Outcome State Fault Refusal :=
  s.onPageNumber path n.toNat fun p b => b.tableSel path.num p sel.toNat

/-- TABLE_READ (R566): TABLE_CMD read copies one entry whole into TABLE_DATA. -/
def execTableRead (path : Path) (n : BitVec 14) (inc : Bool) (s : State) : Host.Outcome State Fault Refusal :=
  s.onPageNumber path n.toNat fun p b => b.tableRead path.num p inc

/-- TABLE_WRITE (R567): TABLE_CMD write offers TABLE_DATA as the new entry under the block's own rules. -/
def execTableWrite (path : Path) (n : BitVec 14) (inc : Bool) (s : State) : Host.Outcome State Fault Refusal :=
  s.onPageNumber path n.toNat fun p b => b.tableWrite path.num p inc

end Sys2Proof.Machine
end

