-- ==== Sys2Proof/Machine/Host.lean ====
section
/-! DEFINITION. The meanings of the commands of one family. The PCIe side (R445 to R463). -/
namespace Sys2Proof.Machine

/-- BAR4_READ (R452): A BAR4 memory read is sent as reads of the segment's type. -/
def execBar4Read (func : Fin 65) (off len : Nat) (s : State) : Host.Outcome State Fault Refusal :=
  s.whileOn fun b => b.bar4Read func.val off len

/-- BAR4_WRITE (R455): A BAR4 memory write is sent as WR_LINE or WR_PARTIAL frames. -/
def execBar4Write (func : Fin 65) (off : Nat) (bytes : List (Option Byte)) (s : State) : Host.Outcome State Fault Refusal :=
  s.whileOn fun b => b.bar4Write func.val off bytes

/-- BAR4_ATOMIC (R452): A BAR4 AtomicOp is sent as ADD, SWAP or CAS. -/
def execBar4Atomic (func : Fin 65) (off : Nat) (op : Fin 3) (size : Nat) (x y : BitVec 64) (s : State) : Host.Outcome State
    Fault Refusal :=
  s.whileOn fun b => b.bar4Atomic func.val off op.val size x.toNat y.toNat

/-- BAR2_DOORBELL (R450): A BAR2 write to a doorbell sets the queue's TAIL under R324 and R326. The command is any access to BAR2 (Table 15.2), a read
(`write` false) and the MSI-X table among them (log entry 102). -/
def execBar2Doorbell (func : Fin 65) (off len : Nat) (write : Bool) (v : BitVec 64) (s : State) : Host.Outcome State Fault
    Refusal :=
  s.whileOn fun b => b.bar2Access func.val off len write v.toNat

/-- FUNCTION_LEVEL_RESET (R459): an FLR resets the function's queues and clears its MSI-X state. -/
def execFunctionLevelReset (func : Fin 65) (s : State) : Host.Outcome State Fault Refusal :=
  s.whileAlive fun _ b => b.funcReset func.val

/-- PCIE_LINK_DOWN (R460): A hot reset or Data Link Down resets function configuration and fails host-tier work. -/
def execPcieLinkDown (s : State) : Host.Outcome State Fault Refusal :=
  s.whilePcie fun b => b.pcieDown

/-- MSIX_UNMASK (R451): unmasking a vector with a pending bit sends its message. -/
def execMsixUnmask (func : Fin 65) (vec : Fin 2048) (s : State) : Host.Outcome State Fault Refusal :=
  s.whileAlive fun _ b => b.msixUnmask func.val vec.val

/-- PCIE_LINK_TRAIN (R447): the PCIe link trains to the highest supported rate and width. -/
def execPcieLinkTrain (speed : Fin 7) (width : Nat) (s : State) : Host.Outcome State Fault Refusal :=
  s.whilePcie fun b => b.linkTrain speed.val width

/-- PCIE_CONFIG_WRITE (R460): A PCIe configuration write, such as setting the PF's Bus Master Enable, takes effect; with Bus
Master Enable set, host-memory tier reads and writes stop failing. -/
def execPcieConfigWrite (func : Fin 65) (c : PcieCfg) (s : State) : Host.Outcome State Fault Refusal :=
  s.whilePcie fun b => b.configWrite func.val c

end Sys2Proof.Machine
end

