-- ==== Sys2Proof/Machine/Links.lean ====
section
/-! DEFINITION. The meanings of the commands of one family. Ports and links: bring-up, flits, replay and frames at a port (R67
to R112). -/
namespace Sys2Proof.Machine

/-- PORT_ENABLE (R70): setting FQP_CTRL.ENABLE starts link bring-up at step 1 of Table 3.2; the role and the source range written with it are
the command's operands, so that every port has both (R22, log entry 5). -/
def execPortEnable (p : PortId) (gennurik : Bool) (lo hi : Node) (s : State) : Host.Outcome State Fault Refusal :=
  s.onPage .bar0 (Pg.fqp p.val) fun _ b => b.portSetup p.val gennurik lo.toNat hi.toNat

/-- PORT_DISABLE (R592): clearing ENABLE darkens the port and handles its frames as for a dead link, recording no failure. -/
def execPortDisable (p : PortId) (s : State) : Host.Outcome State Fault Refusal :=
  s.onPage .bar0 (Pg.fqp p.val) fun _ b => b.portDisable p.val

/-- LANE_LOCK_ACQUIRED (R70): all eight receive lanes acquire lock and bring-up moves to alignment. -/
def execLaneLockAcquired (p : PortId) (s : State) : Host.Outcome State Fault Refusal :=
  s.whileOn fun b => b.laneLock p.val

/-- FLIT_ALIGNED (R70): lanes are deskewed and flit boundaries found, and bring-up moves to FEC lock. -/
def execFlitAligned (p : PortId) (s : State) : Host.Outcome State Fault Refusal :=
  s.whileOn fun b => if b.get Reg.FQP_STATE_LINK_STATE p.val = Ls.align then b.nextStep p.val Ls.fec else b

/-- FEC_LOCKED (R70): FEC codeword lock is reached, and bring-up moves to the control-flit exchange, in which this
part sends its own control flit. -/
def execFecLocked (p : PortId) (s : State) : Host.Outcome State Fault Refusal :=
  s.whileOn fun b => if b.get Reg.FQP_STATE_LINK_STATE p.val = Ls.fec then b.startInit p.val else b

/-- CTRL_FLIT_RECEIVE (R70): A control flit gives the peer's node ID, role and credit grants; on a match the link comes up, and
otherwise it stays in init. -/
def execCtrlFlitReceive (p : PortId) (f : Flit) (s : State) : Host.Outcome State Fault Refusal :=
  s.whileOn fun b => b.ctrlFlit p.val f

/-- BRINGUP_STEP_TIMEOUT (R70): A bring-up step that misses its bound returns the port to down, recording nothing. -/
def execBringupStepTimeout (p : PortId) (s : State) : Host.Outcome State Fault Refusal :=
  s.whileOn fun b => b.stepTimeout p.val

/-- BRINGUP_RETRY (R70): 10 ms after the previous attempt began, a down or stuck port starts a new attempt at step 1. -/
def execBringupRetry (p : PortId) (s : State) : Host.Outcome State Fault Refusal :=
  s.whileOn fun b => b.bringupRetry p.val

/-- DATA_FLIT_RECEIVE (R73): A data flit is accepted in LSEQ order, or it and later flits are discarded with a NAK; its frame
bytes, acks and credits are taken. -/
def execDataFlitReceive (p : PortId) (f : Flit) (s : State) : Host.Outcome State Fault Refusal :=
  s.whileOn fun b => b.dataFlit p.val f

/-- IDLE_FLIT_RECEIVE (R72): an idle flit delivers an acknowledgement, a possible NAK and credit returns. -/
def execIdleFlitReceive (p : PortId) (f : Flit) (s : State) : Host.Outcome State Fault Refusal :=
  s.whileOn fun b => b.idleFlit p.val f

/-- REPLAY_TIMEOUT (R75): the oldest unacknowledged flit goes 2 µs without acknowledgement, and the sender replays, or takes the
link down past REPLAY_MAX. -/
def execReplayTimeout (p : PortId) (s : State) : Host.Outcome State Fault Refusal :=
  s.whileOn fun b => b.replayTimeout p.val

/-- LANE_LOCK_LOSS (R77): A receive lane loses lock, starting the lock-hold timer. -/
def execLaneLockLoss (p : PortId) (lane : Fin 8) (s : State) : Host.Outcome State Fault Refusal :=
  s.whileOn fun b => b.laneLoss p.val lane.val

/-- LOCK_HOLD_EXPIRE (R76): A lane has lacked lock for LOCK_HOLD_US, and the link goes down. -/
def execLockHoldExpire (p : PortId) (s : State) : Host.Outcome State Fault Refusal :=
  s.whileOn fun b => b.lockHold p.val

/-- CREDIT_STARVED (R80): A class with waiting frames has received no credit for 1 ms, and CREDIT_STARVED is set. -/
def execCreditStarved (p : PortId) (cls : Fin 4) (s : State) : Host.Outcome State Fault Refusal :=
  s.whileOn fun b => b.starvedClass p.val cls.val

/-- FRAME_SEND (R78): A waiting frame starts once its class holds credit for its cost. -/
def execFrameSend (p : PortId) (s : State) : Host.Outcome State Fault Refusal :=
  s.whileOn fun b => b.frameSend p.val

/-- FRAME_HEADER_RECEIVE (R105): the header of an arriving frame passes its LCRC, and the frame is routed and cut through
without waiting for its tail. -/
def execFrameHeaderReceive (p : PortId) (s : State) : Host.Outcome State Fault Refusal :=
  s.whileOn fun b => b.headerArrive p.val

/-- FRAME_TAIL_RECEIVE (R106): A frame's tail arrives, FCRC is compared, and the tail goes on with END good or bad_crc, or the
frame is discarded. -/
def execFrameTailReceive (p : PortId) (fault : Bool) (s : State) : Host.Outcome State Fault Refusal :=
  s.whileOn fun b => b.tailArrive p.val fault

/-- FRAME_STALL_TIMEOUT (R109): no byte of a frame in progress arrives for FRAME_STALL_US, and the frame is abandoned under
R111. -/
def execFrameStallTimeout (p : PortId) (s : State) : Host.Outcome State Fault Refusal :=
  s.whileOn fun b => b.frameStall p.val

end Sys2Proof.Machine
end

