-- ==== Sys2Proof/Machine/PowerStates.lean ====
section
/-! DEFINITION. The meanings of the commands of one family. Power states, VCORE and temperature (R491 to R500, R589). -/
namespace Sys2Proof.Machine

/-- P3_ENTER (R497): PWR_CMD p3_enter starts entry to P3 by stopping queues. -/
def execP3Enter (s : State) : Host.Outcome State Fault Refusal :=
  s.onPage .bar0 Pg.pwr fun _ b => b.enterLow 3

/-- P3_ENTRY_ADVANCE (R497): A step of P3 entry finishes and the next proceeds, ending with self-refresh. -/
def execP3EntryAdvance (s : State) : Host.Outcome State Fault Refusal :=
  s.whileOn fun b => b.entryAdvance

/-- P3_ENTRY_TIMEOUT (R497): P3 entry steps 2 to 4 exceed 10 s and entry is abandoned. -/
def execP3EntryTimeout (s : State) : Host.Outcome State Fault Refusal :=
  s.whileOn fun b => b.entryTimeout

/-- P4_ENTER (R499): PWR_CMD p4_enter runs entry steps and releases all but the AON rails. -/
def execP4Enter (s : State) : Host.Outcome State Fault Refusal :=
  s.onPage .bar0 Pg.pwr fun _ b => b.enterLow 4

/-- WAKE (R498): WAKE_N low or PWR_WAKE_TIME reached wakes the part from P3 or P4. -/
def execWake (pin : Bool) (s : State) : Host.Outcome State Fault Refusal :=
  s.always fun _ b => b.wakeUp pin

/-- GATE_IDLE_TIMEOUT (R492): A run tile idle for GATE_IDLE_US enters gated. -/
def execGateIdleTimeout (t : TileId) (s : State) : Host.Outcome State Fault Refusal :=
  s.whileOn fun b => b.gateIdle t.val

/-- TILE_FORCE_WRITE (R493): A PWR_TILE_FORCE write drains and gates forced tiles, or wakes cleared ones. -/
def execTileForceWrite (lo : BitVec 64) (hi : BitVec 32) (s : State) : Host.Outcome State Fault Refusal :=
  s.onPage .bar0 Pg.pwr fun _ b => b.tileForce lo.toNat hi.toNat

/-- VCORE_TARGET_WRITE (R495): A PWR_VCORE write starts stepping VCORE toward TARGET_MV. -/
def execVcoreTargetWrite (target : BitVec 10) (step_ : BitVec 5) (vmin : BitVec 10) (s : State) : Host.Outcome State Fault
    Refusal :=
  s.onPage .bar0 Pg.pwr fun _ b => b.vcoreWrite target.toNat step_.toNat vmin.toNat

/-- VCORE_STEP_SETTLED (R495): the regulator reports a VCORE step settled, canaries run and the next step starts. -/
def execVcoreStepSettled (fails : List (Nat × Nat)) (s : State) : Host.Outcome State Fault Refusal :=
  s.whileAlive fun _ b => b.vcoreSettled fails

/-- POWER_CAP_SAMPLE (R496): every 100 µs rail power is compared with CORE_CAP_W and VCORE or gating adjusted. -/
def execPowerCapSample (amps : BitVec 12) (s : State) : Host.Outcome State Fault Refusal :=
  s.whileKept fun b => b.capSample amps.toNat

/-- THERM_WARN (R589): the hottest sensor reaches PWR_THERM.WARN_C; THERM_WARN is set and the crossing counted in PWR_WARN_CNT.
-/
def execThermWarn (tj : Int) (s : State) : Host.Outcome State Fault Refusal :=
  s.whileAlive fun _ b => b.thermWarn tj

/-- AVSBUS_TIMEOUT (R495): the regulator leaves an AVSBus command unanswered for 1 ms; PWR.ERR_STICKY.AVS_FAIL is set and VCORE
stays where it was. -/
def execAvsbusTimeout (s : State) : Host.Outcome State Fault Refusal :=
  s.whileAlive fun _ b => b.avsTimeout

end Sys2Proof.Machine
end

