-- ==== Sys2Proof/Machine/Queues.lean ====
section
/-! DEFINITION. The meanings of the commands of one family. Queues, descriptors, Sedge and the tiles (R308 to R342). -/
namespace Sys2Proof.Machine

/-- QMGR_ENABLE (R321): QMGR_CMD enable checks a queue context and makes it ready. -/
def execQmgrEnable (q : Queue) (s : State) : Host.Outcome State Fault Refusal :=
  s.onPage .bar0 Pg.qmgr fun _ b => b.queueEnable q.toNat

/-- QMGR_STOP (R319): QMGR_CMD stop ends fetching on a ready queue. -/
def execQmgrStop (q : Queue) (s : State) : Host.Outcome State Fault Refusal :=
  s.onPage .bar0 Pg.qmgr fun _ b => b.queueStop q.toNat

/-- QMGR_RESUME (R319): QMGR_CMD resume restarts fetching at HEAD. -/
def execQmgrResume (q : Queue) (s : State) : Host.Outcome State Fault Refusal :=
  s.onPage .bar0 Pg.qmgr fun _ b => b.queueResume q.toNat

/-- QMGR_RESET (R211): QMGR_CMD reset takes a queue to off, abandoning its descriptors and freeing its monitors. -/
def execQmgrReset (q : Queue) (s : State) : Host.Outcome State Fault Refusal :=
  s.onPage .bar0 Pg.qmgr fun _ b => b.queueReset q.toNat

/-- QUEUE_BIND (R327): A waiting queue is bound to a free queue thread by priority and age. -/
def execQueueBind (s : State) : Host.Outcome State Fault Refusal :=
  s.whileOn fun b => b.queueBind

/-- DESCRIPTOR_FETCH (R328): A bound thread fetches the next descriptor and checks its header. -/
def execDescriptorFetch (q : Queue) (s : State) : Host.Outcome State Fault Refusal :=
  s.whileOn fun b => b.descFetch q.toNat

/-- DESCRIPTOR_COMPLETE (R331): A descriptor's work ends: release, record, signal and interrupt in order. -/
def execDescriptorComplete (q : Queue) (i : Nat) (s : State) : Host.Outcome State Fault Refusal :=
  s.whileOn fun b => b.complete_ q.toNat i

/-- NOP (R329): A NOP descriptor completes OK and declares no range. -/
def execNop (q : Queue) (i : Nat) (s : State) : Host.Outcome State Fault Refusal :=
  s.whileOn fun b => b.startOp Dop.nop q.toNat i

/-- MOVE (R334): A MOVE descriptor copies LEN bytes line by line with both Mules. -/
def execMove (q : Queue) (i : Nat) (s : State) : Host.Outcome State Fault Refusal :=
  s.whileOn fun b => b.startOp Dop.move q.toNat i

/-- GRAPH_RUN (R336): A GRAPH_RUN descriptor reads its template and starts the stages whose waits are met. -/
def execGraphRun (q : Queue) (i : Nat) (s : State) : Host.Outcome State Fault Refusal :=
  s.whileOn fun b => b.startOp Dop.graphRun q.toNat i

/-- GRAPH_STAGE_COMPLETE (R338): A stage completes, writes its record and starts stages now unblocked, or stops the graph. -/
def execGraphStageComplete (q : Queue) (i : Nat) (stage : Nat) (s : State) : Host.Outcome State Fault Refusal :=
  s.whileOn fun b => b.stageComplete q.toNat i stage

/-- SEDGE_OWNER_WRITE (R313): A bank's owner hands it over once its own accesses finish. -/
def execSedgeOwnerWrite (t : TileId) (bank : Fin 16) (by_ new : Byte) (q : Queue) (i : Nat) (before : List SedgeAcc) (s : State) :
    Host.Outcome State Fault Refusal :=
  s.whileOn fun b => b.ownerWrite t.val bank by_ new q i before

/-- CBW_COUNT_ADVANCE (R316): A window party advances its count and releases the other party's waiting access. -/
def execCbwCountAdvance (t : TileId) (w : Fin 8) (by_ : Byte) (producer : Bool) (count : BitVec 32) (q : Queue) (i : Nat)
    (before : List SedgeAcc) (s : State) : Host.Outcome State Fault Refusal :=
  s.whileOn fun b => b.countAdvance t.val w by_ producer count q i before

/-- TILE_SNAP (R7): TILE_SNAP latches the step count and time counter together. -/
def execTileSnap (t : TileId) (s : State) : Host.Outcome State Fault Refusal :=
  s.onPage .bar0 (Pg.tile t.val) fun _ b => b.tileSnap t.val

end Sys2Proof.Machine
end

