-- ==== Sys2Proof/Machine/Rails.lean ====
section
/-! DEFINITION. The meanings of the commands of one family. Rails and the reference clock (R582 to R585). -/
namespace Sys2Proof.Machine

/-- VAON_POWER_ON (R584): VAON and VAON_IO come good and an L0 reset and power-up sequence begin. -/
def execVaonPowerOn (s : State) : Host.Outcome State Fault Refusal :=
  s.always fun _ b => b.vaonOn

/-- POWER_GOOD_RISE (R584): A rail group's power-good rises and the next rail request is raised. -/
def execPowerGoodRise (g : Fin 3) (s : State) : Host.Outcome State Fault Refusal :=
  s.always fun _ b => b.goodRise g.val

/-- POWER_GOOD_TIMEOUT (R584): A power-good not risen 50 ms after its request drops every request and restarts later. -/
def execPowerGoodTimeout (s : State) : Host.Outcome State Fault Refusal :=
  s.always fun _ b => b.goodTimeout

/-- RAIL_LOSS (R585): A power-good falls for over 10 µs, every rail request drops and the part is in P4. -/
def execRailLoss (g : Fin 3) (s : State) : Host.Outcome State Fault Refusal :=
  s.always fun _ b => b.railLoss g.val

/-- VAON_LOSS (R585): loss of VAON or VAON_IO loses all AON state. -/
def execVaonLoss (s : State) : Host.Outcome State Fault Refusal :=
  s.always fun _ b => b.vaonLoss

/-- TCXO_LOSS (R582): TCXO edges are absent for 10 µs; the counter holds and power-good loss handling applies. -/
def execTcxoLoss (s : State) : Host.Outcome State Fault Refusal :=
  s.always fun _ b => b.tcxoLoss

/-- TCXO_RETURN (R582): TCXO_IN edges return after a loss; the time counter resumes from its held value and TIME_STATUS.STATE
becomes free. -/
def execTcxoReturn (s : State) : Host.Outcome State Fault Refusal :=
  s.always fun _ b => b.tcxoReturn

/-- POWER_UP_RETRY (R584): one second after a power-good timeout dropped every rail request, the AON island restarts power-up at
step 3. -/
def execPowerUpRetry (s : State) : Host.Outcome State Fault Refusal :=
  s.always fun _ b => b.powerRetry

end Sys2Proof.Machine
end

