-- ==== Sys2Proof/Machine/Requests.lean ====
section
/-! DEFINITION. The meanings of the commands of one family. Requests, coherence and responses that reach the part, and their
timers (R26, R90 to R104, R153 to R168). -/
namespace Sys2Proof.Machine

/-- RD_LINE (R90): an RD_LINE request arrives at its home and passes the stages of R26 without consulting the directory. -/
def execRdLine (f : Frame) (s : State) : Host.Outcome State Fault Refusal :=
  s.whileOn fun b => b.arriveAs Opc.rdLine f

/-- RD_SHARED (R156): A caching read for a shared copy arrives at its home. -/
def execRdShared (f : Frame) (s : State) : Host.Outcome State Fault Refusal :=
  s.whileOn fun b => b.arriveAs Opc.rdShared f

/-- RD_OWN (R156): A caching read for ownership arrives at its home. -/
def execRdOwn (f : Frame) (s : State) : Host.Outcome State Fault Refusal :=
  s.whileOn fun b => b.arriveAs Opc.rdOwn f

/-- RD_LINE_NA (R90): A non-allocating snooping read arrives at its home. -/
def execRdLineNa (f : Frame) (s : State) : Host.Outcome State Fault Refusal :=
  s.whileOn fun b => b.arriveAs Opc.rdLineNa f

/-- RD_VOL (R189): A volatile read arrives and is served at the point of coherence, never combined. -/
def execRdVol (f : Frame) (s : State) : Host.Outcome State Fault Refusal :=
  s.whileOn fun b => b.arriveAs Opc.rdVol f

/-- WR_LINE (R179): A whole-line write arrives at its home. -/
def execWrLine (f : Frame) (s : State) : Host.Outcome State Fault Refusal :=
  s.whileOn fun b => b.arriveAs Opc.wrLine f

/-- WR_PARTIAL (R180): A partial write of LEN bytes arrives at its home. -/
def execWrPartial (f : Frame) (s : State) : Host.Outcome State Fault Refusal :=
  s.whileOn fun b => b.arriveAs Opc.wrPartial f

/-- WR_LINE_FINAL (R99): A final whole-line write arrives and is held until earlier writes of its stream land. -/
def execWrLineFinal (f : Frame) (s : State) : Host.Outcome State Fault Refusal :=
  s.whileOn fun b => b.arriveAs Opc.wrLineFinal f

/-- FINAL_HOLD_RELEASE (R99): A held FINAL frame proceeds once every earlier write and atomic of its stream has landed. -/
def execFinalHoldRelease (req : Nat) (s : State) : Host.Outcome State Fault Refusal :=
  s.whileOn fun b => b.releaseFinal req

/-- WR_SIGNAL (R100): A final line write with a riding add to a signal word arrives. -/
def execWrSignal (f : Frame) (s : State) : Host.Outcome State Fault Refusal :=
  s.whileOn fun b => b.arriveAs Opc.wrSignal f

/-- ADD (R94): an integer add atomic arrives at its home. -/
def execAdd (f : Frame) (s : State) : Host.Outcome State Fault Refusal :=
  s.whileOn fun b => b.arriveAs Opc.add f

/-- AND (R94): A bitwise AND atomic arrives at its home. -/
def execAnd (f : Frame) (s : State) : Host.Outcome State Fault Refusal :=
  s.whileOn fun b => b.arriveAs Opc.and f

/-- OR (R94): A bitwise OR atomic arrives at its home. -/
def execOr (f : Frame) (s : State) : Host.Outcome State Fault Refusal :=
  s.whileOn fun b => b.arriveAs Opc.or f

/-- XOR (R94): A bitwise XOR atomic arrives at its home. -/
def execXor (f : Frame) (s : State) : Host.Outcome State Fault Refusal :=
  s.whileOn fun b => b.arriveAs Opc.xor f

/-- SWAP (R94): A swap atomic arrives at its home. -/
def execSwap (f : Frame) (s : State) : Host.Outcome State Fault Refusal :=
  s.whileOn fun b => b.arriveAs Opc.swap f

/-- CAS (R95): A compare-and-swap atomic arrives at its home. -/
def execCas (f : Frame) (s : State) : Host.Outcome State Fault Refusal :=
  s.whileOn fun b => b.arriveAs Opc.cas f

/-- MIN_S (R94): A signed minimum atomic arrives at its home. -/
def execMinS (f : Frame) (s : State) : Host.Outcome State Fault Refusal :=
  s.whileOn fun b => b.arriveAs Opc.minS f

/-- MAX_S (R94): A signed maximum atomic arrives at its home. -/
def execMaxS (f : Frame) (s : State) : Host.Outcome State Fault Refusal :=
  s.whileOn fun b => b.arriveAs Opc.maxS f

/-- MIN_U (R94): an unsigned minimum atomic arrives at its home. -/
def execMinU (f : Frame) (s : State) : Host.Outcome State Fault Refusal :=
  s.whileOn fun b => b.arriveAs Opc.minU f

/-- MAX_U (R94): an unsigned maximum atomic arrives at its home. -/
def execMaxU (f : Frame) (s : State) : Host.Outcome State Fault Refusal :=
  s.whileOn fun b => b.arriveAs Opc.maxU f

/-- MIN_F32 (R96): an FP32 minimum atomic arrives at its home. -/
def execMinF32 (f : Frame) (s : State) : Host.Outcome State Fault Refusal :=
  s.whileOn fun b => b.arriveAs Opc.minF32 f

/-- MAX_F32 (R96): an FP32 maximum atomic arrives at its home. -/
def execMaxF32 (f : Frame) (s : State) : Host.Outcome State Fault Refusal :=
  s.whileOn fun b => b.arriveAs Opc.maxF32 f

/-- FADD32 (R96): an FP32 add atomic arrives at its home. -/
def execFadd32 (f : Frame) (s : State) : Host.Outcome State Fault Refusal :=
  s.whileOn fun b => b.arriveAs Opc.fadd32 f

/-- FADD_EXACT (R97): an add into an exact cell arrives at its home. -/
def execFaddExact (f : Frame) (s : State) : Host.Outcome State Fault Refusal :=
  s.whileOn fun b => b.arriveAs Opc.faddExact f

/-- SNP_ACK (R157): A holder's snoop answer arrives, updating the entry and writing any dirty data. -/
def execSnpAck (f : Frame) (s : State) : Host.Outcome State Fault Refusal :=
  s.whileOn fun b => b.snpAck { f with opc := .ofNat 8 Opc.snpAck }

/-- GRANT_ACK (R156): A requester's grant acknowledgement arrives, ending grant_wait or lowering ACKS_DUE. -/
def execGrantAck (f : Frame) (s : State) : Host.Outcome State Fault Refusal :=
  s.whileOn fun b => b.grantAck { f with opc := .ofNat 8 Opc.grantAck }

/-- WB_DIRTY (R155): an owner's write-back arrives and is written through the tier and store stages, then WB_ACK is sent. -/
def execWbDirty (f : Frame) (s : State) : Host.Outcome State Fault Refusal :=
  s.whileOn fun b => b.wbDirty { f with opc := .ofNat 8 Opc.wbDirty }

/-- SNOOP_TIMEOUT (R162): an unanswered snoop is resent once, then its holder is removed and the waiting request served. -/
def execSnoopTimeout (fen : Fin 64) (line : Nat) (s : State) : Host.Outcome State Fault Refusal :=
  s.whileOn fun b => b.snoopTimeout fen.val line

/-- GRANT_ACK_TIMEOUT (R163): A missing GRANT_ACK is taken as received after SNOOP_TIMEOUT_US. -/
def execGrantAckTimeout (fen : Fin 64) (line : Nat) (s : State) : Host.Outcome State Fault Refusal :=
  s.whileOn fun b => b.grantTimeout fen.val line

/-- TENURE_END (R164): an owner's minimum tenure ends, and the delayed recall is sent. -/
def execTenureEnd (line : Nat) (s : State) : Host.Outcome State Fault Refusal :=
  s.whileOn fun b => b.tenureEnd line

/-- RSV_SLOT_EXPIRE (R167): A reservation slot unmatched within HOLD_US is released. -/
def execRsvSlotExpire (slot : Fin 512) (s : State) : Host.Outcome State Fault Refusal :=
  s.whileOn fun b => b.slotExpire slot.val

/-- RSP_DATA (R103): A data response arrives for a request the part originated and completes it. -/
def execRspData (f : Frame) (s : State) : Host.Outcome State Fault Refusal :=
  s.whileOn fun b => b.responseAs Opc.rspData f Blk.rspData

/-- RSP_ACK (R103): an acknowledgement arrives for a write or atomic the part originated. -/
def execRspAck (f : Frame) (s : State) : Host.Outcome State Fault Refusal :=
  s.whileOn fun b => b.responseAs Opc.rspAck f Blk.rspAck

/-- RSP_ERR (R103): an error response arrives and completes the originated request with its status. -/
def execRspErr (f : Frame) (s : State) : Host.Outcome State Fault Refusal :=
  s.whileOn fun b => b.responseAs Opc.rspErr f Blk.rspErr

/-- RETRY_RSV (R591): A RETRY_RSV answer to an originated request is received, and the request is reissued at once. -/
def execRetryRsv (f : Frame) (s : State) : Host.Outcome State Fault Refusal :=
  s.whileOn fun b => b.responseAs Opc.retryRsv f Blk.retryRsv

/-- REQUEST_TIMEOUT (R103): an originated request's timeout expires, and it completes PEER_DEAD or INTERNAL. -/
def execRequestTimeout (dst : Node) (tag : BitVec 16) (s : State) : Host.Outcome State Fault Refusal :=
  s.whileOn fun b => b.requestTimeout dst.toNat tag.toNat

/-- PENDING_REQUEST_SEND (R104): A request waiting for a free TAG is sent once one frees. -/
def execPendingRequestSend (dst : Node) (s : State) : Host.Outcome State Fault Refusal :=
  s.whileOn fun b => b.sendPending dst.toNat

end Sys2Proof.Machine
end

