-- ==== Sys2Proof/Machine/Resets.lean ====
section
/-! DEFINITION. The meanings of the commands of one family. Resets, boot and the boot store (R464 to R490). -/
namespace Sys2Proof.Machine

/-- PERST_ASSERT (R470): PERST_N held low for 1 µs raises a reset at its mapped level. -/
def execPerstAssert (s : State) : Host.Outcome State Fault Refusal :=
  s.always fun z b => b.pinReset z 1

/-- SYS_RST_ASSERT (R470): SYS_RST_N held low for 1 µs raises a reset at its mapped level. -/
def execSysRstAssert (s : State) : Host.Outcome State Fault Refusal :=
  s.always fun z b => b.pinReset z 2

/-- RESET_RELEASE (R483): reset is released and boot runs through Table 16.9. -/
def execResetRelease (o : BootIn) (s : State) : Host.Outcome State Fault Refusal :=
  s.alwaysDie fun d => d.release o

/-- WATCHDOG_EXPIRE (R473): the watchdog expires and raises source watchdog. -/
def execWatchdogExpire (s : State) : Host.Outcome State Fault Refusal :=
  s.always fun z b => b.wdogExpire z

/-- FATAL_ESCALATE (R474): an unmasked device-fatal bit held HOLD_MS raises source fatal. -/
def execFatalEscalate (s : State) : Host.Outcome State Fault Refusal :=
  s.always fun z b => b.escalate z

/-- THERMAL_TRIP (R475): A sensor reads 115 °C or more; THERM_TRIP_N is driven and rails released. -/
def execThermalTrip (tj : Int) (s : State) : Host.Outcome State Fault Refusal :=
  s.always fun z b => b.thermalTrip z tj

/-- THERMAL_RELEASE (R475): every sensor reads below 95 °C; the trip releases and the part boots. -/
def execThermalRelease (tj : Int) (s : State) : Host.Outcome State Fault Refusal :=
  s.always fun _ b => b.thermalRelease tj

/-- GLB_RST_SYSTEM (R476): GLB_RST_CMD system with key 0x5A raises a reset at the requested level. -/
def execGlbRstSystem (path : Path) (key : Byte) (level : Fin 4) (s : State) : Host.Outcome State Fault Refusal :=
  s.onPage path Pg.glb fun z b => b.rstRun z (rstSource path) 1 key.toNat level.val 0

/-- GLB_RST_TENANT (R468): GLB_RST_CMD tenant resets every queue of a tenant and frees its monitors. -/
def execGlbRstTenant (path : Path) (key : Byte) (tenant : Tenant) (s : State) : Host.Outcome State Fault Refusal :=
  s.onPage path Pg.glb fun z b => b.rstRun z (rstSource path) 2 key.toNat 0 tenant.toNat

/-- DBG_RST_CMD (R476): DBG_RST_CMD at D2 raises a reset of source debug. -/
def execDbgRstCmd (path : Path) (op : Fin 16) (key : Byte) (level : Fin 4) (tenant : Tenant) (s : State) : Host.Outcome State
    Fault Refusal :=
  s.onPage path Pg.dbg fun z b => b.dbgRst z op.val key.toNat level.val tenant.toNat

/-- RESET_MAP_SW_WRITE (R471): A GLB_RESET_MAP_SW write deepens fields only. -/
def execResetMapSwWrite (v : BitVec 16) (s : State) : Host.Outcome State Fault Refusal :=
  s.onPage .bar0 Pg.glb fun _ b => b.mapSwWrite v.toNat

/-- NOR_WRITE (R488): GLB_NOR_CMD write erases and writes staged bytes to a permitted NOR target. -/
def execNorWrite (s : State) : Host.Outcome State Fault Refusal :=
  s.onPageDie .bar0 Pg.glb fun d => d.norWrite

/-- NOR_VERIFY (R489): GLB_NOR_CMD verify checks a firmware slot without booting it. -/
def execNorVerify (slot : Fin 2) (s : State) : Host.Outcome State Fault Refusal :=
  s.onPageDie .bar0 Pg.glb fun d => d.norVerify slot.val

/-- COMMIT_SVN (R490): GLB_NOR_CMD commit_svn blows anti-rollback fuses up to the running SVN. -/
def execCommitSvn (s : State) : Host.Outcome State Fault Refusal :=
  s.onPageDie .bar0 Pg.glb fun d => d.commitSvn

/-- NOR_RECOVER (R487): GLB_NOR_CMD recover installs a recovery image and resets at L1. -/
def execNorRecover (s : State) : Host.Outcome State Fault Refusal :=
  s.onPageDie .bar0 Pg.glb fun d => d.norRecover

end Sys2Proof.Machine
end

