-- ==== Sys2Proof/Machine/Residence.lean ====
section
/-! DEFINITION. The meanings of the commands of one family. The resident store: stacks, scrub, keys and protection (R224 to
R253). -/
namespace Sys2Proof.Machine

/-- STACK_TIMEOUT (R227): A stack leaves a command unanswered for 10 µs and becomes lost. -/
def execStackTimeout (k : StackId) (s : State) : Host.Outcome State Fault Refusal :=
  s.whileKept fun b => b.stackLost k.val

/-- SCRUB_STEP (R234): patrol scrub reads and decodes a line and writes back corrections. -/
def execScrubStep (ra : Nat) (s : State) : Host.Outcome State Fault Refusal :=
  s.whileKept fun b => b.scrubStep ra

/-- CRYPT_LOAD (R506): CRYPT_CMD load unwraps a staged tenant key into an empty slot or is denied. -/
def execCryptLoad (slot : Tenant) (s : State) : Host.Outcome State Fault Refusal :=
  s.onPage .bar0 Pg.crypt fun z b => b.cryptLoad z slot.toNat

/-- CRYPT_ZEROISE (R239): CRYPT_CMD zeroise empties a key slot at once. -/
def execCryptZeroise (slot : Tenant) (s : State) : Host.Outcome State Fault Refusal :=
  s.onPage .bar0 Pg.crypt fun _ b => b.cryptZeroise slot.toNat

/-- PROT_ACTIVATE (R248): PROT_CMD activate copies a mirror region or computes a parity range afresh. -/
def execProtActivate (r : Fin 256) (s : State) : Host.Outcome State Fault Refusal :=
  s.onPage .bar0 Pg.prot fun _ b => b.protActivate r.val

/-- PROT_DEACTIVATE (R241): PROT_CMD deactivate returns a region to off and stops its updates. -/
def execProtDeactivate (r : Fin 256) (s : State) : Host.Outcome State Fault Refusal :=
  s.onPage .bar0 Pg.prot fun _ b => b.protDeactivate r.val

/-- PROT_FREEZE (R251): PROT_CMD freeze makes a member region refuse writes once in-flight parity is acknowledged. -/
def execProtFreeze (r : Fin 256) (s : State) : Host.Outcome State Fault Refusal :=
  s.onPage .bar0 Pg.prot fun _ b => b.protFreeze r.val

/-- PROT_THAW (R251): PROT_CMD thaw returns a frozen region to active. -/
def execProtThaw (r : Fin 256) (s : State) : Host.Outcome State Fault Refusal :=
  s.onPage .bar0 Pg.prot fun _ b => b.protThaw r.val

/-- PROT_REBUILD (R253): PROT_CMD rebuild reconstructs a dead member's range line by line into a target. -/
def execProtRebuild (r : Fin 256) (dead : Fin 8) (s : State) : Host.Outcome State Fault Refusal :=
  s.onPage .bar0 Pg.prot fun _ b => b.protRebuild r.val dead.val

end Sys2Proof.Machine
end

