-- ==== Sys2Proof/Machine/Search.lean ====
section
/-! DEFINITION. The meanings of the commands of one family. Vector indexes (R397 to R424). -/
namespace Sys2Proof.Machine

/-- VSE_SEARCH (R409): A VSE_SEARCH descriptor pins a version and snapshot and runs its queries in rounds. -/
def execVseSearch (q : Queue) (i : Nat) (s : State) : Host.Outcome State Fault Refusal :=
  s.whileOn fun b => b.startOp Dop.vseSearch q.toNat i

/-- VSE_SEARCH_ROUND (R410): after a round's results are in, the next widening round starts or the query finishes. -/
def execVseSearchRound (q : Queue) (i : Nat) (query : Nat) (s : State) : Host.Outcome State Fault Refusal :=
  s.whileOn fun b => b.searchRound q.toNat i query

/-- VSE_SCAN_CHUNK (R415): an owner serves a scan chunk over its side list and lists and returns the best K. -/
def execVseScanChunk (peer : Fin 64) (ch : Nat) (s : State) : Host.Outcome State Fault Refusal :=
  s.whileOn fun b => b.takeChunk 1 peer.val ch fun _ => true

/-- VSE_REPLY_TRAILER (R413): A search reply trailer is taken and its chunk completes. -/
def execVseReplyTrailer (peer : Fin 64) (ch : Nat) (s : State) : Host.Outcome State Fault Refusal :=
  s.whileOn fun b => b.replyTrailer 1 peer.val ch

/-- VSE_CHUNK_TIMEOUT (R413): A search chunk's trailer does not arrive in time and the chunk fails. -/
def execVseChunkTimeout (peer : Fin 64) (ch : Nat) (s : State) : Host.Outcome State Fault Refusal :=
  s.whileOn fun b => b.chunkTimeout 1 peer.val ch

/-- VSE_RERANK (R423): A VSE_RERANK descriptor scores candidates against their originals. -/
def execVseRerank (q : Queue) (i : Nat) (s : State) : Host.Outcome State Fault Refusal :=
  s.whileOn fun b => b.startOp Dop.vseRerank q.toNat i

/-- VSE_MUTATE (R417): A VSE_MUTATE descriptor takes a ticket, appends side entries and commits its sequence. -/
def execVseMutate (q : Queue) (i : Nat) (s : State) : Host.Outcome State Fault Refusal :=
  s.whileOn fun b => b.startOp Dop.vseMutate q.toNat i

/-- VSE_COMMIT_POLL (R417): A mutation's poll finds COMMITTED at s − 1 and commits s by CAS. -/
def execVseCommitPoll (q : Queue) (i : Nat) (s : State) : Host.Outcome State Fault Refusal :=
  s.whileOn fun b => b.commitPoll q.toNat i

/-- VSE_COMMIT_TIMEOUT (R418): A mutation waits COMMIT_WAIT_US without its predecessor committing and completes INTERNAL. -/
def execVseCommitTimeout (q : Queue) (i : Nat) (s : State) : Host.Outcome State Fault Refusal :=
  s.whileOn fun b => b.commitTimeout q.toNat i

/-- VSE_MERGE (R421): A VSE_MERGE descriptor folds the side list into new lists in the free slot. -/
def execVseMerge (q : Queue) (i : Nat) (s : State) : Host.Outcome State Fault Refusal :=
  s.whileOn fun b => b.startOp Dop.vseMerge q.toNat i

/-- VSE_DEFINE (R402): VSE_CMD define checks and activates an index. -/
def execVseDefine (x : Fin 256) (s : State) : Host.Outcome State Fault Refusal :=
  s.onPage .bar0 Pg.vse fun _ b => b.vseDefine x.val

/-- VSE_UNDEFINE (R402): VSE_CMD undefine frees an index whose slots are unpinned. -/
def execVseUndefine (x : Fin 256) (s : State) : Host.Outcome State Fault Refusal :=
  s.onPage .bar0 Pg.vse fun _ b => b.vseUndefine x.val

/-- VSE_SLOT_RETIRE (R422): A superseded slot is freed and the side list's START moves to PENDING_START. -/
def execVseSlotRetire (x : Fin 256) (slot : Fin 2) (s : State) : Host.Outcome State Fault Refusal :=
  s.whileOn fun b => b.vseRetire x.val slot.val

/-- MERGE_WAIT_TIMEOUT (R421): A merge whose side entries below P have not all shown their POS within COMMIT_WAIT_US completes
INTERNAL. -/
def execMergeWaitTimeout (q : Queue) (i : Nat) (s : State) : Host.Outcome State Fault Refusal :=
  s.whileOn fun b => b.mergeTimeout q.toNat i

end Sys2Proof.Machine
end

