-- ==== Sys2Proof/Machine/Secure.lean ====
section
/-! DEFINITION. The meanings of the commands of one family. Lifecycle, attestation and debug (R501 to R520). -/
namespace Sys2Proof.Machine

/-- SEC_ADVANCE (R503): SEC_CMD advance blows LC to PROVISIONED in MANUFACTURE at D3, which JTAG alone reaches (log entry 103). -/
def execSecAdvance (path : Path) (s : State) : Host.Outcome State Fault Refusal :=
  s.onPageDie path Pg.sec fun d => d.advance

/-- SET_OWNER (R504): SEC_CMD set_owner blows the owner seed, debug key hash and LC DEPLOYED. -/
def execSetOwner (stuckSeed stuckKey : BitVec 256) (s : State) : Host.Outcome State Fault Refusal :=
  s.onPageDie .bar0 Pg.sec fun d => d.setOwner stuckSeed stuckKey

/-- DECOMMISSION (R505): SEC_CMD decommission zeroises keys, blows the seed and LC, and resets. -/
def execDecommission (key : Byte) (s : State) : Host.Outcome State Fault Refusal :=
  s.onPageDie .bar0 Pg.sec fun d => d.decommission key.toNat

/-- ATTEST (R513): SEC_CMD attest writes a signed attestation report for a nonce. -/
def execAttest (s : State) : Host.Outcome State Fault Refusal :=
  s.onPage .bar0 Pg.sec fun z b => b.attest z

/-- SEC_FM_WRITE (R502): SEC_FM is writable once after L1 or L0 to set the fabric manager's credential. -/
def execSecFmWrite (en : Bool) (node : Node) (s : State) : Host.Outcome State Fault Refusal :=
  s.onPage .bar0 Pg.sec fun _ b => b.secFm en node.toNat

/-- DBG_CHALLENGE (R514): DBG_CMD challenge draws a fresh nonce. -/
def execDbgChallenge (path : Path) (s : State) : Host.Outcome State Fault Refusal :=
  s.onPage path Pg.dbg fun _ b => b.dbgChallenge

/-- CHALLENGE_EXPIRE (R514): A challenge unused for 60 s expires and reads zero. -/
def execChallengeExpire (s : State) : Host.Outcome State Fault Refusal :=
  s.always fun _ b => b.challengeExpire

/-- DBG_UNLOCK (R515): DBG_CMD unlock checks a token and opens its debug level. -/
def execDbgUnlock (path : Path) (s : State) : Host.Outcome State Fault Refusal :=
  s.onPage path Pg.dbg fun z b => b.dbgUnlock z path

/-- DBG_LOCK (R516): DBG_CMD lock closes the open level. -/
def execDbgLock (path : Path) (s : State) : Host.Outcome State Fault Refusal :=
  s.onPage path Pg.dbg fun _ b => b.dbgLock

/-- DEBUG_EXPIRY (R516): DBG_EXPIRY passes and the open level closes. -/
def execDebugExpiry (s : State) : Host.Outcome State Fault Refusal :=
  s.always fun _ b => b.debugExpiry

/-- DBG_HALT (R517): DBG_CMD halt stops a tile's threads at D2. -/
def execDbgHalt (path : Path) (t : Fin 128) (s : State) : Host.Outcome State Fault Refusal :=
  s.onPage path Pg.dbg fun _ b => b.dbgHalt t.val

/-- DBG_RESUME (R517): DBG_CMD resume returns a halted tile to run. -/
def execDbgResume (path : Path) (t : Fin 128) (s : State) : Host.Outcome State Fault Refusal :=
  s.onPage path Pg.dbg fun _ b => b.dbgResume t.val

/-- DBG_PEEK (R515): DBG_CMD peek reads trace space or Sedge into DBG_DATA within the open level. -/
def execDbgPeek (path : Path) (s : State) : Host.Outcome State Fault Refusal :=
  s.onPage path Pg.dbg fun _ b => b.dbgPeek

/-- DBG_POKE (R518): DBG_CMD poke writes DBG_DATA to a BAR0 offset at D2, past PAGE_LOCK. -/
def execDbgPoke (path : Path) (world : World) (s : State) : Host.Outcome State Fault Refusal :=
  s.onPageDie path Pg.dbg fun d => d.poke world

end Sys2Proof.Machine
end

