-- ==== Sys2Proof/Machine/Signals.lean ====
section
/-! DEFINITION. The meanings of the commands of one family. Waits, signals and publications (R203 to R222). -/
namespace Sys2Proof.Machine

/-- SYNC_POLL (R209): A polled wait reads its word every POLL_NS and completes when its condition holds or a poll fails. -/
def execSyncPoll (q : Queue) (i : Nat) (s : State) : Host.Outcome State Fault Refusal :=
  s.whileOn fun b => b.syncPoll q.toNat i

/-- SYNC_DBG_SET_WORD (R217): SYNC_DBG_CMD set_word writes a word at D2, bypassing windows, and evaluates its monitors. -/
def execSyncDbgSetWord (target : BitVec 44) (s : State) : Host.Outcome State Fault Refusal :=
  s.onPage .bar0 Pg.sync fun _ b => b.syncSetWord target.toNat

/-- SYNC_DBG_FIRE (R218): SYNC_DBG_CMD fire makes an armed monitor act as if its condition held. -/
def execSyncDbgFire (target : BitVec 44) (s : State) : Host.Outcome State Fault Refusal :=
  s.onPage .bar0 Pg.sync fun _ b => b.syncFire target.toNat

/-- SYNC_WAIT (R204): A SYNC_WAIT descriptor arms a monitor, or falls back to polling; or firmware arms one for a thread of its own (R202). -/
def execSyncWait (q : Queue) (i : Nat) (fw : Option FwWait) (s : State) : Host.Outcome State Fault Refusal :=
  s.whileOn fun b =>
    match fw with
    | none => b.startOp Dop.syncWait q.toNat i
    | some x => b.fwArm x

/-- SYNC_SIGNAL (R213): A SYNC_SIGNAL descriptor makes its release and applies its OP as a w64 atomic. -/
def execSyncSignal (q : Queue) (i : Nat) (s : State) : Host.Outcome State Fault Refusal :=
  s.whileOn fun b => b.startOp Dop.syncSignal q.toNat i

/-- SYNC_PUBLISH (R221): A SYNC_PUBLISH descriptor publishes a version by read and CAS. -/
def execSyncPublish (q : Queue) (i : Nat) (s : State) : Host.Outcome State Fault Refusal :=
  s.whileOn fun b => b.startOp Dop.syncPublish q.toNat i

end Sys2Proof.Machine
end

