-- ==== Sys2Proof/Machine/Streams.lean ====
section
/-! DEFINITION. The meanings of the commands of one family. Weight streams (R425 to R444). -/
namespace Sys2Proof.Machine

/-- WST_STREAM (R428): A WST_STREAM descriptor is checked and takes a stream slot, or waits for one. -/
def execWstStream (q : Queue) (i : Nat) (s : State) : Host.Outcome State Fault Refusal :=
  s.whileOn fun b => b.startOp Dop.wstStream q.toNat i

/-- WST_CHUNK_START (R440): A chunk starts when the window, rate caps and group limit allow, and is converted and multicast. -/
def execWstChunkStart (slot : Fin 1024) (win : Option CbwSetup) (s : State) : Host.Outcome State Fault Refusal :=
  s.whileOn fun b => b.chunkStart slot.val win

/-- WST_ACK_TIMEOUT (R438): A member's FINAL times out and the chunk is resent to it unicast. -/
def execWstAckTimeout (slot : Fin 1024) (k m : Nat) (s : State) : Host.Outcome State Fault Refusal :=
  s.whileOn fun b => b.ackTimeout slot.val k m

end Sys2Proof.Machine
end

