-- ==== Sys2Proof/Machine/Switching.lean ====
section
/-! DEFINITION. The meanings of the commands of one family. The switch core: grants, holes, Slough and source resets (R113 to
R145). -/
namespace Sys2Proof.Machine

/-- EGRESS_GRANT (R142): an egress or the local delivery point grants its next frame by the arbitration hierarchy. -/
def execEgressGrant (eg : Fin 25) (s : State) : Host.Outcome State Fault Refusal :=
  s.whileOn fun b => b.grant eg.val

/-- HOLE_TIMEOUT (R130): A stream's hole timer expires, and expected advances to the lowest held frame. -/
def execHoleTimeout (sink : Fin 25) (src dst : Node) (tc : Fin 4) (s : State) : Host.Outcome State Fault Refusal :=
  s.whileOn fun b => b.holeTimeout sink.val src.toNat dst.toNat tc.val

/-- SLOUGH_FULL_LIMIT (R124): slough has stayed full for FULL_LIMIT_MS, and the oldest frames are discarded to 15/16 occupancy.
-/
def execSloughFullLimit (s : State) : Host.Outcome State Fault Refusal :=
  s.whileOn fun b => b.sloughFull

/-- SRC_RESET (R131): SWC_CMD src_reset resets every stream of a source at every sink output. -/
def execSrcReset (node : Node) (s : State) : Host.Outcome State Fault Refusal :=
  s.onPage .bar0 Pg.swc fun _ b => b.srcReset node.toNat

end Sys2Proof.Machine
end

