-- ==== Sys2Proof/Machine/Tiers.lean ====
section
/-! DEFINITION. The meanings of the commands of one family. The tiered range and handoff records (R254 to R277). -/
namespace Sys2Proof.Machine

/-- TIER_PLACE (R255): TIER_CMD place checks and activates a placement descriptor and sets its block map. -/
def execTierPlace (dsc : Fin 4096) (s : State) : Host.Outcome State Fault Refusal :=
  s.onPage .bar0 Pg.tier fun _ b => b.tierPlace dsc.val

/-- TIER_RETIRE (R257): TIER_CMD retire stops new requests, writes down dirty blocks and frees the descriptor. -/
def execTierRetire (dsc : Fin 4096) (s : State) : Host.Outcome State Fault Refusal :=
  s.onPage .bar0 Pg.tier fun _ b => b.tierRetire dsc.val

/-- TIER_FLUSH (R258): TIER_CMD flush writes down every block dirty at its start. -/
def execTierFlush (dsc : Fin 4096) (s : State) : Host.Outcome State Fault Refusal :=
  s.onPage .bar0 Pg.tier fun _ b => b.tierFlush dsc.val

/-- TIER_FETCH_COMPLETE (R264): A fetch installs its block resident, and its waiting requests go on to the store stage. -/
def execTierFetchComplete (blk : Nat) (data : List Line) (word : Nat) (crcs : List Nat) (s : State) : Host.Outcome State Fault
    Refusal :=
  s.whileKept fun b => b.fetchComplete blk data word crcs

/-- TIER_FETCH_FAIL (R265): A fetch fails, its waiting requests complete TIER_FAIL and its frame is freed. -/
def execTierFetchFail (blk : Nat) (s : State) : Host.Outcome State Fault Refusal :=
  s.whileKept fun b => b.fetchFail blk

/-- TIER_WAIT_TIMEOUT (R265): A request waiting on a fetch completes TIER_TIMEOUT when its timer expires. -/
def execTierWaitTimeout (blk : Nat) (s : State) : Host.Outcome State Fault Refusal :=
  s.whileKept fun b => b.waitTimeout blk

/-- PASS_THROUGH_COMPLETE (R274): A Hiwyn pass-through read's lower-tier data arrives and the line is returned. -/
def execPassThroughComplete (sub : Nat) (good : Bool) (data : List Line) (word crc : Nat) (s : State) : Host.Outcome State Fault
    Refusal :=
  s.whileKept fun b => b.passComplete sub good data word crc

/-- EVICT_ONE (R266): the evictor chooses the oldest resident frame, freeing it or starting its write-down. -/
def execEvictOne (s : State) : Host.Outcome State Fault Refusal :=
  s.whileKept fun b => b.evictOne

/-- WRITE_DOWN_COMPLETE (R268): A write-down ends, freeing the frame or keeping the block if it was touched or failed. -/
def execWriteDownComplete (blk : Nat) (good : Bool) (s : State) : Host.Outcome State Fault Refusal :=
  s.whileKept fun b => b.downComplete blk good

/-- WRITE_DOWN_TIMEOUT (R268): A write-down exceeds HOST_US or PEAT_US and fails. -/
def execWriteDownTimeout (blk : Nat) (s : State) : Host.Outcome State Fault Refusal :=
  s.whileKept fun b => b.downTimeout blk

/-- HEAT_SWEEP (R273): A background sweep applies due halvings to every Hiwyn block. -/
def execHeatSweep (s : State) : Host.Outcome State Fault Refusal :=
  s.whileKept fun b => b.heatSweep

/-- TIER_HANDOFF_HANDOFF (R276): A TIER_HANDOFF handoff offers a held record to a target part by CAS. -/
def execTierHandoffHandoff (q : Queue) (i : Nat) (s : State) : Host.Outcome State Fault Refusal :=
  s.whileOn fun b => b.startHandoff 0 q.toNat i

/-- TIER_HANDOFF_ACCEPT (R276): A TIER_HANDOFF accept takes an offered record within its guard. -/
def execTierHandoffAccept (q : Queue) (i : Nat) (s : State) : Host.Outcome State Fault Refusal :=
  s.whileOn fun b => b.startHandoff 1 q.toNat i

/-- TIER_HANDOFF_REVERT (R276): A TIER_HANDOFF revert takes back a lapsed offer. -/
def execTierHandoffRevert (q : Queue) (i : Nat) (s : State) : Host.Outcome State Fault Refusal :=
  s.whileOn fun b => b.startHandoff 2 q.toNat i

end Sys2Proof.Machine
end

