-- ==== Sys2Proof/Machine/Upkeep.lean ====
section
/-! DEFINITION. The meanings of the commands of one family. Beacons, self-test and canaries (R538 to R552). -/
namespace Sys2Proof.Machine

/-- BEACON_SEND (R538): at each PERIOD_US boundary a beacon line is sent, or counted as a miss. -/
def execBeaconSend (s : State) : Host.Outcome State Fault Refusal :=
  s.whileOn fun b => b.beaconSend

/-- MGMT_FENCE (R540): MGMT_CMD fence puts the part into FENCED at once. -/
def execMgmtFence (s : State) : Host.Outcome State Fault Refusal :=
  s.onPage .bar0 Pg.mgmt fun _ b => b.mgmtFence

/-- SELFTEST_TILE (R547): MGMT_CMD selftest_tile runs a self-test slice on one tile at once. -/
def execSelftestTile (t : Fin 128) (s : State) : Host.Outcome State Fault Refusal :=
  s.onPage .bar0 Pg.mgmt fun _ b => b.selftestTile t.val

/-- SELFTEST_FULL (R548): MGMT_CMD selftest_full tests every tile and each stack's line code once queues are idle. -/
def execSelftestFull (tiles : List (Nat × Nat)) (stks : List Nat) (s : State) : Host.Outcome State Fault Refusal :=
  s.onPage .bar0 Pg.mgmt fun _ b => b.selftestFull tiles stks

/-- SELFTEST_SLICE (R545): every SLICE_S seconds the next tile is drained and tested. -/
def execSelftestSlice (s : State) : Host.Outcome State Fault Refusal :=
  s.whileOn fun b => b.sliceTimer

/-- SLICE_DRAIN_TIMEOUT (R546): A tile not drained in DRAIN_MAX_MS returns to run and the slice is abandoned. -/
def execSliceDrainTimeout (s : State) : Host.Outcome State Fault Refusal :=
  s.whileOn fun b => b.sliceTimeout

/-- SLICE_TEST_COMPLETE (R545): A slice's tests finish; the tile returns to service or is retired. -/
def execSliceTestComplete (fail : Option (BitVec 16)) (s : State) : Host.Outcome State Fault Refusal :=
  s.whileOn fun b => b.sliceDone (fail.map BitVec.toNat)

/-- CANARY_RUN (R549): every CANARY_MS a tile runs the canary set and compares results bit for bit. -/
def execCanaryRun (t : TileId) (fail : Option Nat) (s : State) : Host.Outcome State Fault Refusal :=
  s.whileOn fun b => b.canaryRun t.val fail

/-- CANARY_TEMP_TRIGGER (R550): A temperature move of TEMP_BAND_C runs the canaries on every run tile. -/
def execCanaryTempTrigger (tj : Int) (fails : List (Nat × Nat)) (s : State) : Host.Outcome State Fault Refusal :=
  s.whileOn fun b => b.canaryTemp tj fails

end Sys2Proof.Machine
end

