-- ==== Sys2Proof/Machine/Dispatch.lean ====
section
/-! DEFINITION. One arm per command. -/
namespace Sys2Proof.Machine

def exec (i : Instr) (s : State) : Host.Outcome State Fault Refusal :=
  match i with
  | .portEnable p gennurik lo hi => Sys2Proof.Machine.execPortEnable p gennurik lo hi s
  | .portDisable p => Sys2Proof.Machine.execPortDisable p s
  | .laneLockAcquired p => Sys2Proof.Machine.execLaneLockAcquired p s
  | .flitAligned p => Sys2Proof.Machine.execFlitAligned p s
  | .fecLocked p => Sys2Proof.Machine.execFecLocked p s
  | .ctrlFlitReceive p f => Sys2Proof.Machine.execCtrlFlitReceive p f s
  | .bringupStepTimeout p => Sys2Proof.Machine.execBringupStepTimeout p s
  | .bringupRetry p => Sys2Proof.Machine.execBringupRetry p s
  | .dataFlitReceive p f => Sys2Proof.Machine.execDataFlitReceive p f s
  | .idleFlitReceive p f => Sys2Proof.Machine.execIdleFlitReceive p f s
  | .replayTimeout p => Sys2Proof.Machine.execReplayTimeout p s
  | .laneLockLoss p lane => Sys2Proof.Machine.execLaneLockLoss p lane s
  | .lockHoldExpire p => Sys2Proof.Machine.execLockHoldExpire p s
  | .creditStarved p cls => Sys2Proof.Machine.execCreditStarved p cls s
  | .frameSend p => Sys2Proof.Machine.execFrameSend p s
  | .frameHeaderReceive p => Sys2Proof.Machine.execFrameHeaderReceive p s
  | .frameTailReceive p fault => Sys2Proof.Machine.execFrameTailReceive p fault s
  | .frameStallTimeout p => Sys2Proof.Machine.execFrameStallTimeout p s
  | .egressGrant eg => Sys2Proof.Machine.execEgressGrant eg s
  | .holeTimeout sink src dst tc => Sys2Proof.Machine.execHoleTimeout sink src dst tc s
  | .sloughFullLimit => Sys2Proof.Machine.execSloughFullLimit s
  | .srcReset node => Sys2Proof.Machine.execSrcReset node s
  | .rdLine f => Sys2Proof.Machine.execRdLine f s
  | .rdShared f => Sys2Proof.Machine.execRdShared f s
  | .rdOwn f => Sys2Proof.Machine.execRdOwn f s
  | .rdLineNa f => Sys2Proof.Machine.execRdLineNa f s
  | .rdVol f => Sys2Proof.Machine.execRdVol f s
  | .wrLine f => Sys2Proof.Machine.execWrLine f s
  | .wrPartial f => Sys2Proof.Machine.execWrPartial f s
  | .wrLineFinal f => Sys2Proof.Machine.execWrLineFinal f s
  | .finalHoldRelease req => Sys2Proof.Machine.execFinalHoldRelease req s
  | .wrSignal f => Sys2Proof.Machine.execWrSignal f s
  | .add f => Sys2Proof.Machine.execAdd f s
  | .and_ f => Sys2Proof.Machine.execAnd f s
  | .or_ f => Sys2Proof.Machine.execOr f s
  | .xor_ f => Sys2Proof.Machine.execXor f s
  | .swap f => Sys2Proof.Machine.execSwap f s
  | .cas f => Sys2Proof.Machine.execCas f s
  | .minS f => Sys2Proof.Machine.execMinS f s
  | .maxS f => Sys2Proof.Machine.execMaxS f s
  | .minU f => Sys2Proof.Machine.execMinU f s
  | .maxU f => Sys2Proof.Machine.execMaxU f s
  | .minF32 f => Sys2Proof.Machine.execMinF32 f s
  | .maxF32 f => Sys2Proof.Machine.execMaxF32 f s
  | .fadd32 f => Sys2Proof.Machine.execFadd32 f s
  | .faddExact f => Sys2Proof.Machine.execFaddExact f s
  | .snpAck f => Sys2Proof.Machine.execSnpAck f s
  | .grantAck f => Sys2Proof.Machine.execGrantAck f s
  | .wbDirty f => Sys2Proof.Machine.execWbDirty f s
  | .snoopTimeout fen line => Sys2Proof.Machine.execSnoopTimeout fen line s
  | .grantAckTimeout fen line => Sys2Proof.Machine.execGrantAckTimeout fen line s
  | .tenureEnd line => Sys2Proof.Machine.execTenureEnd line s
  | .rsvSlotExpire slot => Sys2Proof.Machine.execRsvSlotExpire slot s
  | .rspData f => Sys2Proof.Machine.execRspData f s
  | .rspAck f => Sys2Proof.Machine.execRspAck f s
  | .rspErr f => Sys2Proof.Machine.execRspErr f s
  | .retryRsv f => Sys2Proof.Machine.execRetryRsv f s
  | .requestTimeout dst tag => Sys2Proof.Machine.execRequestTimeout dst tag s
  | .pendingRequestSend dst => Sys2Proof.Machine.execPendingRequestSend dst s
  | .winInstall w => Sys2Proof.Machine.execWinInstall w s
  | .winDrain w => Sys2Proof.Machine.execWinDrain w s
  | .winRevokeNow w => Sys2Proof.Machine.execWinRevokeNow w s
  | .revokeNowDone w => Sys2Proof.Machine.execRevokeNowDone w s
  | .winBump w => Sys2Proof.Machine.execWinBump w s
  | .winBumpSrc node => Sys2Proof.Machine.execWinBumpSrc node s
  | .winFree w => Sys2Proof.Machine.execWinFree w s
  | .drainDone w => Sys2Proof.Machine.execDrainDone w s
  | .drainDeadline w => Sys2Proof.Machine.execDrainDeadline w s
  | .restartEpochWrite v => Sys2Proof.Machine.execRestartEpochWrite v s
  | .fenPurge fen => Sys2Proof.Machine.execFenPurge fen s
  | .fenMemberSet fen node near => Sys2Proof.Machine.execFenMemberSet fen node near s
  | .predCfgWrite v => Sys2Proof.Machine.execPredCfgWrite v s
  | .syncPoll q index => Sys2Proof.Machine.execSyncPoll q index s
  | .syncDbgSetWord target => Sys2Proof.Machine.execSyncDbgSetWord target s
  | .syncDbgFire target => Sys2Proof.Machine.execSyncDbgFire target s
  | .stackTimeout k => Sys2Proof.Machine.execStackTimeout k s
  | .scrubStep ra => Sys2Proof.Machine.execScrubStep ra s
  | .cryptLoad slot => Sys2Proof.Machine.execCryptLoad slot s
  | .cryptZeroise slot => Sys2Proof.Machine.execCryptZeroise slot s
  | .protActivate r => Sys2Proof.Machine.execProtActivate r s
  | .protDeactivate r => Sys2Proof.Machine.execProtDeactivate r s
  | .protFreeze r => Sys2Proof.Machine.execProtFreeze r s
  | .protThaw r => Sys2Proof.Machine.execProtThaw r s
  | .protRebuild r dead => Sys2Proof.Machine.execProtRebuild r dead s
  | .tierPlace dsc => Sys2Proof.Machine.execTierPlace dsc s
  | .tierRetire dsc => Sys2Proof.Machine.execTierRetire dsc s
  | .tierFlush dsc => Sys2Proof.Machine.execTierFlush dsc s
  | .tierFetchComplete blk data word crcs => Sys2Proof.Machine.execTierFetchComplete blk data word crcs s
  | .tierFetchFail blk => Sys2Proof.Machine.execTierFetchFail blk s
  | .tierWaitTimeout blk => Sys2Proof.Machine.execTierWaitTimeout blk s
  | .passThroughComplete sub good data word crc => Sys2Proof.Machine.execPassThroughComplete sub good data word crc s
  | .evictOne => Sys2Proof.Machine.execEvictOne s
  | .writeDownComplete blk good => Sys2Proof.Machine.execWriteDownComplete blk good s
  | .writeDownTimeout blk => Sys2Proof.Machine.execWriteDownTimeout blk s
  | .heatSweep => Sys2Proof.Machine.execHeatSweep s
  | .tierHandoffHandoff q index => Sys2Proof.Machine.execTierHandoffHandoff q index s
  | .tierHandoffAccept q index => Sys2Proof.Machine.execTierHandoffAccept q index s
  | .tierHandoffRevert q index => Sys2Proof.Machine.execTierHandoffRevert q index s
  | .peatFormat marks => Sys2Proof.Machine.execPeatFormat marks s
  | .peatTrim => Sys2Proof.Machine.execPeatTrim s
  | .peatCheckpoint bad => Sys2Proof.Machine.execPeatCheckpoint bad s
  | .ckptTimer bad => Sys2Proof.Machine.execCkptTimer bad s
  | .peatMount bad => Sys2Proof.Machine.execPeatMount bad s
  | .nandReadComplete id tries => Sys2Proof.Machine.execNandReadComplete id tries s
  | .peatProgramComplete id pass => Sys2Proof.Machine.execPeatProgramComplete id pass s
  | .rowCloseTimeout g sb => Sys2Proof.Machine.execRowCloseTimeout g sb s
  | .relocationStart => Sys2Proof.Machine.execRelocationStart s
  | .relocationComplete => Sys2Proof.Machine.execRelocationComplete s
  | .eraseComplete id pass => Sys2Proof.Machine.execEraseComplete id pass s
  | .retentionScrub lbn tries => Sys2Proof.Machine.execRetentionScrub lbn tries s
  | .programResume id => Sys2Proof.Machine.execProgramResume id s
  | .dieTimeout c die => Sys2Proof.Machine.execDieTimeout c die s
  | .channelTrain c good dies => Sys2Proof.Machine.execChannelTrain c good dies s
  | .qmgrEnable q => Sys2Proof.Machine.execQmgrEnable q s
  | .qmgrStop q => Sys2Proof.Machine.execQmgrStop q s
  | .qmgrResume q => Sys2Proof.Machine.execQmgrResume q s
  | .qmgrReset q => Sys2Proof.Machine.execQmgrReset q s
  | .queueBind => Sys2Proof.Machine.execQueueBind s
  | .descriptorFetch q => Sys2Proof.Machine.execDescriptorFetch q s
  | .descriptorComplete q index => Sys2Proof.Machine.execDescriptorComplete q index s
  | .nop q index => Sys2Proof.Machine.execNop q index s
  | .move q index => Sys2Proof.Machine.execMove q index s
  | .graphRun q index => Sys2Proof.Machine.execGraphRun q index s
  | .graphStageComplete q index stage => Sys2Proof.Machine.execGraphStageComplete q index stage s
  | .sedgeOwnerWrite t bank by_ new q index before => Sys2Proof.Machine.execSedgeOwnerWrite t bank by_ new q index before s
  | .cbwCountAdvance t w by_ producer count q index before => Sys2Proof.Machine.execCbwCountAdvance t w by_ producer count q index before s
  | .syncWait q index fw => Sys2Proof.Machine.execSyncWait q index fw s
  | .syncSignal q index => Sys2Proof.Machine.execSyncSignal q index s
  | .syncPublish q index => Sys2Proof.Machine.execSyncPublish q index s
  | .embLookup q index => Sys2Proof.Machine.execEmbLookup q index s
  | .embUpdate q index => Sys2Proof.Machine.execEmbUpdate q index s
  | .embGatherChunk peer ch => Sys2Proof.Machine.execEmbGatherChunk peer ch s
  | .embUpdateChunk peer ch => Sys2Proof.Machine.execEmbUpdateChunk peer ch s
  | .embReplyTrailer peer ch => Sys2Proof.Machine.execEmbReplyTrailer peer ch s
  | .embChunkTimeout peer ch => Sys2Proof.Machine.execEmbChunkTimeout peer ch s
  | .embDefine t => Sys2Proof.Machine.execEmbDefine t s
  | .embUndefine t => Sys2Proof.Machine.execEmbUndefine t s
  | .embStage t slot => Sys2Proof.Machine.execEmbStage t slot s
  | .embSlotRetire t slot => Sys2Proof.Machine.execEmbSlotRetire t slot s
  | .vseSearch q index => Sys2Proof.Machine.execVseSearch q index s
  | .vseSearchRound q index query => Sys2Proof.Machine.execVseSearchRound q index query s
  | .vseScanChunk peer ch => Sys2Proof.Machine.execVseScanChunk peer ch s
  | .vseReplyTrailer peer ch => Sys2Proof.Machine.execVseReplyTrailer peer ch s
  | .vseChunkTimeout peer ch => Sys2Proof.Machine.execVseChunkTimeout peer ch s
  | .vseRerank q index => Sys2Proof.Machine.execVseRerank q index s
  | .vseMutate q index => Sys2Proof.Machine.execVseMutate q index s
  | .vseCommitPoll q index => Sys2Proof.Machine.execVseCommitPoll q index s
  | .vseCommitTimeout q index => Sys2Proof.Machine.execVseCommitTimeout q index s
  | .vseMerge q index => Sys2Proof.Machine.execVseMerge q index s
  | .vseDefine x => Sys2Proof.Machine.execVseDefine x s
  | .vseUndefine x => Sys2Proof.Machine.execVseUndefine x s
  | .vseSlotRetire x slot => Sys2Proof.Machine.execVseSlotRetire x slot s
  | .wstStream q index => Sys2Proof.Machine.execWstStream q index s
  | .wstChunkStart slot win => Sys2Proof.Machine.execWstChunkStart slot win s
  | .wstAckTimeout slot k m => Sys2Proof.Machine.execWstAckTimeout slot k m s
  | .bar4Read func off len => Sys2Proof.Machine.execBar4Read func off len s
  | .bar4Write func off bytes => Sys2Proof.Machine.execBar4Write func off bytes s
  | .bar4Atomic func off op size x y => Sys2Proof.Machine.execBar4Atomic func off op size x y s
  | .bar2Doorbell func off len write v => Sys2Proof.Machine.execBar2Doorbell func off len write v s
  | .functionLevelReset func => Sys2Proof.Machine.execFunctionLevelReset func s
  | .pcieLinkDown => Sys2Proof.Machine.execPcieLinkDown s
  | .msixUnmask func vec => Sys2Proof.Machine.execMsixUnmask func vec s
  | .pcieLinkTrain speed width => Sys2Proof.Machine.execPcieLinkTrain speed width s
  | .vaonPowerOn => Sys2Proof.Machine.execVaonPowerOn s
  | .powerGoodRise g => Sys2Proof.Machine.execPowerGoodRise g s
  | .powerGoodTimeout => Sys2Proof.Machine.execPowerGoodTimeout s
  | .railLoss g => Sys2Proof.Machine.execRailLoss g s
  | .vaonLoss => Sys2Proof.Machine.execVaonLoss s
  | .tcxoLoss => Sys2Proof.Machine.execTcxoLoss s
  | .tcxoTick => Sys2Proof.Machine.execTcxoTick s
  | .perstAssert => Sys2Proof.Machine.execPerstAssert s
  | .sysRstAssert => Sys2Proof.Machine.execSysRstAssert s
  | .resetRelease o => Sys2Proof.Machine.execResetRelease o s
  | .watchdogExpire => Sys2Proof.Machine.execWatchdogExpire s
  | .fatalEscalate => Sys2Proof.Machine.execFatalEscalate s
  | .thermalTrip tj => Sys2Proof.Machine.execThermalTrip tj s
  | .thermalRelease tj => Sys2Proof.Machine.execThermalRelease tj s
  | .glbRstSystem path key level => Sys2Proof.Machine.execGlbRstSystem path key level s
  | .glbRstTenant path key tenant => Sys2Proof.Machine.execGlbRstTenant path key tenant s
  | .dbgRstCmd path op key level tenant => Sys2Proof.Machine.execDbgRstCmd path op key level tenant s
  | .resetMapSwWrite v => Sys2Proof.Machine.execResetMapSwWrite v s
  | .norWrite => Sys2Proof.Machine.execNorWrite s
  | .norVerify slot => Sys2Proof.Machine.execNorVerify slot s
  | .commitSvn => Sys2Proof.Machine.execCommitSvn s
  | .norRecover => Sys2Proof.Machine.execNorRecover s
  | .p3Enter => Sys2Proof.Machine.execP3Enter s
  | .p3EntryAdvance => Sys2Proof.Machine.execP3EntryAdvance s
  | .p3EntryTimeout => Sys2Proof.Machine.execP3EntryTimeout s
  | .p4Enter => Sys2Proof.Machine.execP4Enter s
  | .wake pin => Sys2Proof.Machine.execWake pin s
  | .gateIdleTimeout t => Sys2Proof.Machine.execGateIdleTimeout t s
  | .tileForceWrite lo hi => Sys2Proof.Machine.execTileForceWrite lo hi s
  | .vcoreTargetWrite target step_ vmin => Sys2Proof.Machine.execVcoreTargetWrite target step_ vmin s
  | .vcoreStepSettled fails => Sys2Proof.Machine.execVcoreStepSettled fails s
  | .powerCapSample amps => Sys2Proof.Machine.execPowerCapSample amps s
  | .secAdvance path => Sys2Proof.Machine.execSecAdvance path s
  | .setOwner stuckSeed stuckKey => Sys2Proof.Machine.execSetOwner stuckSeed stuckKey s
  | .decommission key => Sys2Proof.Machine.execDecommission key s
  | .attest => Sys2Proof.Machine.execAttest s
  | .secFmWrite en node => Sys2Proof.Machine.execSecFmWrite en node s
  | .dbgChallenge path => Sys2Proof.Machine.execDbgChallenge path s
  | .challengeExpire => Sys2Proof.Machine.execChallengeExpire s
  | .dbgUnlock path => Sys2Proof.Machine.execDbgUnlock path s
  | .dbgLock path => Sys2Proof.Machine.execDbgLock path s
  | .debugExpiry => Sys2Proof.Machine.execDebugExpiry s
  | .dbgHalt path t => Sys2Proof.Machine.execDbgHalt path t s
  | .dbgResume path t => Sys2Proof.Machine.execDbgResume path t s
  | .dbgPeek path => Sys2Proof.Machine.execDbgPeek path s
  | .dbgPoke path world => Sys2Proof.Machine.execDbgPoke path world s
  | .i3cMctpRequest m => Sys2Proof.Machine.execI3cMctpRequest m s
  | .mgmtUdpRequest ip port srcIp srcPort m => Sys2Proof.Machine.execMgmtUdpRequest ip port srcIp srcPort m s
  | .timeStepTo => Sys2Proof.Machine.execTimeStepTo s
  | .ptpSync m => Sys2Proof.Machine.execPtpSync m s
  | .masterLoss => Sys2Proof.Machine.execMasterLoss s
  | .holdoverExpire => Sys2Proof.Machine.execHoldoverExpire s
  | .ppsInEdge => Sys2Proof.Machine.execPpsInEdge s
  | .ppsInMiss => Sys2Proof.Machine.execPpsInMiss s
  | .beaconSend => Sys2Proof.Machine.execBeaconSend s
  | .mgmtFence => Sys2Proof.Machine.execMgmtFence s
  | .selftestTile t => Sys2Proof.Machine.execSelftestTile t s
  | .selftestFull tiles stks => Sys2Proof.Machine.execSelftestFull tiles stks s
  | .selftestSlice => Sys2Proof.Machine.execSelftestSlice s
  | .sliceDrainTimeout => Sys2Proof.Machine.execSliceDrainTimeout s
  | .sliceTestComplete fail => Sys2Proof.Machine.execSliceTestComplete fail s
  | .canaryRun t fail => Sys2Proof.Machine.execCanaryRun t fail s
  | .canaryTempTrigger tj fails => Sys2Proof.Machine.execCanaryTempTrigger tj fails s
  | .pageInject path n bit => Sys2Proof.Machine.execPageInject path n bit s
  | .errStickyClear path n v => Sys2Proof.Machine.execErrStickyClear path n v s
  | .errCountClear path n => Sys2Proof.Machine.execErrCountClear path n s
  | .errSeverityWrite path n v => Sys2Proof.Machine.execErrSeverityWrite path n v s
  | .errMaskWrite path n v => Sys2Proof.Machine.execErrMaskWrite path n v s
  | .pageLockWrite path n v => Sys2Proof.Machine.execPageLockWrite path n v s
  | .counterOvfClear path n off => Sys2Proof.Machine.execCounterOvfClear path n off s
  | .intStatusClear path n v => Sys2Proof.Machine.execIntStatusClear path n v s
  | .tableSelWrite path n sel => Sys2Proof.Machine.execTableSelWrite path n sel s
  | .tableRead path n inc => Sys2Proof.Machine.execTableRead path n inc s
  | .tableWrite path n inc => Sys2Proof.Machine.execTableWrite path n inc s
  | .absentPageAccess off write => Sys2Proof.Machine.execAbsentPageAccess off write s
  | .registerWrite path off width v holes world => Sys2Proof.Machine.execRegisterWrite path off width v holes world s
  | .tileSnap t => Sys2Proof.Machine.execTileSnap t s
  | .tcxoReturn => Sys2Proof.Machine.execTcxoReturn s
  | .ptpAnnounce m => Sys2Proof.Machine.execPtpAnnounce m s
  | .thermWarn tj => Sys2Proof.Machine.execThermWarn tj s
  | .avsbusTimeout => Sys2Proof.Machine.execAvsbusTimeout s
  | .powerUpRetry => Sys2Proof.Machine.execPowerUpRetry s
  | .mergeWaitTimeout q index => Sys2Proof.Machine.execMergeWaitTimeout q index s
  | .pcieConfigWrite func c => Sys2Proof.Machine.execPcieConfigWrite func c s
  | .rcFieldRead path off width holes => Sys2Proof.Machine.execRcFieldRead path off width holes s
  | .mgmtArpRequest ip => Sys2Proof.Machine.execMgmtArpRequest ip s

end Sys2Proof.Machine
end

