-- ==== Sys2Proof/Safety.lean ====
section
/-! DEFINITION. The vocabulary of the statements: the state after an effect, a part in which nothing is under way, what fuses may do,
and what the memories of the part keep. -/
namespace Sys2Proof
open Machine

/-- Commands of the AON island and the board, which are taken in every state of the part. -/
def Instr.ofBoard : Instr → Bool
  | .vaonPowerOn .. | .powerGoodRise .. | .powerGoodTimeout .. | .railLoss .. | .vaonLoss .. | .tcxoLoss .. | .tcxoTick .. | .perstAssert ..
  | .sysRstAssert .. | .watchdogExpire .. | .fatalEscalate .. | .thermalTrip .. | .thermalRelease .. | .wake .. | .challengeExpire .. | .debugExpiry ..
  | .ppsInEdge .. | .tcxoReturn .. | .powerUpRetry .. | .resetRelease .. => true
  | _ => false

/-- Commands on the PCIe link, which are taken while it trains. -/
def Instr.ofLink : Instr → Bool
  | .pcieLinkDown .. | .pcieLinkTrain .. | .pcieConfigWrite .. => true
  | _ => false

/-- Commands that come through JTAG. -/
def Instr.byJtag : Instr → Bool
  | .glbRstSystem p .. | .glbRstTenant p .. | .dbgRstCmd p .. | .secAdvance p | .dbgChallenge p | .dbgUnlock p | .dbgLock p | .dbgHalt p ..
  | .dbgResume p .. | .dbgPeek p | .dbgPoke p .. | .pageInject p .. | .errStickyClear p .. | .errCountClear p .. | .errSeverityWrite p ..
  | .errMaskWrite p .. | .pageLockWrite p .. | .counterOvfClear p .. | .intStatusClear p .. | .tableSelWrite p .. | .tableRead p .. | .tableWrite p ..
  | .registerWrite p .. | .rcFieldRead p .. => p == .jtag
  | _ => false

end Sys2Proof

namespace Sys2Proof.Machine

/-- What a command drives or sends starts afresh with it. -/
def Blk.clear (b : Blk) : Blk := { b with emits := [] }

/-- The state once a command has had the effect `b`, and what follows from it by itself is done (log entry 27). -/
def State.settled (s : State) (b : Blk) : State := s.withDie ({ fuse := s.fuse, blk := b } : Die).settle

/-- The state once a command has had the effect `b` and only the signs of errors follow it. -/
def State.signed (s : State) (b : Blk) : State := { s with blk := b.settleSigns }

/-- The state once a command has had the effect `b` and nothing follows it. -/
def State.plain (s : State) (b : Blk) : State := { s with blk := b }

/-- A command through BAR0 reaches a page that serves. -/
def Blk.opens (b : Blk) (p : Nat) : Bool := b.served && b.reaches .bar0 p && !b.pageInL2 p

/-- No frame, request, recall or access waits at the home. -/
def Home.idle (h : Home) : Bool := h.inbox.isEmpty && h.reqs.isEmpty && h.again.isEmpty && h.drains.isEmpty && h.busQ.isEmpty

/-- No fetch, write-down, eviction or command is under way in the tiers. -/
def Tier.idle (t : Tier) : Bool := t.fetches.isEmpty && t.downs.isEmpty && t.job.isNone && !t.evicting

/-- No work runs, waits or is bound. -/
def Engines.idle (e : Engines) : Bool :=
  e.works.isEmpty && e.bound.isEmpty && e.waiting.isEmpty && e.updQ.isEmpty && e.chans.isEmpty && e.streams.isEmpty &&
  e.stopping.isNone && e.tenantRst.isNone

/-- Nothing of the part is under way that goes on by itself: the switch core's ingress buffers, the home, the tiers, the evictor, the engines, the PCIe
side, protection, self-test and gating rest, Peat has not mounted and no `format` erases, no expired level waits, and how many tiles serve is noted. -/
def Blk.idle (b : Blk) : Bool :=
  b.home.idle && b.tier.idle && b.eng.idle && b.orig.results.isEmpty && b.pcie.tlps.isEmpty && b.prot.isNone &&
  b.aon.slice.isNone && b.aon.full.isNone && b.aon.capped.isEmpty &&
  decide (b.get Reg.PWR_TILE_FORCE_LO_MASK = 0) && decide (b.get Reg.PWR_TILE_FORCE_HI_MASK = 0) &&
  !b.evicting && b.sw.queue.all (fun e => !e.ingress) && decide (b.get Reg.PEAT_STATE_STATE < Ps.ok) && b.peat.fmt.isNone && !b.aon.expired &&
  b.aon.low == decide (b.tilesRun < b.get Reg.MGMT_CANARY_CFG_MIN_TILES)

/-- Fuses only ever gain bits, the anti-rollback count only rises, and what manufacture blew stays (R503, R504, Table 16.13). -/
def Fuse.le (a b : Fuse) : Prop :=
  (∀ i, a.lc.getLsbD i = true → b.lc.getLsbD i = true) ∧ (∀ i, a.seed.getLsbD i = true → b.seed.getLsbD i = true) ∧
  (∀ i, a.dbgKey.getLsbD i = true → b.dbgKey.getLsbD i = true) ∧ a.svn ≤ b.svn ∧ a.serial = b.serial ∧ a.mac = b.mac ∧ a.map = b.map ∧
  a.limit = b.limit

/-- The boot store and the register file are in their one form. -/
def Blk.formed (b : Blk) : Prop := Sparse.wf 0xFF b.aon.nor = true ∧ Sparse.wf 0 b.fs = true

/-- The requests of the table, each with its opcode (Tables 3.8 to 3.10). -/
def requestRows : List ((Frame → Instr) × Nat) := [
  (.rdLine, Opc.rdLine), (.rdShared, Opc.rdShared), (.rdOwn, Opc.rdOwn), (.rdLineNa, Opc.rdLineNa), (.rdVol, Opc.rdVol),
  (.wrLine, Opc.wrLine), (.wrPartial, Opc.wrPartial), (.wrLineFinal, Opc.wrLineFinal), (.wrSignal, Opc.wrSignal),
  (.add, Opc.add), (.and_, Opc.and), (.or_, Opc.or), (.xor_, Opc.xor), (.swap, Opc.swap), (.cas, Opc.cas), (.minS, Opc.minS),
  (.maxS, Opc.maxS), (.minU, Opc.minU), (.maxU, Opc.maxU), (.minF32, Opc.minF32), (.maxF32, Opc.maxF32), (.fadd32, Opc.fadd32),
  (.faddExact, Opc.faddExact)]

/-- The frames of holders, each with its opcode (Table 5.4). -/
def holderRows : List ((Frame → Instr) × Nat) := [(.snpAck, Opc.snpAck), (.grantAck, Opc.grantAck), (.wbDirty, Opc.wbDirty)]

/-- The responses, each with its opcode (Table 3.11). -/
def responseRows : List ((Frame → Instr) × Nat) :=
  [(.rspData, Opc.rspData), (.rspAck, Opc.rspAck), (.rspErr, Opc.rspErr), (.retryRsv, Opc.retryRsv)]

/-- A frame with the opcode of its row. -/
def Frame.as (f : Frame) (opc : Nat) : Frame := { f with opc := .ofNat 8 opc }

/-- A command register shows that its command has finished, with a code (R564). -/
def Blk.endedAs (b : Blk) (c : CmdReg) (code : Nat) : Prop :=
  b.get c.done = 1 ∧ b.get c.code = code ∧ b.get Reg.INT_STATUS_CMD_DONE c.page = 1

/-- The fields of a space are as they were. -/
def Blk.keeps (b old : Blk) (sp : Space) : Prop :=
  ∀ (f : Fld) (i : Nat), f.sp = sp → f.key i / 2 ^ 60 = sp.code → b.get f i = old.get f i

/-- Time, links, home, memory, tiers, engines, flash, PCIe and the AON island are as they were: only registers and tables moved. -/
def Blk.onlyFields (b old : Blk) : Prop :=
  b.t = old.t ∧ b.el = old.el ∧ b.ports = old.ports ∧ b.sw = old.sw ∧ b.home = old.home ∧ b.store = old.store ∧ b.tier = old.tier ∧
  b.orig = old.orig ∧ b.eng = old.eng ∧ b.prot = old.prot ∧ b.peat = old.peat ∧ b.pcie = old.pcie ∧ b.aon = old.aon

/-- The descriptors of the table, each with its opcode (Table 10.5). -/
def descriptorRows : List ((Queue → Nat → Instr) × Nat) := [
  (.nop, Dop.nop), (.move, Dop.move), (.graphRun, Dop.graphRun), (fun q i => .syncWait q i none, Dop.syncWait), (.syncSignal, Dop.syncSignal),
  (.syncPublish, Dop.syncPublish), (.embLookup, Dop.embLookup), (.embUpdate, Dop.embUpdate), (.vseSearch, Dop.vseSearch),
  (.vseRerank, Dop.vseRerank), (.vseMutate, Dop.vseMutate), (.vseMerge, Dop.vseMerge), (.wstStream, Dop.wstStream)]

/-- The handoff descriptors, each with its OP (Table 8.8). -/
def handoffRows : List ((Queue → Nat → Instr) × Nat) := [(.tierHandoffHandoff, 0), (.tierHandoffAccept, 1), (.tierHandoffRevert, 2)]

/-- The descriptor of a queue at an index that is fetched and not started, with an opcode. -/
def Blk.fetched (b : Blk) (op q i : Nat) : Option Work :=
  b.eng.works.find? fun w => w.kind == 0 && w.queue == q && w.index == i && w.phase == Phase.fetched && w.opcode == op

/-- The KIND in line 0 of the request chunk that a peer sent on a channel (Tables 12.5, 13.6). -/
def Chan.kind (c : Chan) : Nat :=
  match c.req.find? (fun l => l.1 == 0) with
  | some l => dfield l.2.toNat 0 7 0
  | none => 0

/-- The commands that take a reply trailer and a chunk's timeout, by engine, with the page and counters they act on. -/
def exchangeRows : List ((Fin 64 → Nat → Instr) × (Fin 64 → Nat → Instr) × Nat × Nat × Fld × Fld) := [
  (.embReplyTrailer, .embChunkTimeout, 0, Pg.emb, Reg.EMB_XCHG_BAD_CNT, Reg.EMB_XCHG_TIMEOUT_CNT),
  (.vseReplyTrailer, .vseChunkTimeout, 1, Pg.vse, Reg.VSE_XCHG_BAD_CNT, Reg.VSE_XCHG_TIMEOUT_CNT)]

/-- The commands that take up a peer's request chunk, with engine and the kinds they take. -/
def serveRows : List ((Fin 64 → Nat → Instr) × Nat × (Nat → Bool)) := [
  (.embGatherChunk, 0, (· != 2)), (.embUpdateChunk, 0, (· == 2)), (.vseScanChunk, 1, fun _ => true)]

end Sys2Proof.Machine
end

