-- ==== Sys2Proof/Certificates/Slice0/Obligations.lean ====
section
/-! DEFINITION. The statements for the provers. `State.settled b`: the state once a command has had the effect `b` and what follows by
itself is done (log entry 27); `State.signed b`: where only the signs of errors follow; `State.plain b`: where nothing does. -/
open Sys2Proof Sys2Proof.Machine

/-- A step takes the command at the front of the queue and runs it with the queue's rest behind it; on an empty queue the block idles (the model's
choice, log entry 1). -/
def Obligations.StepRunsFront : Prop :=
  (∀ (c : Instr) (rest : List Instr) (s : State), s.pending = c :: rest → Sys2Proof.Machine.step s = exec c { s with pending := rest }) ∧
  (∀ s : State, s.pending = [] → Sys2Proof.Machine.step s = .next s)

/-- Every command answers a next state in every state: the spec gives each an effect, and none stops the part. The queue is left as it was. -/
def Obligations.EveryCommandCompletes : Prop :=
  ∀ (c : Instr) (s : State), ∃ t : State, exec c s = .next t ∧ t.pending = s.pending

/-- What waits in the queue has no bearing on what a command does to the part. -/
def Obligations.QueueIsUnseen : Prop :=
  ∀ (c : Instr) (s t : State) (q : List Instr), exec c s = .next t → exec c { s with pending := q } = .next { t with pending := q }

/-- Reset (R523, R469, R471, R240, Table 17.9, Table 18.13): the counter stands at zero, RESTART_EPOCH is 0, every field of GLB_RESET_MAP_SW is L2, no
key slot is loaded, no debug level is open, no port is enabled, no error is recorded, no command is in progress, and registers and boot store hold
their one form. That the reset is the one power-on begins, that nothing waits and that the boot store is erased are the model's choices (log entries 1
and 3). A part fresh from State.reset is in MANUFACTURE with nothing blown, so that both hold of it. -/
def Obligations.ResetValues : Prop :=
  (State.reset.pending = [] ∧ State.reset.blk.t = 0 ∧ State.reset.blk.el = 0 ∧ State.reset.blk.aon.mode = .reset 0 ∧
  State.reset.blk.get Reg.WIN_RESTART_EPOCH_RESTART_EPOCH = 0 ∧ State.reset.blk.get Reg.GLB_RESET_MAP_SW_MAP = 0xAAAA ∧
  State.reset.blk.get Reg.DBG_STATE_LEVEL = 0 ∧ State.reset.blk.get Reg.TIME_STATUS_STATE = 0 ∧
  State.reset.blk.get Reg.GLB_NODE_ID_NODE = 0 ∧ State.reset.blk.get Reg.GLB_FMW_BASE_BASE = 0x1FF7FD ∧
  State.reset.blk.get Reg.SWC_REQ_TIMEOUT_TIMEOUT_US = 4000 ∧ State.reset.blk.get Reg.PWR_VCORE_TARGET_MV = 750 ∧
  (∀ i : Nat, State.reset.blk.get Reg.slot_LOADED i = 0 ∧ State.reset.blk.get Reg.FQP_CTRL_ENABLE i = 0 ∧
    State.reset.blk.get Reg.ERR_STICKY_ERR i = 0 ∧ State.reset.blk.get Reg.PAGE_STATUS_BUSY i = 0 ∧ State.reset.blk.get Reg.qctx_STATE i = 0) ∧
  State.reset.blk.formed ∧ State.reset.fuse.life = 0) ∧
  (State.reset.fuse.life = 0 ∧ State.reset.fuse.seed = 0 ∧ State.reset.fuse.dbgKey = 0 ∧ State.reset.fuse.svn = 0 ∧ State.reset.fuse.map = 0xAA55 ∧
  State.reset.fuse.le State.reset.fuse)

/-- What the model does by itself after a command (`settle`, log entry 27, DESIGN CHOICE) does nothing in a part in which nothing is under way:
registers, tables, memory, queues, engines and links stay as the command left them, and only the list of standing fatal errors, the error interrupt
and its vector move, which R451, R474 and R535 give. -/
def Obligations.IdlePartSettles : Prop :=
  ∀ (s : State) (b : Blk), b.idle = true → b.alive = true →
    ∃ (aon : Aon) (pcie : Pcie) (emits : List Emit),
      s.settled b = { s with blk := { b with aon, pcie, emits } } ∧ { aon with fatal := b.aon.fatal } = b.aon ∧
      { pcie with errUp := b.pcie.errUp, pba := b.pcie.pba } = b.pcie ∧
      (b.intUp = b.pcie.errUp → emits = b.emits)

/-- While the part is in an L0 or L1 reset, in P3 or P4 or without its rails, no command but those of the AON island, of the board and of the PCIe
link is taken: only what the part drives is cleared (R572, log entry 28). So it is while the part is held for scan at D3, but for what comes through
JTAG (R520), and with the PCIe link's commands until the link trains. -/
def Obligations.NothingAnswersInReset : Prop :=
  (∀ (c : Instr) (s : State), s.blk.alive = false → c.ofBoard = false → c.ofLink = false → exec c s = .next (s.plain s.blk.clear)) ∧
  (∀ (c : Instr) (s : State), s.blk.level = 3 → c.ofBoard = false → c.ofLink = false → c.byJtag = false → exec c s = .next (s.plain s.blk.clear)) ∧
  (∀ (c : Instr) (s : State), s.blk.pcieOn = false → c.ofLink = true → exec c s = .next (s.plain s.blk.clear))

/-- Fuses only ever gain blown bits, the anti-rollback count only rises, and what manufacture fused stays, whatever command runs: no step gives a fuse
back (R503, R490). -/
def Obligations.FusesOnlyGain : Prop :=
  ∀ (s t : State), Sys2Proof.Machine.step s = .next t → s.fuse.le t.fuse

/-- A step never takes the part back in Table 17.1: the lifecycle stays or goes on, and DECOMMISSIONED is never left. -/
def Obligations.LifecycleGoesOn : Prop :=
  ∀ (s t : State), Sys2Proof.Machine.step s = .next t → s.fuse.life ≤ t.fuse.life ∧ (s.fuse.life = 3 → t.fuse = { s.fuse with svn := t.fuse.svn })

/-- A frame survives its way over a port (Tables 3.5 and 3.6, R81): from the bytes it is sent as, the 32 of the header, the 64 of the payload where PL
is set and the 8 of the tail, every field is read back as it was, RSV bits with them, whatever the values; and a frame that its source seals passes
its FCRC with END good. -/
def Obligations.FramesSurviveSending : Prop :=
  ∀ f : Frame,
    f.bytes.length = f.len ∧ f.sealed.crcOk = true ∧ f.sealed.endc = 0 ∧
    { f.sealed with fcrc := f.fcrc, endc := f.endc, mark := f.mark } = f ∧
    ((f.pl = false → f.data = 0) →
      (Frame.ofHeader (ofBytesLE (f.bytes.take 32))).withRest (ofBytesLE ((f.bytes.take (f.len - 8)).drop 32)) (ofBytesLE (f.bytes.drop (f.len - 8))) = f)

/-- Links, bring-up (R70, R494, R592): setting ENABLE starts step 1; lock, alignment and FEC lock lead to the next steps; a matching control flit
brings the link up; a step that misses its bound, or waits 10 ms in `down`, goes back; clearing ENABLE darkens the port. FEC lock sends the part's own
control flit. A port is dark where it is disabled, while the OPTICS group is, and in P2 between attempts. A control flit in `init` from a peer that a
Gennurik-role port takes (R70): the link is up, both LSEQ counters start at 0, and the peer's grants are held, with the credits the flit carries
(R72). The byte offsets of a control flit's fields, and a port that stays in `init`, are readings (log entries 13 and 42). -/
def Obligations.LinkBringUp : Prop :=
  (∀ (p : PortId) (s : State),
    (∀ (gennurik : Bool) (lo hi : Node), s.blk.opens (Pg.fqp p.val) = true → s.blk.aon.mode = .run → s.blk.get Reg.FQP_CTRL_ENABLE p.val = 0 →
      exec (.portEnable p gennurik lo hi) s = .next (s.settled ((((s.blk.clear.puts p.val [(Reg.FQP_SRC_RANGE_SRC_LO, lo.toNat),
        (Reg.FQP_SRC_RANGE_SRC_HI, hi.toNat), (Reg.FQP_CTRL_ROLE, b2n gennurik)]).pinsOn 32).put Reg.FQP_CTRL_ENABLE 1 p.val).attempt p.val))) ∧
    (s.blk.opens (Pg.fqp p.val) = true → s.blk.get Reg.FQP_CTRL_ENABLE p.val = 1 →
      exec (.portDisable p) s = .next (s.settled ((((s.blk.clear.takeWhole (s.blk.port p.val).rx.length p.val).put Reg.FQP_CTRL_ENABLE 0
        p.val).link p.val Ls.disabled).linkGone p.val false))) ∧
    (s.blk.on = true → s.blk.get Reg.FQP_STATE_LINK_STATE p.val = Ls.lock →
      exec (.laneLockAcquired p) s = .next (s.settled (s.blk.clear.nextStep p.val Ls.align))) ∧
    (s.blk.on = true → s.blk.get Reg.FQP_STATE_LINK_STATE p.val = Ls.align →
      exec (.flitAligned p) s = .next (s.settled (s.blk.clear.nextStep p.val Ls.fec))) ∧
    (s.blk.on = true → s.blk.get Reg.FQP_STATE_LINK_STATE p.val = Ls.fec →
      exec (.fecLocked p) s = .next (s.settled ((s.blk.clear.nextStep p.val Ls.init).emit (.ctrlFlit p.val (s.blk.ownCtrl p.val)))) ∧
      (s.blk.ownCtrl p.val).good = true ∧ (s.blk.ownCtrl p.val).typ = 3) ∧
    (s.blk.on = true → 1 ≤ s.blk.get Reg.FQP_STATE_LINK_STATE p.val → s.blk.get Reg.FQP_STATE_LINK_STATE p.val ≤ 4 →
      (s.blk.port p.val).stay = false → s.blk.past (s.blk.port p.val).stepAt (stepBound (s.blk.get Reg.FQP_STATE_LINK_STATE p.val)) = true →
      exec (.bringupStepTimeout p) s = .next (s.settled (s.blk.clear.link p.val Ls.down))) ∧
    (s.blk.on = true → s.blk.get Reg.FQP_CTRL_ENABLE p.val = 1 → s.blk.resting p.val = true → s.blk.past (s.blk.port p.val).start (ms 10) = true →
      exec (.bringupRetry p) s = .next (s.settled (s.blk.clear.attempt p.val))) ∧
    (p.val < s.blk.ports.length → ∀ st : Nat, st < 8 → ((s.blk.link p.val st).port p.val).lit =
      (bitAt (s.blk.get Reg.GLB_PIN_EN_GROUPS) 5 && st != Ls.disabled && !((st == Ls.down || (st == Ls.init && (s.blk.port p.val).stay)) && s.blk.get Reg.PWR_CFG_RUN_STATE == 2)))) ∧
  (∀ (p : PortId) (f : Flit) (s : State), s.blk.on = true → s.blk.get Reg.FQP_STATE_LINK_STATE p.val = Ls.init →
    (s.blk.port p.val).stay = false → f.good = true → f.typ = 3 → s.blk.get Reg.FQP_CTRL_ROLE p.val = 1 →
    bits f.bytes.toNat 23 16 = 1 → bits f.bytes.toNat 15 0 ≤ 0x3F → s.blk.grantUsed + (s.blk.grants p.val).foldl (· + ·) 0 ≤ 2621440 →
    ∃ b : Blk, exec (.ctrlFlitReceive p f) s = .next (s.settled b) ∧ b.get Reg.FQP_STATE_LINK_STATE p.val = Ls.up ∧
      b.get Reg.FQP_STATE_PEER_NODE p.val = bits f.bytes.toNat 15 0 ∧ b.get Reg.FQP_STATE_PEER_ROLE p.val = 1 ∧
      (p.val < s.blk.ports.length → (b.port p.val).rxNext = 0 ∧ (b.port p.val).txNext = 0 ∧ (b.port p.val).unacked = [] ∧
        (b.port p.val).crd = [bits f.bytes.toNat 47 32 + f.crdCoh.toNat, bits f.bytes.toNat 63 48 + f.crdReq.toNat,
          bits f.bytes.toNat 79 64 + f.crdRsp.toNat, bits f.bytes.toNat 95 80 + f.crdBulk.toNat]) ∧
      b.home = s.blk.home ∧ b.sw = s.blk.sw ∧ b.store = s.blk.store ∧ b.t = s.blk.t)

/-- Flits and replay (R72 to R77, R80): what a port does with a good data flit in order, a good idle flit that shows no gap, a bad one, a bad control
flit, a flit too long without acknowledgement, one never acknowledged for 10 us, a lane that loses lock and one that has lacked it too long, and a
class without credit. When the time of CREDIT_STARVED begins is a reading (log entry 43), as is what a bad idle flit draws (log entry 77). -/
def Obligations.FlitsAndReplay : Prop :=
  ∀ (p : PortId) (s : State), s.blk.on = true →
    (∀ f : Flit, s.blk.up p.val = true → f.good = true → f.typ = 1 → f.lseq.toNat = (s.blk.port p.val).rxNext → 1 ≤ f.valid.toNat →
      f.valid.toNat ≤ 236 →
      exec (.dataFlitReceive p f) s = .next (s.settled (((((s.blk.clear.fec p.val f).setPort p.val fun q => { q with
        rxNext := (q.rxNext + 1) % 4096, nak := false, rx := q.rx ++ (bytesLE 236 f.bytes.toNat).take f.valid.toNat, rxAt := s.blk.el }).flitControl
          p.val f).dropRest p.val)))) ∧
    (∀ f : Flit, s.blk.up p.val = true → f.good = true → f.typ = 2 → (f.lseq.toNat + 4096 + 1 - (s.blk.port p.val).rxNext) % 4096 = 0 →
      exec (.idleFlitReceive p f) s = .next (s.settled (((s.blk.clear.fec p.val f).setPort p.val fun q => { q with nak := false }).flitControl p.val f))) ∧
    (∀ f : Flit, s.blk.up p.val = true → f.good = false →
      exec (.idleFlitReceive p f) s = .next (s.settled ((s.blk.clear.fec p.val f).setPort p.val fun q => { q with nak := true }))) ∧
    (∀ f : Flit, s.blk.up p.val = true → f.good = false →
      exec (.ctrlFlitReceive p f) s = .next (s.settled ((s.blk.clear.fec p.val f).setPort p.val fun q => { q with nak := true }))) ∧
    (∀ (h : TxFlit) (l : List TxFlit), (s.blk.port p.val).unacked = h :: l → s.blk.up p.val = true →
      (s.blk.past h.sent (us 2) = true → s.blk.past h.first (us 10) = false →
        exec (.replayTimeout p) s = .next (s.settled (s.blk.clear.replay p.val))) ∧
      (s.blk.past h.first (us 10) = true → exec (.replayTimeout p) s = .next (s.settled (s.blk.clear.linkDown p.val)))) ∧
    (∀ lane : Fin 8, exec (.laneLockLoss p lane) s = .next (s.settled (s.blk.clear.setPort p.val fun q => { q with
        lost := if q.lost.contains lane.val then q.lost else q.lost ++ [lane.val], lostAt := if q.lost = [] then s.blk.el else q.lostAt }))) ∧
    (s.blk.up p.val = true → (s.blk.port p.val).lost ≠ [] →
      s.blk.past (s.blk.port p.val).lostAt (us (s.blk.get Reg.FQP_TIMING_LOCK_HOLD_US p.val)) = true →
      exec (.lockHoldExpire p) s = .next (s.settled (s.blk.clear.linkDown p.val))) ∧
    (∀ cls : Fin 4, s.blk.up p.val = true → (s.blk.port p.val).out.any (fun e => e.fr.tc.toNat == cls.val) = true →
      s.blk.past (nth 0 (s.blk.port p.val).starved cls.val) (ms 1) = true →
      exec (.creditStarved p cls) s = .next (s.settled (s.blk.clear.err (Pg.fqp p.val) 7)))

/-- Frames at a port (R78, R105 to R111): of the classes whose first granted frame has credit, the one the weights choose sends it; an arriving frame
whose destination is this part is queued for the home as soon as its header is in; its good tail completes it; a frame whose bytes stop coming is
abandoned. That each frame goes out in flits of its own is the model's choice (log entry 12). -/
def Obligations.FramesAtAPort : Prop :=
  ∀ (p : PortId) (s : State), s.blk.on = true → s.blk.up p.val = true →
    (∀ (e : QEnt) (c : Nat) (b : Blk), (s.blk.port p.val).sending = none → (s.blk.port p.val).unacked.length < 2048 →
      s.blk.clear.classPick ((p.val * 8 + 6) * 16) (s.blk.mayStart p.val) = some (c, b) → s.blk.firstOut p.val c = some e → e.done = true →
      e.fr.cost ≤ nth 0 (s.blk.port p.val).crd c ∧
      exec (.frameSend p) s = .next (s.settled (((b.setPort p.val fun q => { q with
        out := q.out.erase e, crd := modNth (· - e.fr.cost) c q.crd, sending := none }).pushFlit p.val e .whole).count Reg.FQP_TX_FRAME_CNT p.val))) ∧
    (∀ (fr : Frame), (s.blk.port p.val).hdr = none → (s.blk.port p.val).drop = 0 → 32 ≤ (s.blk.port p.val).rx.length →
      fr = Frame.ofHeader (ofBytesLE ((s.blk.port p.val).rx.take 32)) → fr.mc = false → s.blk.admits p.val fr = true →
      s.blk.route fr.src.toNat fr.dst.toNat fr.tc.toNat = .deliver →
      exec (.frameHeaderReceive p) s = .next (s.settled ((s.blk.clear.newId.2.enqueue
        { id := s.blk.sw.nextId, fr, eg := localEg, done := false, stamp := s.blk.el, src := p.val, owes := true }).transit p.val s.blk.sw.nextId fr 0))) ∧
    (∀ (h : Transit) (fr : Frame), (s.blk.port p.val).hdr = some h → h.mode = 0 → h.fr.len ≤ (s.blk.port p.val).rx.length →
      fr = h.fr.withRest (ofBytesLE (((s.blk.port p.val).rx.take (h.fr.len - 8)).drop 32))
        (ofBytesLE (((s.blk.port p.val).rx.take h.fr.len).drop (h.fr.len - 8))) → fr.endc = 0 → fr.crcOk = true →
      exec (.frameTailReceive p false) s = .next (s.settled (((((s.blk.clear.setPort p.val fun q => { q with rx := q.rx.drop h.fr.len, hdr := none }).count
        Reg.FQP_RX_FRAME_CNT p.val).completeTransit h.id fr 0).creditBack p.val fr h.id)))) ∧
    ((s.blk.port p.val).drop = 0 → (s.blk.port p.val).rx ≠ [] → (s.blk.port p.val).wholeIn = false →
      s.blk.past (s.blk.port p.val).rxAt (us (s.blk.stallUs p.val)) = true →
      exec (.frameStallTimeout p) s = .next (s.settled ((((s.blk.clear.abandon p.val Endc.stalled).setPort p.val fun r => { r with
        drop := if (s.blk.port p.val).hdr.isSome then 1 else 2 }).freeUnrouted p.val |>.count Reg.FQP_STALL_CNT p.val).err (Pg.fqp p.val) 4)))

/-- The switch core (R124, R130, R131, R142): an egress grants the aged frame first; a hole timer that has run moves expected on; Slough full too long
is cut back; `src_reset` clears every stream of a source at every sink output and leaves the other streams. -/
def Obligations.SwitchCommands : Prop :=
  ∀ (s : State),
    (∀ (eg : Fin 25) (e : QEnt), s.blk.on = true → s.blk.mayGrant eg.val = true → s.blk.aged eg.val = some e →
      exec (.egressGrant eg) s = .next (s.settled ((s.blk.clear.count Reg.SWC_AGE_GRANT_CNT).takeGrant eg.val e))) ∧
    (∀ (sink : Fin 25) (src dst : Node) (tc : Fin 4) (st : Stream), s.blk.on = true →
      s.blk.stream sink.val src.toNat dst.toNat tc.val = st → st.held ≠ [] → s.blk.past st.timer (us (s.blk.get Reg.SWC_RESEQ_HOLE_US)) = true →
      exec (.holeTimeout sink src dst tc) s = .next (s.settled (s.blk.clear.closeHole st))) ∧
    (∀ t : Nat, s.blk.on = true → s.blk.sw.fullSince = some t → s.blk.past t (ms (s.blk.get Reg.SLOUGH_THRESH_FULL_LIMIT_MS)) = true →
      exec .sloughFullLimit s = .next (s.settled ((Blk.sloughDiscard s.blk.sw.queue.length s.blk.clear).err Pg.slough 1))) ∧
    (∀ node : Node, s.blk.opens Pg.swc = true → s.blk.get Reg.SWC_CMD_STATUS_DONE = 1 →
      ∃ b : Blk, exec (.srcReset node) s = .next (s.settled b) ∧ b.get Reg.SWC_CMD_STATUS_DONE = 1 ∧ b.get Reg.SWC_CMD_STATUS_CODE = ok ∧
        b.sw.streams = s.blk.sw.streams.filter (·.src ≠ node.toNat) ∧ b.sw.queue = s.blk.sw.queue ∧ b.ports = s.blk.ports ∧
        b.home = s.blk.home ∧ b.store = s.blk.store ∧ b.orig = s.blk.orig)

/-- Lines and atomics (R94 to R97, R231, R236, Table 3.10): a line written under a key and tweak is what the next read of it decodes and decrypts to,
and no other line changes; a frame filled under a key reads as zeros; an atomic changes only its target, to what its operation makes of the old value,
which its requester receives in an otherwise zero line, each row of the table as it says (CAS succeeds exactly when the old value is operand A; -0
lies below +0, and a NaN loses to any number); FADD_EXACT adds to the exact cell alone. What a line reads as that nothing has written is free (log
entry 2). -/
def Obligations.LinesAndAtomics : Prop :=
  (∀ (b : Blk) (ra key tweak : Nat) (d : Line), b.lostAt ra = false →
    (b.writeRa ra (.enc key tweak d)).decodeAt ra = (.good (.enc key tweak d), 0) ∧ (Stored.enc key tweak d).plain key tweak = d ∧
    ∀ r : Nat, r ≠ ra → (b.writeRa ra (.enc key tweak d)).decodeAt r = b.decodeAt r) ∧
  (∀ (b : Blk) (frame key block ra : Nat), ra / 1024 = frame → b.lostAt ra = false →
    ∃ tweak : Nat, (b.fillFrame frame { key := some key, block }).storedAt ra = (.enc key tweak 0, 0) ∧ tweak = b.tweak (block * 1024 + ra % 1024)) ∧
  (∀ (f : Frame) (k : Nat) (l : Line), f.op ≠ Opc.faddExact → k + f.width ≤ 64 →
    lineGet (atomicOn f k l).1 k f.width =
      atomicOp f.op f.width (lineGet l k f.width) (lineGet f.data 0 f.width) (lineGet f.data f.width f.width) % 2 ^ (8 * f.width) ∧
    (atomicOn f k l).2 = .ofNat 512 (lineGet l k f.width) ∧
    (∀ j : Nat, j < 64 → j < k ∨ k + f.width ≤ j → lineByte (atomicOn f k l).1 j = lineByte l j) ∧
    ∀ o a n : Nat, o = lineGet l k f.width → a = lineGet f.data 0 f.width → n = lineGet (atomicOn f k l).1 k f.width →
      (f.op = Opc.add → n = (o + a) % 2 ^ (8 * f.width)) ∧ (f.op = Opc.and → n = o &&& a) ∧ (f.op = Opc.or → n = o ||| a) ∧
      (f.op = Opc.xor → n = o ^^^ a) ∧ (f.op = Opc.swap → n = a) ∧
      (f.op = Opc.cas → (o = a → n = lineGet f.data f.width f.width) ∧ (o ≠ a → (atomicOn f k l).1 = l)) ∧
      (f.op = Opc.minS → (n = o ∨ n = a) ∧ toSigned (8 * f.width) n = min (toSigned (8 * f.width) o) (toSigned (8 * f.width) a)) ∧
      (f.op = Opc.maxS → (n = o ∨ n = a) ∧ toSigned (8 * f.width) n = max (toSigned (8 * f.width) o) (toSigned (8 * f.width) a)) ∧
      (f.op = Opc.minU → n = min o a) ∧ (f.op = Opc.maxU → n = max o a) ∧
      (f.op = Opc.minF32 ∨ f.op = Opc.maxF32 → f.width = 4 →
        (f32Nan o = true → f32Nan a = true → n = 0x7FC00000) ∧ (f32Nan o = true → f32Nan a = false → n = a) ∧
        (f32Nan o = false → f32Nan a = true → n = o) ∧
        (f32Nan o = false → f32Nan a = false → (n = o ∨ n = a) ∧
          (f.op = Opc.minF32 → f32Key n ≤ f32Key o ∧ f32Key n ≤ f32Key a) ∧ (f.op = Opc.maxF32 → f32Key o ≤ f32Key n ∧ f32Key a ≤ f32Key n))) ∧
      (f.op = Opc.fadd32 → f.width = 4 → n = f32Add o a ∧ (f32Nan o = true ∨ f32Nan a = true → n = 0x7FC00000))) ∧
  (∀ (f : Frame) (k : Nat) (l : Line), f.op = Opc.faddExact →
    (atomicOn f k l).2 = 0 ∧
    lineGet (atomicOn f k l).1 0 48 = cellAdd (lineGet l 0 48) (if f.form then f.data.toNat % 2 ^ 384 else cellPartial (f.data.toNat % 2 ^ 32)) ∧
    ∀ j : Nat, 48 ≤ j → j < 64 → lineByte (atomicOn f k l).1 j = lineByte l j) ∧
  f32Key 0x80000000 < f32Key 0

/-- Requests at the home (R25, R26, R45, R52, R60, R90, R99, R102, R184, R360): a frame that does not come to the home changes nothing; a request that
fails a check is answered RSP_ERR with that status; a FENCED part answers FENCED; the window stage refuses with its status, its window's epoch and
redirect or the fence flag; else the request enters its window's count and waits, held where it is FINAL and its stream has writes not landed, or its
line must see earlier ones first; registers, memory and engines stay. -/
def Obligations.RequestsArrive : Prop :=
  ∀ (mk : Frame → Instr) (o : Nat) (f : Frame) (s : State), (mk, o) ∈ requestRows → s.blk.on = true →
    (s.blk.comesHome (f.as o) = false → exec (mk f) s = .next (s.settled s.blk.clear)) ∧
    (s.blk.comesHome (f.as o) = true →
    (∀ st : Nat, (f.as o).check = some st →
      exec (mk f) s = .next (s.settled ((s.blk.clear.takeInbox (f.as o)).refuse (f.as o) st))) ∧
    ((f.as o).check = none → s.blk.fenced = true →
      exec (mk f) s = .next (s.settled ((s.blk.clear.takeInbox (f.as o)).refuse (f.as o) St.fenced))) ∧
    (∀ (st : Nat) (w : Option Nat) (fence : Bool), (f.as o).check = none → s.blk.fenced = false →
      s.blk.windowStage (f.as o) = .refuse st w fence →
      exec (mk f) s = .next (s.settled ((s.blk.clear.takeInbox (f.as o)).windowRefuse (f.as o) st w fence).settleHome)) ∧
    (∀ w off : Nat, (f.as o).check = none → s.blk.fenced = false → s.blk.windowStage (f.as o) = .pass w off →
      ∃ b : Blk, exec (mk f) s = .next (s.settled b.settleHome) ∧
        b.get Reg.window_INFLIGHT w = (s.blk.get Reg.window_INFLIGHT w + 1) % 2 ^ 32 ∧
        (∃ q : Req, b.home.reqs = s.blk.home.reqs ++ [q] ∧ q.id = s.blk.home.nextId ∧ q.fr = f.as o ∧ q.win = some w ∧ q.off = off ∧
          q.stage = .hold ∧ (q.wait = .final ↔ b.mustHold (f.as o) (off / 64) = true)) ∧
        b.home.inbox = s.blk.home.inbox.erase (f.as o) ∧
        (∀ (g : Fld) (i : Nat), g.key i ≠ Reg.window_INFLIGHT.key w → b.get g i = s.blk.get g i) ∧
        b.store = s.blk.store ∧ b.eng = s.blk.eng ∧ b.orig = s.blk.orig ∧ b.ports = s.blk.ports ∧ b.sw = s.blk.sw ∧ b.t = s.blk.t))

/-- Holders' frames (R152 to R157): one with another restart epoch, or without the form of Table 5.4, is discarded and counted; a snoop's answer,
which carries its TAG, ends that snoop; an acknowledged grant of a line alone makes its owner's entry `owned` with the time of the acknowledgement;
the owner's write-back with no snoop out joins its line's order; another's is late and is acknowledged all the same. The home's timers (R99, R162,
R163, R164, R167): an unanswered snoop is sent again once, then its holder is removed; a grant's acknowledgement is taken as received; the recall that
waited for a tenure is served; a slot unmatched within its hold is released; a held FINAL frame whose stream's earlier writes have landed goes on. -/
def Obligations.HoldersAndTimers : Prop :=
  (∀ (f : Frame) (s : State), s.blk.on = true → f.tc = 0 →
    (∀ (mk : Frame → Instr) (o : Nat), (mk, o) ∈ holderRows →
      (f.restart.toNat ≠ s.blk.restart → s.blk.comesHome (f.as o) = true →
        exec (mk f) s = .next (s.settled ((s.blk.clear.takeInbox (f.as o)).count Reg.WIN_RESTART_DISCARD_CNT))) ∧
      (f.restart.toNat = s.blk.restart → s.blk.comesHome (f.as o) = true → (f.as o).cohOk = false →
        exec (mk f) s = .next (s.settled (((s.blk.clear.takeInbox (f.as o)).count Reg.FEN_COH_DISCARD_CNT).err Pg.fen 0)))) ∧
    (f.restart.toNat = s.blk.restart → s.blk.fenced = false → ∀ i n : Nat, s.blk.fenOf f.src.toNat = some n →
      (∀ sn : Snoop, s.blk.comesHome (f.as Opc.snpAck) = true → (f.as Opc.snpAck).cohOk = true →
        s.blk.cohEntry f (fun i => (s.blk.snoopAs n f.tag.toNat i).isSome) = some i → s.blk.snoopAs n f.tag.toNat i = some sn →
        ¬((sn.opc = Opc.snpInv ∧ f.held ≠ 0) ∨ (sn.opc = Opc.snpShr ∧ f.held = 2)) →
        exec (.snpAck f) s = .next (s.settled ((s.blk.clear.takeInbox (f.as Opc.snpAck)).answerSnoop sn (if f.dirty then some f.data else none)
          f.held).settleHome)) ∧
      (∀ gr : Grant, s.blk.comesHome (f.as Opc.grantAck) = true → (f.as Opc.grantAck).cohOk = true →
        s.blk.cohEntry f (fun i => (s.blk.grantTo n f.tag.toNat i).isSome) = some i → s.blk.grantTo n f.tag.toNat i = some gr →
        gr.excl = true → s.blk.get Reg.dir_STATE i = Ds.grantWait →
        ∃ b : Blk, exec (.grantAck f) s = .next (s.settled b.settleHome) ∧ b.get Reg.dir_STATE i = Ds.owned ∧
          b.get Reg.dir_ACK_TIME i = s.blk.now % 2 ^ 32 ∧ b.get Reg.dir_ACKS_DUE i = s.blk.get Reg.dir_ACKS_DUE i - 1 ∧
          b.home.grants = s.blk.home.grants.erase gr ∧ b.home.reqs = s.blk.home.reqs ∧ b.store = s.blk.store ∧
          ∀ (g : Fld) (j : Nat), g.key j ≠ Reg.dir_STATE.key i → g.key j ≠ Reg.dir_ACK_TIME.key i → g.key j ≠ Reg.dir_ACKS_DUE.key i →
            b.get g j = s.blk.get g j) ∧
      (s.blk.comesHome (f.as Opc.wbDirty) = true → (f.as Opc.wbDirty).cohOk = true → s.blk.ownEntry f = some (n, i) → s.blk.snoopTo n i = none →
        exec (.wbDirty f) s = .next (s.settled (((s.blk.clear.takeInbox (f.as Opc.wbDirty)).queueBack i (f.as Opc.wbDirty)).settleHome))) ∧
      (s.blk.comesHome (f.as Opc.wbDirty) = true → (f.as Opc.wbDirty).cohOk = true → s.blk.ownEntry f = none →
        s.blk.cohEntry f (fun _ => true) = some i →
        exec (.wbDirty f) s = .next (s.settled (((s.blk.clear.takeInbox (f.as Opc.wbDirty)).count Reg.FEN_LATE_COH_CNT).wbAck (f.as Opc.wbDirty) St.ok))))) ∧
  (∀ s : State, s.blk.on = true →
    (∀ (n : Fin 64) (line : Nat) (sn : Snoop), s.blk.fenced = false →
      s.blk.home.snoops.find? (fun t => t.fen == n.val && s.blk.get Reg.dir_LINE t.idx == line) = some sn →
      s.blk.past sn.sent (us (s.blk.get Reg.FEN_CFG_SNOOP_TIMEOUT_US)) = true →
      (sn.resent = false → ∃ b : Blk, b.home.snoops = s.blk.home.snoops.map (fun t => if t = sn then { t with sent := s.blk.el, resent := true } else t) ∧
        b.fs = s.blk.fs ∧ b.home.reqs = s.blk.home.reqs ∧
        exec (.snoopTimeout n line) s = .next (s.settled ((b.count Reg.FEN_SNOOP_CNT).answer (s.blk.cohFrame n.val sn.idx sn.opc sn.tag sn.reason)))) ∧
      (sn.resent = true → s.blk.get Reg.dir_OWNER_V sn.idx = 0 →
        exec (.snoopTimeout n line) s = .next (s.settled ((((s.blk.clear.count Reg.FEN_SNOOP_TIMEOUT_CNT).errInfo Pg.fen 1
          (s.blk.get Reg.member_NODE n.val)).dropHolder sn.idx n.val).answerSnoop sn none 0).settleHome))) ∧
    (∀ (n : Fin 64) (line : Nat) (gr : Grant), s.blk.home.grants.find? (fun g => g.fen == n.val && s.blk.get Reg.dir_LINE g.idx == line) = some gr →
      s.blk.past gr.sent (us (s.blk.get Reg.FEN_CFG_SNOOP_TIMEOUT_US)) = true →
      exec (.grantAckTimeout n line) s = .next (s.settled (((s.blk.clear.grantDone gr).count Reg.FEN_SNOOP_TIMEOUT_CNT).err Pg.fen 1).settleHome)) ∧
    (∀ (line i : Nat) (q : Req), s.blk.dirFind line = some i → s.blk.get Reg.dir_STATE i = Ds.tenureWait → s.blk.tenureOver i = true →
      s.blk.home.reqs.find? (fun q => q.line == line && q.wait == .tenure) = some q →
      exec (.tenureEnd line) s = .next (s.settled (s.blk.clear.dirServe q).settleHome)) ∧
    (∀ (slot : Fin 512) (x : RsvSlot), s.blk.home.slots.find? (·.slot == slot.val) = some x → s.blk.past x.since (us x.hold) = true →
      ∃ b : Blk, b.home.slots = s.blk.home.slots.erase x ∧ b.fs = s.blk.fs ∧ b.home.reqs = s.blk.home.reqs ∧
        exec (.rsvSlotExpire slot) s = .next (s.settled ((b.rsvOcc.count Reg.FEN_RSV_EXPIRED_CNT).err Pg.fen 5).settleHome)) ∧
    (∀ (id : Nat) (q : Req), s.blk.req? id = some q → q.wait = .final → s.blk.mustHold q.fr q.line = false →
      exec (.finalHoldRelease id) s = .next (s.settled (s.blk.clear.modReq id fun q => { q with wait := .ready }).settleHome)))

/-- Responses to what the part originated (R61, R65, R103, R104, R591): with another restart epoch, or to nothing outstanding, a response is discarded
and counted; data and acknowledgements complete the request OK, an error with its status as Table 0.5 has it (R13); a stale epoch with the fence flag
makes the part FENCED, and without it sends an engine's request again once, reached anew under the newer epoch (R51); RETRY_RSV sends it again; a
timeout completes it and its TAG rests; a waiting request is sent once a TAG is free. -/
def Obligations.ResponsesComplete : Prop :=
  ∀ s : State, s.blk.on = true →
    (∀ (mk : Frame → Instr) (o : Nat) (f : Frame), (mk, o) ∈ responseRows → f.tc = 2 → s.blk.comesHome (f.as o) = true →
      (f.restart.toNat ≠ s.blk.restart → exec (mk f) s = .next (s.settled ((s.blk.clear.takeInbox (f.as o)).count Reg.WIN_RESTART_DISCARD_CNT))) ∧
      (f.restart.toNat = s.blk.restart → s.blk.answered f = none →
        exec (mk f) s = .next (s.settled ((s.blk.clear.takeInbox (f.as o)).count Reg.SWC_LATE_RSP_CNT)))) ∧
    (∀ (f : Frame) (x : Out), f.tc = 2 → f.restart.toNat = s.blk.restart → s.blk.answered f = some x →
      (s.blk.comesHome (f.as Opc.rspData) = true →
        exec (.rspData f) s = .next (s.settled (((s.blk.clear.takeInbox (f.as Opc.rspData)).closeOut x).result x.agent St.ok f.data))) ∧
      (s.blk.comesHome (f.as Opc.rspAck) = true →
        exec (.rspAck f) s = .next (s.settled (((s.blk.clear.takeInbox (f.as Opc.rspAck)).closeOut x).result x.agent St.ok))) ∧
      (s.blk.comesHome (f.as Opc.rspErr) = true → f.status.toNat ≠ St.staleEpoch →
        exec (.rspErr f) s = .next (s.settled (((s.blk.clear.takeInbox (f.as Opc.rspErr)).closeOut x).result x.agent (asFailure f.status.toNat)))) ∧
      (s.blk.comesHome (f.as Opc.rspErr) = true → f.status.toNat = St.staleEpoch → f.fence = true →
        exec (.rspErr f) s = .next (s.settled ((((s.blk.clear.takeInbox (f.as Opc.rspErr)).enterFenced).closeOut x).result x.agent St.staleEpoch))) ∧
      (∀ w op va need : Nat, s.blk.comesHome (f.as Opc.rspErr) = true → f.status.toNat = St.staleEpoch → f.fence = false → x.retried = false →
        x.agent = .work w op → x.va = some (va, need) → s.blk.get Reg.tenant_ctx_COMP_EPOCH x.fr.tenant.toNat ≠ x.fr.epoch.toNat →
        notOlder (s.blk.get Reg.tenant_ctx_COMP_EPOCH x.fr.tenant.toNat) x.fr.epoch.toNat = true →
        ∃ b : Blk, exec (.rspErr f) s = .next (s.settled b) ∧ b.eng.reach = s.blk.eng.reach ++ [x.again w va need] ∧
          b.orig.out = s.blk.orig.out.erase x ∧ b.orig.results = s.blk.orig.results ∧ b.fs = s.blk.fs) ∧
      (s.blk.comesHome (f.as Opc.retryRsv) = true →
        exec (.retryRsv f) s = .next (s.settled ((s.blk.clear.takeInbox (f.as Opc.retryRsv)).reissue x)))) ∧
    (∀ (dst : Node) (tag : BitVec 16) (x : Out), s.blk.orig.out.find? (fun o => o.fr.dst.toNat == dst.toNat && o.fr.tag.toNat == tag.toNat) = some x →
      s.blk.past x.sent (us (s.blk.get Reg.SWC_REQ_TIMEOUT_TIMEOUT_US)) = true →
      ∃ b : Blk, exec (.requestTimeout dst tag) s = .next (s.settled b) ∧ b.orig.out = s.blk.orig.out.erase x ∧
        (dst.toNat, tag.toNat, s.blk.el) ∈ b.orig.quar ∧ b.fs = s.blk.fs ∧ b.home = s.blk.home ∧
        (x.mc = false → b.orig.results = s.blk.orig.results ++ [(x.agent,
          if dst.toNat < 64 ∧ bitAt (s.blk.get Reg.WIN_PEER_DEAD_DEAD) dst.toNat = true then St.peerDead else St.internal, 0)])) ∧
    (∀ (dst : Node) (x : Out) (t : Nat) (b : Blk), s.blk.orig.waiting.find? (fun o => o.fr.dst.toNat == dst.toNat) = some x → s.blk.restart ≠ 0 →
      s.blk.clear.takeTag dst.toNat x.tagBefore = (some t, b) →
      exec (.pendingRequestSend dst) s = .next (s.settled (({ b with orig := { b.orig with waiting := b.orig.waiting.erase x } } : Blk).sendOut
        { x with sent := if x.sent = 0 then s.blk.el else x.sent } t)))

/-- WIN_CMD (R46, R47, R48, R59): `install` makes a free window whose entry passes its checks active with nothing in flight, and else ends with the
check's code; `bump` takes an epoch not older than the window's; `bump_src` marks a part dead; `free` clears a revoked window with nothing in flight;
a rejected command sets CMD_REJECTED and leaves the windows as they are. Drains (R49, R50, R53, R55): `drain` makes an active window draining with its
deadline and a recall for each directory entry of its run; `revoke_now` ends the uncommitted requests of a window and recalls likewise; the window
becomes revoked when a drain's requests and recalls have ended, when a `revoke_now`'s recalls have, or at the deadline, with WIN.DRAIN_DONE. -/
def Obligations.WindowCommands : Prop :=
  (∀ (w : Fin 4096) (s : State), s.blk.opens Pg.win = true → s.blk.get Reg.WIN_CMD_STATUS_DONE = 1 →
    (s.blk.get Reg.window_STATE w.val = Ws.free → s.blk.installCode w.val = ok →
      ∃ b : Blk, exec (.winInstall w) s = .next (s.settled b) ∧ b.endedAs winCmd ok ∧ b.get Reg.window_STATE w.val = Ws.active ∧
        b.get Reg.window_INFLIGHT w.val = 0 ∧ b.onlyFields s.blk ∧
        ∀ (f : Fld) (i : Nat), f.sp = .t_window → f.key i / 2 ^ 60 = Space.t_window.code → f.key i ≠ Reg.window_STATE.key w.val →
          f.key i ≠ Reg.window_INFLIGHT.key w.val → b.get f i = s.blk.get f i) ∧
    (∀ code : Nat, code = (if s.blk.get Reg.window_STATE w.val ≠ Ws.free then badState else s.blk.installCode w.val) → code ≠ ok →
      ∃ b : Blk, exec (.winInstall w) s = .next (s.settled b) ∧ b.endedAs winCmd code ∧ bitAt (b.get Reg.ERR_STICKY_ERR Pg.win) 0 = true ∧
        b.keeps s.blk .t_window ∧ b.onlyFields s.blk) ∧
    (s.blk.get Reg.window_STATE w.val = Ws.active ∨ s.blk.get Reg.window_STATE w.val = Ws.draining →
      notOlder (s.blk.get Reg.WIN_CMD_ARG_EPOCH) (s.blk.get Reg.window_EPOCH w.val) = true →
      ∃ b : Blk, exec (.winBump w) s = .next (s.settled b) ∧ b.endedAs winCmd ok ∧
        b.get Reg.window_EPOCH w.val = s.blk.get Reg.WIN_CMD_ARG_EPOCH ∧ b.onlyFields s.blk ∧
        ∀ (f : Fld) (i : Nat), f.sp = .t_window → f.key i / 2 ^ 60 = Space.t_window.code → f.key i ≠ Reg.window_EPOCH.key w.val →
          b.get f i = s.blk.get f i) ∧
    (s.blk.get Reg.window_STATE w.val = Ws.active ∨ s.blk.get Reg.window_STATE w.val = Ws.draining →
      notOlder (s.blk.get Reg.WIN_CMD_ARG_EPOCH) (s.blk.get Reg.window_EPOCH w.val) = false →
      ∃ b : Blk, exec (.winBump w) s = .next (s.settled b) ∧ b.endedAs winCmd badRange ∧ b.keeps s.blk .t_window ∧ b.onlyFields s.blk) ∧
    (∀ node : Node, node.toNat ≤ 0x3F →
      ∃ b : Blk, exec (.winBumpSrc node) s = .next (s.settled b) ∧ b.endedAs winCmd ok ∧
        b.get Reg.WIN_PEER_DEAD_DEAD = s.blk.get Reg.WIN_PEER_DEAD_DEAD ||| 2 ^ node.toNat ∧ b.onlyFields s.blk ∧
        ∀ v : Fin 4096, b.get Reg.window_STATE v.val = s.blk.get Reg.window_STATE v.val) ∧
    (s.blk.get Reg.window_STATE w.val = Ws.revoked → s.blk.get Reg.window_INFLIGHT w.val = 0 →
      ∃ b : Blk, exec (.winFree w) s = .next (s.settled b) ∧ b.endedAs winCmd ok ∧ b.onlyFields s.blk ∧
        ∀ f ∈ Reg.all .t_window, b.get f w.val = f.rst % 2 ^ f.w ∧ ∀ v : Fin 4096, v ≠ w → b.get f v.val = s.blk.get f v.val)) ∧
  (∀ (w : Fin 4096) (s : State),
    (s.blk.opens Pg.win = true → s.blk.get Reg.WIN_CMD_STATUS_DONE = 1 → s.blk.get Reg.window_STATE w.val = Ws.active →
      s.blk.get Reg.WIN_CMD_ARG_DEADLINE_US ≠ 0 →
      ∃ b : Blk, exec (.winDrain w) s = .next (s.settled (b.settleHome.winEnd ok)) ∧ b.get Reg.window_STATE w.val = Ws.draining ∧
        b.get Reg.window_DRAIN_DEADLINE w.val = s.blk.get Reg.WIN_CMD_ARG_DEADLINE_US ∧
        b.get Reg.window_EPOCH w.val = (if s.blk.get Reg.WIN_CMD_ARG_SET_EPOCH = 1 then s.blk.get Reg.WIN_CMD_ARG_EPOCH
          else s.blk.get Reg.window_EPOCH w.val) ∧
        b.home.drains = s.blk.home.drains.filter (·.win ≠ w.val) ++
          [{ win := w.val, start := s.blk.el, len := some (s.blk.get Reg.WIN_CMD_ARG_DEADLINE_US), recalls := s.blk.runEntries w.val,
             place := s.blk.home.nextPlace }] ∧
        b.home.reqs = s.blk.home.reqs ∧ b.store = s.blk.store) ∧
    (s.blk.opens Pg.win = true → s.blk.get Reg.WIN_CMD_STATUS_DONE = 1 → s.blk.get Reg.window_STATE w.val = Ws.active →
      s.blk.drainOf w.val = none →
      ∃ b : Blk, exec (.winRevokeNow w) s = .next (s.settled (b.revokeRequests w.val).settleHome) ∧
        b.get Reg.window_STATE w.val = Ws.draining ∧ b.get Reg.window_DRAIN_DEADLINE w.val = 0 ∧ b.get Reg.WIN_CMD_STATUS_DONE = 0 ∧
        b.home.drains = s.blk.home.drains.filter (·.win ≠ w.val) ++
          [{ win := w.val, start := s.blk.el, len := none, recalls := s.blk.runEntries w.val, place := s.blk.home.nextPlace }] ∧ b.home.reqs = s.blk.home.reqs) ∧
    (∀ d : Drain, s.blk.kept = true → s.blk.drainOf w.val = some d →
      (d.len = none → s.blk.recallsDone d = true → exec (.revokeNowDone w) s = .next (s.settled ((s.blk.clear.drainEnd w.val).winEnd ok))) ∧
      (d.len.isSome = true → s.blk.recallsDone d = true → s.blk.get Reg.window_INFLIGHT w.val = 0 →
        exec (.drainDone w) s = .next (s.settled (s.blk.clear.drainEnd w.val))) ∧
      (∀ len : Nat, d.len = some len → s.blk.past d.start (us len) = true → s.blk.uncommitted w.val = false →
        exec (.drainDeadline w) s = .next (s.settled ((((s.blk.clear.revokeRequests w.val).each d.recalls fun b i => b.dropRecall i).drainEnd
          w.val).settleHome)))) ∧
    (∀ b : Blk, (b.drainEnd w.val).get Reg.window_STATE w.val = Ws.revoked ∧ (b.drainEnd w.val).get Reg.window_DRAIN_DEADLINE w.val = 0 ∧
      bitAt ((b.drainEnd w.val).get Reg.INT_STATUS_BLOCK Pg.win) 0 = true ∧ (b.drainEnd w.val).drainOf w.val = none))

/-- The restart epoch, members and the predictor (R64, R85, R173, R175, R176): WIN_RESTART_EPOCH is written once and the part's streams start at SEQ
0; a later write changes nothing and sets RESTART_REWRITE; `member_set` writes a member unless the number or the node has one; `purge` clears a member
and takes it out of every directory entry, counting one it owned; a change of MODE or of GRAIN_LOG2 clears the predictor, and a write of neither keeps
it. -/
def Obligations.FencesAndMembers : Prop :=
  ∀ s : State,
    (∀ v : BitVec 16, s.blk.opens Pg.win = true → s.blk.restart = 0 →
      exec (.restartEpochWrite v) s = .next (s.settled { s.blk.clear.put Reg.WIN_RESTART_EPOCH_RESTART_EPOCH v.toNat with
        orig := { s.blk.orig with seqs := [] } })) ∧
    (∀ v : BitVec 16, s.blk.opens Pg.win = true → s.blk.restart ≠ 0 →
      exec (.restartEpochWrite v) s = .next (s.settled (s.blk.clear.err Pg.win 4))) ∧
    (∀ (n : Fin 64) (node : Node) (near : Bool), s.blk.opens Pg.fen = true → s.blk.get Reg.FEN_CMD_STATUS_DONE = 1 →
      (s.blk.get Reg.member_V n.val = 0 → s.blk.fenOf node.toNat = none →
        ∃ b : Blk, exec (.fenMemberSet n node near) s = .next (s.settled b) ∧ b.endedAs fenCmd ok ∧ b.get Reg.member_V n.val = 1 ∧
          b.get Reg.member_NODE n.val = node.toNat ∧ b.get Reg.member_NEAR_OK n.val = b2n near ∧ b.fenOf node.toNat = some n.val ∧
          b.onlyFields s.blk ∧ b.keeps s.blk .t_dir) ∧
      (s.blk.get Reg.member_V n.val = 1 ∨ s.blk.fenOf node.toNat ≠ none →
        ∃ b : Blk, exec (.fenMemberSet n node near) s = .next (s.settled b) ∧ b.endedAs fenCmd badState ∧ b.onlyFields s.blk ∧
          b.keeps s.blk .t_member)) ∧
    (∀ n : Fin 64, s.blk.opens Pg.fen = true → s.blk.get Reg.FEN_CMD_STATUS_DONE = 1 → s.blk.home.snoops = [] → s.blk.entriesWith Reg.dir_V = [] →
      ∃ b : Blk, exec (.fenPurge n) s = .next (s.settled (b.settleHome.cmdEnd fenCmd ok)) ∧ b.get Reg.member_V n.val = 0 ∧
        (∀ m : Fin 64, m ≠ n → b.get Reg.member_V m.val = s.blk.get Reg.member_V m.val) ∧ b.onlyFields s.blk) ∧
    (∀ n : Fin 64, s.blk.opens Pg.fen = true → s.blk.get Reg.FEN_CMD_STATUS_DONE = 1 → s.blk.home.snoops = [] →
      ∃ b : Blk, exec (.fenPurge n) s = .next (s.settled (b.settleHome.cmdEnd fenCmd ok)) ∧ b.get Reg.member_V n.val = 0 ∧
        (∀ i : Nat, s.blk.get Reg.dir_V i = 1 → bitAt (b.get Reg.dir_SHARERS i) n.val = false) ∧
        (∀ i : Nat, s.blk.entriesWith Reg.dir_V = [i] → bitAt (s.blk.get Reg.dir_SHARERS i) n.val = true → s.blk.get Reg.dir_OWNER_V i = 1 →
          s.blk.get Reg.dir_OWNER i = n.val → bitAt (b.get Reg.ERR_STICKY_ERR Pg.fen) 7 = true ∧ b.get Reg.dir_OWNER_V i = 0 ∧
            (s.blk.get Reg.FEN_PURGE_OWNED_CNT + 1 < 2 ^ 48 → b.get Reg.FEN_PURGE_OWNED_CNT = s.blk.get Reg.FEN_PURGE_OWNED_CNT + 1)) ∧
        b.store = s.blk.store) ∧
    (∀ v : BitVec 32, s.blk.opens Pg.pred = true → bits v.toNat 31 30 ≠ 3 → bits v.toNat 31 30 ≠ s.blk.get Reg.PRED_CFG_MODE →
      ∃ b : Blk, exec (.predCfgWrite v) s = .next (s.settled b) ∧ b.get Reg.PRED_CFG_MODE = bits v.toNat 31 30 ∧
        (∀ i : Nat, i < 2 ^ 14 → b.get Reg.pred_V i = 0) ∧ b.onlyFields s.blk ∧ b.keeps s.blk .t_dir ∧ b.keeps s.blk .t_member) ∧
    (∀ v : BitVec 32, s.blk.opens Pg.pred = true → 12 ≤ bits v.toNat 29 25 → bits v.toNat 29 25 ≤ 26 →
      bits v.toNat 29 25 ≠ s.blk.get Reg.PRED_CFG_GRAIN_LOG2 →
      ∃ b : Blk, exec (.predCfgWrite v) s = .next (s.settled b) ∧ b.get Reg.PRED_CFG_GRAIN_LOG2 = bits v.toNat 29 25 ∧
        (∀ i : Nat, i < 2 ^ 14 → b.get Reg.pred_V i = 0) ∧ b.onlyFields s.blk ∧ b.keeps s.blk .t_dir ∧ b.keeps s.blk .t_member) ∧
    (∀ v : BitVec 32, s.blk.opens Pg.pred = true → bits v.toNat 31 30 = s.blk.get Reg.PRED_CFG_MODE →
      bits v.toNat 29 25 = s.blk.get Reg.PRED_CFG_GRAIN_LOG2 →
      ∃ b : Blk, exec (.predCfgWrite v) s = .next (s.settled b) ∧ b.keeps s.blk .t_pred ∧ b.onlyFields s.blk)

/-- Descriptors (R190, R192, R202, R206, R213, R328, R329): a fetched descriptor that no earlier one holds back starts its operation, whatever the
operation, and keeps the tracking entries of its ranges; one that is held back, and a queue's index with none of that operation, change nothing;
firmware's wait for a thread that has none comes to its word's line. That a descriptor behind an unfinished wait of its queue does not start is a
reading (log entry 47), and how firmware's waits come is a choice (log entry 85). -/
def Obligations.DescriptorsStart : Prop :=
  ∀ (q : Queue) (i : Nat) (s : State), s.blk.on = true →
    (∀ (mk : Queue → Nat → Instr) (op : Nat), (mk, op) ∈ descriptorRows →
      (∀ w : Work, s.blk.fetched op q.toNat i = some w → s.blk.canStart w = true →
        exec (mk q i) s = .next (s.settled (s.blk.clear.modWork w.id fun v => { v with
          phase := Phase.running
          since := s.blk.el
          entries := s.blk.entriesOf w }))) ∧
      (∀ w : Work, s.blk.fetched op q.toNat i = some w → s.blk.canStart w = false → exec (mk q i) s = .next (s.settled s.blk.clear)) ∧
      (s.blk.fetched op q.toNat i = none → exec (mk q i) s = .next (s.settled s.blk.clear))) ∧
    (∀ (mk : Queue → Nat → Instr) (op : Nat) (w : Work), (mk, op) ∈ handoffRows → s.blk.fetched Dop.handoff q.toNat i = some w →
      w.f 27 1 0 = op → s.blk.canStart w = true →
      exec (mk q i) s = .next (s.settled (s.blk.clear.modWork w.id fun v => { v with
        phase := Phase.running
        since := s.blk.el
        entries := s.blk.entriesOf w }))) ∧
    (∀ x : FwWait, s.blk.fenced = false →
      s.blk.eng.works.any (fun w => w.kind == 4 && w.tile == x.tile.val && w.thread == x.thread.val) = false →
      ∃ (b : Blk) (w : Work) (r : Req), exec (.syncWait q i (some x)) s = .next (s.settled b.settleHome) ∧
        b.eng.works = s.blk.eng.works ++ [w] ∧ w.id = s.blk.eng.nextWork ∧ w.kind = 4 ∧ w.phase = Phase.running ∧ w.tile = x.tile.val ∧
        w.thread = x.thread.val ∧ w.tenant = x.tenant.toNat ∧ b.home.reqs = s.blk.home.reqs ++ [r] ∧ r.kind = .arm w.id ∧ r.win = none ∧
        r.off = x.word.toNat * 8 ∧ r.fr.tenant = x.tenant ∧ b.fs = s.blk.fs ∧ b.store = s.blk.store)

/-- Polls and debug actions (R209, R216 to R219): a polled wait with nothing out reads its word again once POLL_NS has passed; at D2 `set_word` sends
one write of its word to the home, and `fire` makes an armed monitor act, logs it and ends `ok`; below D2 each is denied and counted. -/
def Obligations.PollsAndDebugActions : Prop :=
  ∀ s : State,
    (∀ (q : Queue) (i : Nat) (w : Work), s.blk.on = true →
      s.blk.eng.works.find? (fun w => w.queue == q.toNat && w.index == i && w.opcode == Dop.syncWait && w.phase == .running && w.snap == [2]) = some w →
      w.out = [] → s.blk.past w.since (ns (s.blk.get Reg.SYNC_CFG_POLL_NS)) = true →
      exec (.syncPoll q i) s = .next (s.settled (s.blk.clear.ask w.id (w.pollAsk (s.blk.remoteWord w))))) ∧
    (∀ t : BitVec 44, s.blk.opens Pg.sync = true → s.blk.get Reg.SYNC_DBG_STATUS_DONE = 1 → s.blk.get Reg.DBG_STATE_LEVEL = 2 →
      ∃ (b : Blk) (q : Req), exec (.syncDbgSetWord t) s = .next (s.settled b.settleHome) ∧ b.home.reqs = s.blk.home.reqs ++ [q] ∧
        q.kind = .debug ∧ q.off = 8 * t.toNat ∧ q.fr.op = Opc.wrPartial ∧ q.fr.plen = 8 ∧ q.fr.tenant = 0 ∧
        q.fr.data = atPlace (8 * t.toNat) (s.blk.get Reg.SYNC_DBG_VALUE_VALUE) ∧ b.store = s.blk.store ∧ b.eng = s.blk.eng) ∧
    (∀ t : BitVec 44, s.blk.opens Pg.sync = true → s.blk.get Reg.SYNC_DBG_STATUS_DONE = 1 → s.blk.get Reg.DBG_STATE_LEVEL = 2 →
      s.blk.get Reg.monitor_STATE (t.toNat % 65536) = 1 →
      ∃ b : Blk, exec (.syncDbgFire t) s = .next (s.settled b) ∧ b.endedAs syncCmd ok ∧ b.get Reg.monitor_STATE (t.toNat % 65536) = 0 ∧
        b.get Reg.dbg_log_OP (s.blk.get Reg.SYNC_DBG_LOG_PTR_NEXT) = 2 ∧
        b.get Reg.SYNC_DBG_LOG_PTR_NEXT = (s.blk.get Reg.SYNC_DBG_LOG_PTR_NEXT + 1) % 64 ∧
        (s.blk.get Reg.SYNC_FIRE_CNT + 1 < 2 ^ 48 → b.get Reg.SYNC_FIRE_CNT = s.blk.get Reg.SYNC_FIRE_CNT + 1) ∧
        b.store = s.blk.store ∧ b.home = s.blk.home) ∧
    (∀ t : BitVec 44, s.blk.opens Pg.sync = true → s.blk.get Reg.SYNC_DBG_STATUS_DONE = 1 → s.blk.get Reg.DBG_STATE_LEVEL ≠ 2 →
      ∃ b : Blk, exec (.syncDbgSetWord t) s = .next (s.settled b) ∧ exec (.syncDbgFire t) s = .next (s.settled b) ∧ b.endedAs syncCmd denied ∧
        (s.blk.get Reg.SYNC_DBG_DENIED_CNT + 1 < 2 ^ 48 → b.get Reg.SYNC_DBG_DENIED_CNT = s.blk.get Reg.SYNC_DBG_DENIED_CNT + 1) ∧
        b.onlyFields s.blk ∧ b.keeps s.blk .t_monitor)

/-- A handoff record's word (Table 8.8, R275, R276): its fields read back as they were put; a `handoff` of a held record by its holder offers it with
the next epoch; an `accept` by its target makes it the holder while the deadline is at least the guard ahead, and is refused later; a `revert` by the
holder takes an offer back once its deadline has passed; each leaves a record of another epoch alone. -/
def Obligations.HandoffRecords : Prop :=
  (∀ phase holder target epoch deadline : Nat, phase < 4 → holder < 64 → target < 64 → epoch < 2 ^ 16 → deadline < 2 ^ 32 →
    bits (recordWord phase holder target epoch deadline) 63 62 = phase ∧ bits (recordWord phase holder target epoch deadline) 61 56 = holder ∧
    bits (recordWord phase holder target epoch deadline) 55 50 = target ∧ bits (recordWord phase holder target epoch deadline) 47 32 = epoch ∧
    bits (recordWord phase holder target epoch deadline) 31 0 = deadline) ∧
  (∀ (b : Blk) (w : Work) (cur : Nat), bits cur 47 32 ≠ w.f 24 15 0 → b.handoffNew w cur = none) ∧
  (∀ (b : Blk) (w : Work) (cur : Nat), w.f 27 1 0 = 0 → bits cur 47 32 = w.f 24 15 0 → bits cur 63 62 = 0 → bits cur 61 56 = b.node % 64 →
    ∃ new : Nat, b.handoffNew w cur = some new ∧ bits new 63 62 = 1 ∧ bits new 61 56 = b.node % 64 ∧ bits new 55 50 = w.f 26 5 0 ∧
      bits new 47 32 = (bits cur 47 32 + 1) % 2 ^ 16 ∧ bits new 31 0 = (b.nowUs + w.f 28 19 0) % 2 ^ 32) ∧
  (∀ (b : Blk) (w : Work) (cur : Nat), w.f 27 1 0 = 0 → bits cur 63 62 ≠ 0 ∨ bits cur 61 56 ≠ b.node % 64 → b.handoffNew w cur = none) ∧
  (∀ (b : Blk) (w : Work) (cur ahead : Nat), w.f 27 1 0 = 1 → bits cur 47 32 = w.f 24 15 0 → ahead = subMod 32 (bits cur 31 0) b.nowUs →
    (bits cur 63 62 = 1 → bits cur 55 50 = b.node % 64 → b.get Reg.TIER_HANDOFF_CFG_GUARD_US ≤ ahead → ahead < 2 ^ 31 →
      ∃ new : Nat, b.handoffNew w cur = some new ∧ bits new 63 62 = 0 ∧ bits new 61 56 = b.node % 64 ∧ bits new 55 50 = 0 ∧
        bits new 47 32 = (bits cur 47 32 + 1) % 2 ^ 16 ∧ bits new 31 0 = 0) ∧
    (bits cur 63 62 ≠ 1 ∨ bits cur 55 50 ≠ b.node % 64 ∨ ahead < b.get Reg.TIER_HANDOFF_CFG_GUARD_US ∨ 2 ^ 31 ≤ ahead → b.handoffNew w cur = none)) ∧
  (∀ (b : Blk) (w : Work) (cur : Nat), w.f 27 1 0 = 2 → bits cur 47 32 = w.f 24 15 0 →
    (bits cur 63 62 = 1 → bits cur 61 56 = b.node % 64 → subMod 32 b.nowUs (bits cur 31 0) < 2 ^ 31 →
      ∃ new : Nat, b.handoffNew w cur = some new ∧ bits new 63 62 = 0 ∧ bits new 61 56 = b.node % 64 ∧ bits new 55 50 = 0 ∧
        bits new 47 32 = (bits cur 47 32 + 1) % 2 ^ 16 ∧ bits new 31 0 = 0) ∧
    (bits cur 63 62 ≠ 1 ∨ bits cur 61 56 ≠ b.node % 64 ∨ 2 ^ 31 ≤ subMod 32 b.nowUs (bits cur 31 0) → b.handoffNew w cur = none))

/-- Stacks and scrub (R227, R233, R234): a stack that leaves a command unanswered is lost, recorded as STACK_LOST; a patrol read of a good line due in
its pass counts its corrections and writes the line back, and of a clean one notes that it was read. Key slots (R239, R506, R507): `zeroise` empties a
slot at once; `load` clears the staging area and, in OPERATIONAL, loads the key that unwraps into an empty slot other than 0; in another lifecycle,
for slot 0, while tenant data is open, or when unwrapping fails, it is denied, and a slot already loaded stays. Where a patrol read of a free frame
writes back, its tweak is free (log entry 48). -/
def Obligations.StacksAndKeys : Prop :=
  (∀ s : State, s.blk.kept = true →
    (∀ k : StackId, s.blk.get Reg.HBM_STATE_STACK_STATE k.val = Stk.up →
      exec (.stackTimeout k) s = .next (s.settled ((s.blk.clear.put Reg.HBM_STATE_STACK_STATE Stk.lost k.val).err (Pg.hbm k.val) 1))) ∧
    (∀ (ra : Nat) (x : Stored) (n : Nat), ra < s.blk.raLines → s.blk.lostAt ra = false → s.blk.scrubDue (s.blk.stackOf ra) ra = true →
      s.blk.store.scrubbed.any (·.1 == s.blk.stackOf ra) = true → s.blk.decodeAt ra = (.good x, n) →
      ∃ b : Blk, exec (.scrubStep ra) s = .next (s.settled (b.passEnd (s.blk.stackOf ra))) ∧
        b.store.scrubbed = s.blk.store.scrubbed ++ [(s.blk.stackOf ra, ra)] ∧
        (n = 0 → b.fs = s.blk.fs ∧ b.store.lines = s.blk.store.lines) ∧
        (0 < n → bitAt (b.get Reg.ERR_STICKY_ERR (Pg.hbm (s.blk.stackOf ra))) 2 = true ∧
          (s.blk.get Reg.HBM_CE_LINE_CNT (s.blk.stackOf ra) + 1 < 2 ^ 48 →
            b.get Reg.HBM_CE_LINE_CNT (s.blk.stackOf ra) = s.blk.get Reg.HBM_CE_LINE_CNT (s.blk.stackOf ra) + 1) ∧
          (s.blk.get Reg.HBM_CE_BYTE_CNT (s.blk.stackOf ra) + n < 2 ^ 48 →
            b.get Reg.HBM_CE_BYTE_CNT (s.blk.stackOf ra) = s.blk.get Reg.HBM_CE_BYTE_CNT (s.blk.stackOf ra) + n) ∧
          (s.blk.get Reg.HBM_SCRUB_FIX_CNT (s.blk.stackOf ra) + 1 < 2 ^ 48 →
            b.get Reg.HBM_SCRUB_FIX_CNT (s.blk.stackOf ra) = s.blk.get Reg.HBM_SCRUB_FIX_CNT (s.blk.stackOf ra) + 1)) ∧
        (0 < n → Sparse.get none b.store.lines ra = some x ∧ Sparse.get 0 b.store.flips ra = 0 ∧
          ∀ a : Nat, a ≠ ra → Sparse.get none b.store.lines a = Sparse.get none s.blk.store.lines a) ∧
        b.home = s.blk.home ∧ b.eng = s.blk.eng)) ∧
  (∀ (slot : Tenant) (s : State), s.blk.opens Pg.crypt = true → s.blk.get Reg.CRYPT_CMD_STATUS_DONE = 1 →
    (∃ b : Blk, exec (.cryptZeroise slot) s = .next (s.settled b) ∧ b.endedAs cryptCmd ok ∧ b.loaded slot.toNat = false ∧ b.key slot.toNat = 0 ∧
      (∀ t : Tenant, t ≠ slot → b.loaded t.toNat = s.blk.loaded t.toNat ∧ b.key t.toNat = s.blk.key t.toNat) ∧ b.home = s.blk.home ∧
      b.store.lines = s.blk.store.lines) ∧
    (∀ k : List Nat, s.fuse.life = 2 → s.blk.recovery = false → slot ≠ 0 → s.blk.get Reg.DBG_STATE_TENANT_DATA = 0 →
      keyUnwrap (s.fuse.kek (s.blk.get Reg.SEC_KEY_GEN_GEN) slot.toNat) (natBytes 72 (s.blk.get Reg.SEC_KEY_STAGE_WRAPPED)) 8 = some k →
      k.take 32 ≠ k.drop 32 →
      (s.blk.loaded slot.toNat = false →
        ∃ b : Blk, exec (.cryptLoad slot) s = .next (s.settled b) ∧ b.endedAs cryptCmd ok ∧ b.loaded slot.toNat = true ∧
          b.key slot.toNat = ofNatBytes k ∧ b.get Reg.SEC_KEY_STAGE_WRAPPED = 0 ∧
          ∀ t : Tenant, t ≠ slot → b.loaded t.toNat = s.blk.loaded t.toNat ∧ b.key t.toNat = s.blk.key t.toNat) ∧
      (s.blk.loaded slot.toNat = true →
        ∃ b : Blk, exec (.cryptLoad slot) s = .next (s.settled b) ∧ b.endedAs cryptCmd badState ∧ b.store = s.blk.store ∧
          b.get Reg.SEC_KEY_STAGE_WRAPPED = 0 ∧ b.keeps s.blk .t_slot)) ∧
    (s.fuse.life ≠ 2 ∨ slot = 0 ∨ s.blk.get Reg.DBG_STATE_TENANT_DATA = 1 ∨
      keyUnwrap (s.fuse.kek (s.blk.get Reg.SEC_KEY_GEN_GEN) slot.toNat) (natBytes 72 (s.blk.get Reg.SEC_KEY_STAGE_WRAPPED)) 8 = none →
      ∃ b : Blk, exec (.cryptLoad slot) s = .next (s.settled b) ∧ b.endedAs cryptCmd denied ∧ b.store = s.blk.store ∧
        b.get Reg.SEC_KEY_STAGE_WRAPPED = 0 ∧ bitAt (b.get Reg.ERR_STICKY_ERR Pg.sec) 0 = true ∧ b.keeps s.blk .t_slot))

/-- PROT_CMD (R241, R248, R251, R252, R253): `activate` of an unpinned region ends `bad_state`, of a mirror region begins its copy, and of a parity
owner's region begins with its first parity line and makes it active after the last; `deactivate` makes a region off; `freeze` makes an active one
frozen, at once where no write is open in it, and `thaw` active again; `rebuild` acts on an owner's range and starts from its parity lines. -/
def Obligations.ProtectionCommands : Prop :=
  ∀ (r : Fin 256) (s : State), s.blk.opens Pg.prot = true → s.blk.get Reg.PROT_CMD_STATUS_DONE = 1 → s.blk.prot = none →
    (s.blk.get Reg.region_MODE r.val = 1 → s.blk.regionPinned r.val = true →
      ∃ b : Blk, exec (.protActivate r) s = .next (s.settled (b.copyNext r.val 0)) ∧ b.get Reg.region_STATE r.val = 2 ∧
        b.get Reg.PROT_CMD_STATUS_DONE = 0 ∧ b.get Reg.PAGE_STATUS_BUSY Pg.prot = 1 ∧ b.onlyFields s.blk) ∧
    (s.blk.get Reg.region_MODE r.val = 2 → s.blk.regionPinned r.val = true → s.blk.get Reg.region_OWNER r.val = 0 →
      ∃ b : Blk, exec (.protActivate r) s = .next (s.settled b) ∧ b.endedAs protCmd ok ∧ b.get Reg.region_STATE r.val = 1 ∧ b.onlyFields s.blk) ∧
    (s.blk.get Reg.region_MODE r.val = 2 → s.blk.regionPinned r.val = true → s.blk.get Reg.region_OWNER r.val = 1 →
      ∃ b : Blk, exec (.protActivate r) s = .next (s.settled (b.parityNext r.val 0 0 0)) ∧ b.get Reg.PROT_CMD_STATUS_DONE = 0 ∧
        b.get Reg.PAGE_STATUS_BUSY Pg.prot = 1 ∧ b.keeps s.blk .t_region ∧ b.onlyFields s.blk) ∧
    (∀ (b : Blk) (j : Nat) (acc : Line), b.regionLines r.val ≤ j → ∀ got : Nat,
      (b.parityNext r.val j got acc).endedAs protCmd ok ∧ (b.parityNext r.val j got acc).get Reg.region_STATE r.val = 1) ∧
    (s.blk.get Reg.region_MODE r.val = 1 ∨ s.blk.get Reg.region_MODE r.val = 2 → s.blk.regionPinned r.val = false →
      ∃ b : Blk, exec (.protActivate r) s = .next (s.settled b) ∧ b.endedAs protCmd badState ∧ b.onlyFields s.blk ∧ b.keeps s.blk .t_region) ∧
    (∃ b : Blk, exec (.protDeactivate r) s = .next (s.settled b) ∧ b.endedAs protCmd ok ∧ b.get Reg.region_STATE r.val = 0 ∧ b.onlyFields s.blk ∧
      ∀ q : Fin 256, q ≠ r → b.get Reg.region_STATE q.val = s.blk.get Reg.region_STATE q.val) ∧
    (s.blk.get Reg.region_STATE r.val = 1 → s.blk.regionBusy r.val = false →
      ∃ b : Blk, exec (.protFreeze r) s = .next (s.settled b) ∧ b.endedAs protCmd ok ∧ b.get Reg.region_STATE r.val = 3 ∧ b.onlyFields s.blk) ∧
    (s.blk.get Reg.region_STATE r.val = 1 → s.blk.regionBusy r.val = true →
      ∃ b : Blk, exec (.protFreeze r) s = .next (s.settled b) ∧ b.get Reg.PROT_CMD_STATUS_DONE = 0 ∧ b.get Reg.region_STATE r.val = 3 ∧
        b.prot = some (.freeze r.val)) ∧
    (s.blk.get Reg.region_STATE r.val = 3 →
      ∃ b : Blk, exec (.protThaw r) s = .next (s.settled b) ∧ b.endedAs protCmd ok ∧ b.get Reg.region_STATE r.val = 1 ∧ b.onlyFields s.blk) ∧
    (s.blk.get Reg.region_STATE r.val ≠ 3 →
      ∃ b : Blk, exec (.protThaw r) s = .next (s.settled b) ∧ b.endedAs protCmd badState ∧ b.onlyFields s.blk ∧ b.keeps s.blk .t_region) ∧
    (∀ dead : Fin 8, s.blk.get Reg.region_OWNER r.val = 1 → dead.val < s.blk.get Reg.region_K r.val →
      ∃ b : Blk, exec (.protRebuild r dead) s = .next (s.settled (b.rebuildLine r.val dead.val 0)) ∧ b.get Reg.PROT_REBUILD_POS_LINE = 0 ∧
        b.get Reg.PROT_CMD_STATUS_DONE = 0 ∧ b.onlyFields s.blk) ∧
    (∀ dead : Fin 8, s.blk.get Reg.region_OWNER r.val = 1 → s.blk.get Reg.region_K r.val ≤ dead.val →
      ∃ b : Blk, exec (.protRebuild r dead) s = .next (s.settled b) ∧ b.endedAs protCmd badRange ∧ b.onlyFields s.blk)

/-- TIER_CMD (R255, R257, R258, R260): a `place` that its checks refuse ends with their code and sets CMD_REJECTED; an accepted one takes frames until
it has them all; `retire` makes a placed descriptor retiring and goes on by itself; `flush` with nothing dirty ends `ok`, else every dirty resident
block starts down; a descriptor that is not placed is refused. -/
def Obligations.PlacementCommands : Prop :=
  ∀ (d : Fin 4096) (s : State), s.blk.opens Pg.tier = true → s.blk.get Reg.TIER_CMD_STATUS_DONE = 1 → s.blk.tier.job = none →
    (s.blk.placeCode d.val ≠ ok →
      ∃ b : Blk, exec (.tierPlace d) s = .next (s.settled b) ∧ b.endedAs tierCmd (s.blk.placeCode d.val) ∧
        bitAt (b.get Reg.ERR_STICKY_ERR Pg.tier) 7 = true ∧ b.onlyFields s.blk ∧ b.keeps s.blk .t_place ∧ b.keeps s.blk .t_map ∧
        b.keeps s.blk .t_frame) ∧
    (s.blk.placeCode d.val = ok →
      ∃ b : Blk, exec (.tierPlace d) s = .next (s.settled (Blk.feedPlace (s.blk.pinsOf d.val + s.blk.mapFramesOf d.val + 1) b)) ∧
        b.tier = { s.blk.tier with job := some (.place d.val []) } ∧ b.get Reg.TIER_CMD_STATUS_DONE = 0 ∧
        b.get Reg.PAGE_STATUS_BUSY Pg.tier = 1 ∧ b.home = s.blk.home ∧ b.store = s.blk.store ∧ b.keeps s.blk .t_place ∧ b.keeps s.blk .t_map) ∧
    (s.blk.get Reg.place_STATE d.val = 1 → (∀ x ∈ s.blk.tier.fetches, x.desc = d.val → x.frame ≠ none ∨ x.pass = true) →
      ∃ b : Blk, exec (.tierRetire d) s = .next (s.settled b) ∧ b.get Reg.place_STATE d.val = 2 ∧ b.get Reg.TIER_CMD_STATUS_DONE = 0 ∧
        b.tier = { s.blk.tier with job := some (.retire d.val []) } ∧ b.home = s.blk.home ∧ b.store = s.blk.store ∧ b.keeps s.blk .t_map) ∧
    (s.blk.get Reg.place_STATE d.val = 1 → s.blk.blocksWith d.val Reg.map_DIRTY = [] → s.blk.tier.downs.any (·.desc == d.val) = false →
      ∃ b : Blk, exec (.tierFlush d) s = .next (s.settled b) ∧ b.endedAs tierCmd ok ∧ b.onlyFields s.blk ∧ b.keeps s.blk .t_map) ∧
    (∀ now : List Nat, s.blk.get Reg.place_STATE d.val = 1 → s.blk.tier.downs = [] →
      now = (s.blk.blocksWith d.val Reg.map_DIRTY).filter (fun k => s.blk.get Reg.map_BSTATE k == Bst.resident) → now ≠ [] →
      ∃ b : Blk, exec (.tierFlush d) s = .next (s.settled (b.each now fun b k => b.startDown k 1)) ∧
        b.tier = { s.blk.tier with job := some (.flush d.val now [] false) } ∧ b.get Reg.TIER_CMD_STATUS_DONE = 0 ∧ b.keeps s.blk .t_map ∧
        b.home = s.blk.home ∧ b.store = s.blk.store) ∧
    (s.blk.get Reg.place_STATE d.val ≠ 1 →
      (∃ b : Blk, exec (.tierRetire d) s = .next (s.settled b) ∧ b.endedAs tierCmd badState ∧ b.onlyFields s.blk ∧ b.keeps s.blk .t_place) ∧
      (∃ b : Blk, exec (.tierFlush d) s = .next (s.settled b) ∧ b.endedAs tierCmd badState ∧ b.onlyFields s.blk ∧ b.keeps s.blk .t_place))

/-- Ends of fetches and reads (R264, R265, R270, R272, R274): a fetch from host memory whose trailer and CRCs agree makes its block resident and
clean; one whose trailer does not agree, or that fails below, fails; a block never stored is filled with zeros; a request that has waited its time
ends TIER_TIMEOUT; a pass-through read is given its line, or fails; a read that nothing waits for any more is counted where it ends badly (R463). -/
def Obligations.FetchesEnd : Prop :=
  ∀ s : State, s.blk.kept = true →
    (∀ (blk word f : Nat) (data : List Line) (crcs : List Nat) (x : Fetch), blk < 2 ^ 31 → s.blk.fetchOf blk = some (x, f) → s.blk.zeroFill blk x.desc = false →
      s.blk.stray (0, blk) 1 = false → s.blk.get Reg.place_CLASS x.desc ≠ Cls.weights →
      (s.blk.trailerOk x.desc blk word 16 crcs data = true →
        ∃ b : Blk, exec (.tierFetchComplete blk data word crcs) s = .next (s.settled b.settleHome) ∧ b.get Reg.map_BSTATE blk = Bst.resident ∧
          b.get Reg.map_DIRTY blk = 0 ∧ b.tier.fetches = s.blk.tier.fetches.erase x ∧ b.eng = s.blk.eng ∧ b.orig = s.blk.orig) ∧
      (s.blk.trailerOk x.desc blk word 16 crcs data = false →
        exec (.tierFetchComplete blk data word crcs) s = .next (s.settled ((s.blk.clear.answered_ (0, blk)).badTrailer.fetchFailed x).settleHome)) ∧
      exec (.tierFetchFail blk) s = .next (s.settled ((s.blk.clear.answered_ (0, blk)).hostReadBad.fetchFailed x).settleHome)) ∧
    (∀ (blk word : Nat) (data : List Line) (crcs : List Nat), blk < 2 ^ 31 → s.blk.fetchOf blk = none → (0, blk) ∈ s.blk.tier.asked →
      exec (.tierFetchComplete blk data word crcs) s = .next (s.settled (s.blk.clear.answered_ (0, blk))) ∧
      exec (.tierFetchFail blk) s = .next (s.settled (s.blk.clear.answered_ (0, blk)).hostReadBad)) ∧
    (∀ (blk word f : Nat) (data : List Line) (crcs : List Nat) (x : Fetch), blk < 2 ^ 31 → s.blk.fetchOf blk = some (x, f) → s.blk.zeroFill blk x.desc = true →
      s.blk.stray (0, blk) 1 = false →
      ∃ b : Blk, exec (.tierFetchComplete blk data word crcs) s = .next (s.settled b.settleHome) ∧ b.get Reg.map_BSTATE blk = Bst.resident ∧
        Sparse.get none b.store.fills f = some { key := some (s.blk.key (s.blk.get Reg.place_TENANT x.desc)), block := blk } ∧
        b.tier.fetches = s.blk.tier.fetches.erase x) ∧
    (∀ (blk : Nat) (q : Req), s.blk.home.reqs.find? (fun q => (q.wait == .fetch || q.wait == .pass) && q.off / 65536 == blk &&
        (match s.blk.placeOf (blk / 1024) with
         | some d => s.blk.past q.since (s.blk.tierSpan d)
         | none => false)) = some q →
      exec (.tierWaitTimeout blk) s = .next (s.settled (((s.blk.clear.countN Reg.TIER_TIMEOUT_CNT (1 + q.members.length)).err Pg.tier 1).finish q St.tierTimeout []).settleHome)) ∧
    (∀ (sub word crc d : Nat) (data : List Line) (q : Req) (l : List Req),
      s.blk.home.reqs.filter (fun q => q.wait == .pass && q.off / 4096 == sub) = q :: l → s.blk.stray (1, sub) (l.length + 1) = false →
      s.blk.placeOf (sub / 2 ^ 14) = some d → s.blk.get Reg.place_CLASS d ≠ Cls.weights →
      (s.blk.trailerOk d (sub / 16) word 1 [crc] data = true →
        exec (.passThroughComplete sub true data word crc) s = .next (s.settled ((s.blk.clear.answered_ (1, sub)).passLine q data))) ∧
      (s.blk.trailerOk d (sub / 16) word 1 [crc] data = false →
        exec (.passThroughComplete sub true data word crc) s = .next (s.settled ((s.blk.clear.answered_ (1, sub)).badTrailer.tierFail q).settleHome)) ∧
      exec (.passThroughComplete sub false data word crc) s = .next (s.settled ((s.blk.clear.answered_ (1, sub)).hostReadBad.tierFail q).settleHome)) ∧
    (∀ b : Blk, b.hostReadBad = (b.count Reg.PCIE_TIER_ERR_CNT).err Pg.pcie 3)

/-- Eviction and write-downs (R266, R267, R268): the evictor frees the frame longest untouched, of those whose block no running `retire` has given up,
at once when the block is clean, and else starts it down; the read-back of a block lets its trailer go (R462), and a write-down that ends well with
the trailer's frees an evicted block that was not touched, and keeps one that was; a failed or late one keeps its block dirty. The heat sweep (R273):
the heat of every Hiwyn block is halved once for each period of HALVE_MS since it was last brought up to date, eight halvings making it zero; blocks
of no such descriptor, every other field and everything else are as they were. -/
def Obligations.EvictionAndHeat : Prop :=
  (∀ s : State, s.blk.kept = true →
    (∀ f : Nat, f < 2 ^ 25 → s.blk.evicting = true →
      s.blk.oldest (s.blk.evictable.filter fun g => !s.blk.givenUp (s.blk.get Reg.frame_BLOCK g)) = some f →
      (s.blk.get Reg.map_DIRTY (s.blk.get Reg.frame_BLOCK f) = 0 →
        ∃ b : Blk, exec .evictOne s = .next (s.settled ((b.count Reg.TIER_EVICT_CNT).feedFetches s.blk.tier.fetches.length)) ∧
          b.get Reg.map_BSTATE (s.blk.get Reg.frame_BLOCK f) = Bst.absent ∧ b.get Reg.map_FRAME (s.blk.get Reg.frame_BLOCK f) = 0 ∧
          b.get Reg.frame_USED f = 0 ∧ b.tier = { s.blk.tier with evicting := true } ∧ b.store = s.blk.store ∧ b.home = s.blk.home) ∧
      (s.blk.get Reg.map_DIRTY (s.blk.get Reg.frame_BLOCK f) = 1 → s.blk.tier.downs.length < 64 →
        exec .evictOne s = .next (s.settled (({ s.blk.clear with tier := { s.blk.tier with evicting := true } } : Blk).startDown
          (s.blk.get Reg.frame_BLOCK f) 0)))) ∧
    (∀ (blk : Nat) (x : Down), blk < 2 ^ 31 → s.blk.tier.downs.find? (·.block == blk) = some x → s.blk.tier.job = none →
      (x.bad = false → s.blk.stray (2, blk) 1 = false → s.blk.get Reg.place_CLASS x.desc ≠ Cls.weights → x.trailed = false →
        exec (.writeDownComplete blk true) s = .next (s.settled ((s.blk.clear.answered_ (2, blk)).sendTrailer x))) ∧
      (x.bad = false → s.blk.stray (2, blk) 1 = false → x.trailed = true → s.blk.get Reg.place_CLASS x.desc ≠ Cls.weights → x.why = 0 →
        s.blk.get Reg.map_DIRTY blk = 0 →
        s.blk.get Reg.frame_TOUCHED_DURING (s.blk.get Reg.map_FRAME blk) = 0 →
        ∃ b : Blk, exec (.writeDownComplete blk true) s = .next (s.settled b) ∧ b.get Reg.map_BSTATE blk = Bst.absent ∧
          b.get Reg.map_STORED blk = 1 ∧ b.get Reg.map_FRAME blk = 0 ∧ b.tier.downs = s.blk.tier.downs.erase x ∧ b.store = s.blk.store ∧
          b.home = s.blk.home) ∧
      (x.bad = false → s.blk.stray (2, blk) 1 = false → x.trailed = true → s.blk.get Reg.place_CLASS x.desc ≠ Cls.weights → x.why = 0 →
        (s.blk.get Reg.map_DIRTY blk = 1 ∨ s.blk.get Reg.frame_TOUCHED_DURING (s.blk.get Reg.map_FRAME blk) = 1) →
        ∃ b : Blk, exec (.writeDownComplete blk true) s = .next (s.settled b) ∧ b.get Reg.map_BSTATE blk = Bst.resident ∧
          b.get Reg.map_STORED blk = 1 ∧ b.get Reg.map_FRAME blk = s.blk.get Reg.map_FRAME blk ∧ b.tier.downs = s.blk.tier.downs.erase x) ∧
      (x.bad = false → s.blk.stray (2, blk) 1 = false → s.blk.get Reg.place_CLASS x.desc ≠ Cls.weights →
        ∃ b : Blk, exec (.writeDownComplete blk false) s = .next (s.settled b) ∧ b.get Reg.map_BSTATE blk = Bst.resident ∧
          b.get Reg.map_DIRTY blk = 1 ∧ bitAt (b.get Reg.ERR_STICKY_ERR Pg.tier) 3 = true ∧ b.tier.downs = s.blk.tier.downs.erase x) ∧
      (s.blk.past x.since (s.blk.tierSpan x.desc) = true →
        ∃ b : Blk, exec (.writeDownTimeout blk) s = .next (s.settled b) ∧ b.get Reg.map_BSTATE blk = Bst.resident ∧
          b.get Reg.map_DIRTY blk = 1 ∧ bitAt (b.get Reg.ERR_STICKY_ERR Pg.tier) 3 = true ∧ b.tier.downs = s.blk.tier.downs.erase x))) ∧
  (∀ s : State, s.blk.kept = true →
    ∃ b : Blk, exec .heatSweep s = .next (s.settled b) ∧ b.onlyFields s.blk ∧
      (∀ k d : Nat, d ∈ s.blk.entriesWith Reg.place_STATE → s.blk.get Reg.place_HIWYN d = 1 → s.blk.inPlace d k = true →
        b.get Reg.map_HEAT k = (if 8 ≤ subMod 16 s.blk.heatEpoch (s.blk.get Reg.map_HEAT_EPOCH k) then 0
          else s.blk.get Reg.map_HEAT k / 2 ^ subMod 16 s.blk.heatEpoch (s.blk.get Reg.map_HEAT_EPOCH k)) ∧
        b.get Reg.map_HEAT_EPOCH k = s.blk.heatEpoch) ∧
      (∀ k : Nat, k < 2 ^ 31 → (∀ d ∈ s.blk.entriesWith Reg.place_STATE, s.blk.get Reg.place_HIWYN d = 1 → s.blk.inPlace d k = false) →
        b.get Reg.map_HEAT k = s.blk.get Reg.map_HEAT k ∧ b.get Reg.map_HEAT_EPOCH k = s.blk.get Reg.map_HEAT_EPOCH k) ∧
      (∀ (f : Fld) (i : Nat), f.key i / 2 ^ 60 ≠ Space.t_map.code → b.get f i = s.blk.get f i) ∧
      (∀ k : Nat, k < 2 ^ 31 → b.get Reg.map_BSTATE k = s.blk.get Reg.map_BSTATE k ∧ b.get Reg.map_FRAME k = s.blk.get Reg.map_FRAME k))

/-- PEAT_CMD, checkpoints and mount (R282, R285, R304, R306): `format` empties the map and begins the erases, once they have ended LOGICAL_BLOCKS is
seven eighths of the slots and Peat is mounted (that it is `unformatted` meanwhile is the model's choice, log entry 88), and it is refused while a
weights descriptor is in use; `trim` takes every block of its range out of the map and leaves the others; `checkpoint` and its timer write the map
where Peat is mounted and has super-blocks for it, and report one that could not be written; mount without a checkpoint finds Peat unformatted, and
with one it leaves `mounting`, with the LOGICAL_BLOCKS of the format and the blocks written since that decode. Dies and channels (R278, R301): a die
that has not answered for 10 ms, or of which sixteen blocks went bad within an hour, is declared dead once, with its blocks marked, its programs to be
repeated elsewhere and its super-blocks that hold blocks due for relocation; a channel that trains is up with the geometry its dies report; one that
does not train has failed with every die of it; a geometry that is not supported is an error. What a mount knows of events after the checkpoint is a
reading (log entry 88). -/
def Obligations.FlashCommandsAndDies : Prop :=
  (∀ s : State,
    (s.blk.opens Pg.peat = true → s.blk.get Reg.PEAT_CMD_STATUS_DONE = 1 →
      (∀ marks : List (Nat × Nat × Nat), s.blk.get Reg.PEAT_STATE_STATE ≠ Ps.absent → s.blk.get Reg.PEAT_STATE_STATE ≠ Ps.mounting →
        ((s.blk.entriesWith Reg.place_STATE).any fun d => s.blk.get Reg.place_CLASS d == Cls.weights) = false →
        ∃ b : Blk, exec (.peatFormat marks) s = .next (s.settled b) ∧ b.get Reg.PEAT_CMD_STATUS_DONE = 0 ∧
          (∀ k : Nat, k < 2 ^ 34 → b.get Reg.lmap_V k = 0) ∧ b.peat.fmt = some s.blk.allSb ∧ b.peat.log = [] ∧ b.peat.open_ = [] ∧
          b.peat.ckpt = none ∧ b.peat.reads = s.blk.peat.reads ∧ b.store = s.blk.store ∧ b.tier = s.blk.tier ∧ b.home = s.blk.home) ∧
      (∀ marks : List (Nat × Nat × Nat), s.blk.get Reg.PEAT_STATE_STATE = Ps.absent ∨ s.blk.get Reg.PEAT_STATE_STATE = Ps.mounting ∨
        ((s.blk.entriesWith Reg.place_STATE).any fun d => s.blk.get Reg.place_CLASS d == Cls.weights) = true →
        ∃ b : Blk, exec (.peatFormat marks) s = .next (s.settled b) ∧ b.endedAs peatCmd badState ∧ b.onlyFields s.blk ∧ b.keeps s.blk .t_lmap) ∧
      (s.blk.get Reg.PEAT_STATE_STATE ≠ Ps.mounting →
        s.blk.get Reg.PEAT_CMD_ARG0_FIRST_LBN + s.blk.get Reg.PEAT_CMD_ARG1_COUNT ≤ s.blk.get Reg.PEAT_LOGICAL_BLOCKS_COUNT →
        ((s.blk.entriesWith Reg.place_STATE).any fun d => s.blk.get Reg.place_CLASS d == Cls.weights && meet (s.blk.get Reg.PEAT_CMD_ARG0_FIRST_LBN)
          (s.blk.get Reg.PEAT_CMD_ARG1_COUNT) (s.blk.get Reg.place_LOWER_BASE d) (s.blk.get Reg.place_SIZE d * 1024)) = false →
        ∃ (b : Blk) (l : List Nat), exec .peatTrim s = .next (s.settled b) ∧ b.endedAs peatCmd ok ∧
          b.onlyFields { s.blk with peat := { s.blk.peat with lost := l } } ∧ (∀ k ∈ l, k ∈ s.blk.peat.lost) ∧
          ∀ k : Nat, k < 2 ^ 34 → b.get Reg.lmap_V k = if s.blk.get Reg.PEAT_CMD_ARG0_FIRST_LBN ≤ k ∧
            k < s.blk.get Reg.PEAT_CMD_ARG0_FIRST_LBN + s.blk.get Reg.PEAT_CMD_ARG1_COUNT then 0 else s.blk.get Reg.lmap_V k) ∧
      (s.blk.get Reg.PEAT_STATE_STATE ≠ Ps.mounting →
        s.blk.get Reg.PEAT_LOGICAL_BLOCKS_COUNT < s.blk.get Reg.PEAT_CMD_ARG0_FIRST_LBN + s.blk.get Reg.PEAT_CMD_ARG1_COUNT →
        ∃ b : Blk, exec .peatTrim s = .next (s.settled b) ∧ b.endedAs peatCmd badRange ∧ b.onlyFields s.blk ∧ b.keeps s.blk .t_lmap) ∧
      (s.blk.get Reg.PEAT_STATE_STATE ≠ Ps.mounting →
        s.blk.get Reg.PEAT_CMD_ARG0_FIRST_LBN + s.blk.get Reg.PEAT_CMD_ARG1_COUNT ≤ s.blk.get Reg.PEAT_LOGICAL_BLOCKS_COUNT →
        ((s.blk.entriesWith Reg.place_STATE).any fun d => s.blk.get Reg.place_CLASS d == Cls.weights && meet (s.blk.get Reg.PEAT_CMD_ARG0_FIRST_LBN)
          (s.blk.get Reg.PEAT_CMD_ARG1_COUNT) (s.blk.get Reg.place_LOWER_BASE d) (s.blk.get Reg.place_SIZE d * 1024)) = true →
        ∃ b : Blk, exec .peatTrim s = .next (s.settled b) ∧ b.endedAs peatCmd overlap ∧ b.onlyFields s.blk ∧ b.keeps s.blk .t_lmap) ∧
      (∀ bad : List (Nat × Nat × Nat), ∃ b : Blk, exec (.peatCheckpoint bad) s = .next (s.settled b) ∧ b.keeps s.blk .t_lmap ∧
        b.store = s.blk.store ∧ b.home = s.blk.home ∧ b.tier = s.blk.tier ∧
        ((b.endedAs peatCmd ok ∧ b.peat.ckpt ≠ none ∧ b.peat.ckptAt = s.blk.el ∧ b.peat.ckptKey = s.blk.key 0 ∧
            ∀ e ∈ b.peat.log, ∃ g sb : Nat, e = .erased g sb) ∨
          (b.endedAs peatCmd badState ∧ bitAt (b.get Reg.ERR_STICKY_ERR Pg.peat) 9 = true ∧ b.peat.ckpt = s.blk.peat.ckpt)) ∧
        (s.blk.ckptAble = true → bad = [] → s.blk.nandBlocks ≤ 8192 → b.endedAs peatCmd ok) ∧
        (s.blk.ckptAble = false → b.endedAs peatCmd badState ∧ b.peat = { s.blk.peat with ckptAt := s.blk.el }))) ∧
    (s.blk.peat.fmt = some [] → (∀ o ∈ s.blk.peat.ops, o.erase = false) → s.blk.formatGoes.endedAs peatCmd ok ∧ s.blk.formatGoes.peat.fmt = none ∧
      s.blk.formatGoes.get Reg.PEAT_LOGICAL_BLOCKS_COUNT = s.blk.nandSlots * 7 / 8 % 2 ^ Reg.PEAT_LOGICAL_BLOCKS_COUNT.w ∧
      Ps.ok ≤ s.blk.formatGoes.get Reg.PEAT_STATE_STATE ∧ s.blk.formatGoes.keeps s.blk .t_lmap) ∧
    (s.blk.kept = true →
      (∀ bad : List (Nat × Nat × Nat),
        (Ps.ok ≤ s.blk.get Reg.PEAT_STATE_STATE → s.blk.past s.blk.peat.ckptAt (secs (s.blk.get Reg.PEAT_CKPT_CKPT_S)) = true →
          exec (.ckptTimer bad) s = .next (s.settled (s.blk.clear.checkpoint bad).2)) ∧
        (s.blk.get Reg.PEAT_STATE_STATE < Ps.ok ∨ s.blk.past s.blk.peat.ckptAt (secs (s.blk.get Reg.PEAT_CKPT_CKPT_S)) = false →
          exec (.ckptTimer bad) s = .next (s.settled s.blk.clear)) ∧
        (s.blk.ckptAble = false → s.blk.checkpoint bad = (false, s.blk.ckptFail))) ∧
      (∀ bad : List Nat, s.blk.get Reg.PEAT_STATE_STATE = Ps.mounting → s.blk.peat.ckpt = none →
        exec (.peatMount bad) s = .next (s.settled (s.blk.clear.put Reg.PEAT_STATE_STATE Ps.unformatted))) ∧
      (∀ (bad : List Nat) (l : List (Nat × Nat)), s.blk.get Reg.PEAT_STATE_STATE = Ps.mounting → s.blk.peat.ckpt = some l →
        s.blk.peat.ckptKey = s.blk.key 0 →
        ∃ b : Blk, exec (.peatMount bad) s = .next (s.settled b) ∧ Ps.ok ≤ b.get Reg.PEAT_STATE_STATE ∧ b.peat.open_ = [] ∧ b.peat.closing = [] ∧
          b.get Reg.PEAT_LOGICAL_BLOCKS_COUNT = s.blk.peat.logical % 2 ^ Reg.PEAT_LOGICAL_BLOCKS_COUNT.w ∧
          (∀ (lbn w : Nat) (x : Slot), s.blk.peat.log = [.wrote lbn x w] → bad.contains w = false → lbn < 2 ^ 34 → x.g < 32 → x.sb < 8192 →
            x.row < 8192 → x.pos < 16 → b.get Reg.lmap_V lbn = 1 ∧ b.slotOfLbn lbn = x) ∧
          b.store = s.blk.store ∧ b.home = s.blk.home))) ∧
  (∀ (c : ChanId) (s : State), s.blk.kept = true →
    (∀ d : Fin 16, s.blk.dieSilent c.val d.val = true ∨ s.blk.wornDie c.val d.val = true → (s.blk.diesOn c.val).contains d.val = true →
      bitAt (s.blk.get Reg.PCH_STATE_DIE_DEAD c.val) d.val = false →
      ∃ b : Blk, exec (.dieTimeout c d) s = .next (s.settled b) ∧ bitAt (b.get Reg.PCH_STATE_DIE_DEAD c.val) d.val = true ∧
        bitAt (b.get Reg.ERR_STICKY_ERR Pg.peat) 3 = true ∧ b.keeps s.blk .t_lmap ∧ b.store = s.blk.store ∧ b.home = s.blk.home ∧
        b.tier = s.blk.tier ∧
        (∀ k : Nat, k < s.blk.nandBlocks → k < 8192 → b.get Reg.blk_KIND (blkIdx c.val d.val k) = Bk.deadDie ∧
          (0 < s.blk.get Reg.sb_VALID (sbIdx (16 * (c.val / 16) + d.val) k) → s.blk.erasing (16 * (c.val / 16) + d.val) k = false → (16 * (c.val / 16) + d.val, k) ∈ b.peat.deadDue)) ∧
        (∀ o ∈ s.blk.peat.ops, ∀ blk lbn : Nat, o.job = .down blk lbn → o.at_.g = 16 * (c.val / 16) + d.val → o.at_.pos = c.val % 16 →
          o ∉ b.peat.ops ∧ (o.job, none) ∈ b.peat.todo)) ∧
    (∀ d : Fin 16, (s.blk.dieSilent c.val d.val = false ∧ s.blk.wornDie c.val d.val = false) ∨
      bitAt (s.blk.get Reg.PCH_STATE_DIE_DEAD c.val) d.val = true → exec (.dieTimeout c d) s = .next (s.settled s.blk.clear)) ∧
    (∀ dies : List Geom, s.blk.get Reg.PCH_STATE_STATE c.val = Pst.training →
      (s.blk.geometryOk c.val dies = true →
        exec (.channelTrain c true dies) s = .next (s.settled (((s.blk.clear.put Reg.PCH_STATE_STATE Pst.up c.val).showGeom dies).peatFound.placeMap))) ∧
      (s.blk.geometryOk c.val dies = false →
        exec (.channelTrain c true dies) s = .next (s.settled (s.blk.clear.err Pg.peat 8).placeMap)) ∧
      exec (.channelTrain c false dies) s = .next (s.settled (((s.blk.clear.put Reg.PCH_STATE_STATE Pst.failed
        c.val).each (s.blk.diesOn c.val) fun b d => b.dieDead c.val d).peatFound.placeMap))))

/-- Work on the dies (R286, R287, R289 to R293, R295, R296, R299): the tries at a codeword go up the ladder in its order to the first that is
accepted; a read's fetch is given what its codewords decode to, once its dies are free, and a read that comes to step 4 takes its row's dies too; a
program that passes makes the map name its slot, for a write-down and for a copy of what the map still names, and guards its row as its parity; one
that fails marks the block and is repeated outside its row; a row that has waited is filled with pads; the trigger of the highest order starts a
relocation, whose super-block is erased member by member once nothing of it is read or programmed, and is then free with nothing read; an erase that
fails marks its block; scrub reads a block once in a period and keeps the largest correction; a suspended operation resumes once its reads are done.
Words of LDPC parity come from a constant without a value (log entry 91), and which block a copy lost stays in is a reading (log entry 87). -/
def Obligations.DieOperations : Prop :=
  ∀ s : State, s.blk.kept = true →
    (∀ (id : Nat) (tries : List (List Try)) (r : NandRead), s.blk.peat.reads.find? (·.id == id) = some r →
      (∀ (d : Nat) (got : Option (List Line)) (b c : Blk), r.pass = false → r.move = false → s.blk.placeOf (r.blk / 1024) = some d →
        (needsRow tries = true → r.row = true ∨ s.blk.dieGone r.at_ = true) → s.blk.readBusy { r with row := r.row || needsRow tries } = false →
        s.blk.readSettled r (s.blk.get Reg.place_TENANT d) tries = true →
        c = { s.blk.clear with peat := { s.blk.peat with reads := s.blk.peat.reads.filter (·.id ≠ id) } } →
        c.ladders r (s.blk.get Reg.place_TENANT d) (List.range 16) tries = (got, b) → (b.fetchOf r.blk).isSome = true →
        exec (.nandReadComplete id tries) s = .next (s.settled { b with peat := { b.peat with ready := b.peat.ready ++ [(r.blk, got)] } })) ∧
      (r.row = false → needsRow tries = true → s.blk.dieGone r.at_ = false → s.blk.readSettled r (s.blk.tenantOf r tries) tries = true →
        (s.blk.clear.readRow { r with row := true }).readBusy { r with row := true } = true →
        exec (.nandReadComplete id tries) s = .next (s.settled (s.blk.clear.readRow { r with row := true }))) ∧
      (needsRow tries = r.row → s.blk.readBusy r = true → exec (.nandReadComplete id tries) s = .next (s.settled s.blk.clear))) ∧
    (∀ (ok : Try → Bool) (steps : List Nat) (ts : List Try), settles ok steps ts = true → ts.map (·.step) = steps.take ts.length ∧
      ((∃ (l : List Try) (t : Try), ts = l ++ [t] ∧ ok t = true ∧ ∀ u ∈ l, ok u = false) ∨ (ts.length = steps.length ∧ ∀ u ∈ ts, ok u = false))) ∧
    (∀ (id : Nat) (o : NandOp), s.blk.peat.ops.find? (fun o => o.id == id && !o.erase && !o.suspended) = some o →
      (∀ blk lbn : Nat, o.job = .down blk lbn → lbn < 2 ^ 34 → o.at_.g < 32 → o.at_.sb < 8192 → o.at_.row < 8192 → o.at_.pos < 16 →
        ∃ b : Blk, exec (.peatProgramComplete id true) s = .next (s.settled b) ∧ b.get Reg.lmap_V lbn = 1 ∧ b.slotOfLbn lbn = o.at_ ∧
          b.peat.ops.map (·.id) = (s.blk.peat.ops.filter (·.id ≠ id)).map (·.id) ∧ b.peat.log = s.blk.peat.log ++ [.wrote lbn o.at_ o.wseq] ∧
          (∀ k : Nat, k < 2 ^ 34 → k ≠ lbn → b.get Reg.lmap_V k = s.blk.get Reg.lmap_V k ∧ b.slotOfLbn k = s.blk.slotOfLbn k) ∧
          b.store = s.blk.store ∧ b.home = s.blk.home ∧
          (∀ x : Down, s.blk.tier.downs.find? (·.block == blk) = some x → s.blk.tier.job = none → blk < 2 ^ 31 →
            b.tier.downs = s.blk.tier.downs.erase x ∧ b.get Reg.map_STORED blk = 1)) ∧
      (∀ (lbn tenant : Nat) (src : Slot) (data : List Line) (wl : Bool), o.job = .copy lbn src tenant data wl → lbn < 2 ^ 34 → o.at_.g < 32 →
        o.at_.sb < 8192 → o.at_.row < 8192 → o.at_.pos < 16 →
        ∃ b : Blk, exec (.peatProgramComplete id true) s = .next (s.settled b) ∧ b.store = s.blk.store ∧ b.home = s.blk.home ∧
          (s.blk.get Reg.lmap_V lbn = 1 → s.blk.slotOfLbn lbn = src → b.get Reg.lmap_V lbn = 1 ∧ b.slotOfLbn lbn = o.at_) ∧
          (s.blk.get Reg.lmap_V lbn = 0 ∨ s.blk.slotOfLbn lbn ≠ src → b.keeps s.blk .t_lmap)) ∧
      (o.job = .parity →
        ∃ b : Blk, exec (.peatProgramComplete id true) s = .next (s.settled b) ∧ b.keeps s.blk .t_lmap ∧
          b.peat.bare = s.blk.peat.bare.filter (· != o.at_.rowOf) ∧ b.store = s.blk.store) ∧
      exec (.peatProgramComplete id false) s = .next (s.settled ((((({ s.blk.clear with peat := { s.blk.peat with
        ops := s.blk.peat.ops.filter (·.id ≠ id) } } : Blk).count Reg.PCH_PROG_CNT (chanOf o.at_.g o.at_.pos)).growBad o.at_).repeatJob o.job
        (some o.at_.rowOf))))) ∧
    (∀ (g : Fin 32) (sb : Fin 8192) (o : OpenSb), (s.blk.peat.closing ++ s.blk.peat.open_).find? (fun o => o.g == g.val && o.sb == sb.val &&
        o.used != [] && (s.blk.unfilled o != [] || !s.blk.peat.closing.contains o) && s.blk.past o.since (us (s.blk.get Reg.PEAT_TIMING_ROW_CLOSE_US))) = some o →
      ∃ (b : Blk) (l : List NandOp), exec (.rowCloseTimeout g sb) s = .next (s.settled b) ∧ b.peat.ops = s.blk.peat.ops ++ l ∧
        l.map (fun n => (n.job, n.at_)) = (s.blk.unfilled o).map (fun p => (.pad, { g := o.g, sb := o.sb, row := o.row, pos := p })) ∧
        b.fs = s.blk.fs ∧ b.store = s.blk.store ∧ b.home = s.blk.home) ∧
    (∀ (g sb order : Nat), g < 32 → sb < 8192 → s.blk.peat.reloc = none → Ps.ok ≤ s.blk.get Reg.PEAT_STATE_STATE →
      s.blk.trigger = some ((g, sb), order) →
      ∃ b : Blk, exec .relocationStart s = .next (s.settled b) ∧ b.peat.reloc = some (g, sb, order) ∧
        (s.blk.sbState (g, sb) ≠ Ss.retired → b.sbState (g, sb) = Ss.gc) ∧ (∀ o ∈ b.peat.open_, ¬(o.g = g ∧ o.sb = sb)) ∧
        b.keeps s.blk .t_lmap ∧ b.store = s.blk.store) ∧
    (∀ (g sb order : Nat), s.blk.peat.reloc = some (g, sb, order) →
      (s.blk.validIn g sb = [] → (s.blk.peat.reads.any fun r => r.at_.g == g && r.at_.sb == sb) = false →
        (s.blk.peat.ops.any fun o => o.at_.g == g && o.at_.sb == sb) = false → (s.blk.peat.closing.any fun o => o.g == g && o.sb == sb) = false →
        s.blk.goodMembers g sb ≠ [] →
        ∃ (b : Blk) (l : List NandOp), exec .relocationComplete s = .next (s.settled b) ∧ b.peat.reloc = none ∧ b.fs = s.blk.fs ∧
          b.emits = (s.blk.goodMembers g sb).map (fun p => .flash 2 (chanOf g p) (dieOf g) (sb * 4096)) ∧ b.peat.ops = s.blk.peat.ops ++ l ∧
          l.map (fun o => (o.job, o.at_)) = (s.blk.goodMembers g sb).map fun p => (.erase, { g, sb, row := 0, pos := p })) ∧
      ((s.blk.peat.reads.any fun r => r.at_.g == g && r.at_.sb == sb) = true → exec .relocationComplete s = .next (s.settled s.blk.clear))) ∧
    (∀ (id : Nat) (o : NandOp), s.blk.peat.ops.find? (fun o => o.id == id && o.erase && !o.suspended) = some o → o.at_.g < 32 → o.at_.sb < 8192 →
      o.at_.pos < 16 →
      ((s.blk.peat.ops.any fun p => p.id != id && p.erase && p.at_.g == o.at_.g && p.at_.sb == o.at_.sb) = false →
        ∃ b : Blk, exec (.eraseComplete id true) s = .next (s.settled b) ∧ b.get Reg.sb_VALID (sbIdx o.at_.g o.at_.sb) = 0 ∧
          (b.sbState (o.at_.g, o.at_.sb) = Ss.free ∨ b.sbState (o.at_.g, o.at_.sb) = Ss.retired) ∧
          (∀ p : Fin 16, b.get Reg.blk_READS (blkIdx (chanOf o.at_.g p.val) (dieOf o.at_.g) o.at_.sb) = 0) ∧
          b.peat.ops = s.blk.peat.ops.filter (·.id ≠ id) ∧ b.keeps s.blk .t_lmap ∧ b.store = s.blk.store) ∧
      ((s.blk.peat.ops.any fun p => p.id != id && p.erase && p.at_.g == o.at_.g && p.at_.sb == o.at_.sb) = true →
        exec (.eraseComplete id true) s = .next (s.settled (({ s.blk.clear with peat := { s.blk.peat with
          ops := s.blk.peat.ops.filter (·.id ≠ id) } } : Blk).count Reg.PCH_ERASE_CNT (chanOf o.at_.g o.at_.pos)))) ∧
      ∃ b : Blk, exec (.eraseComplete id false) s = .next (s.settled b) ∧ b.memberGood o.at_.g o.at_.sb o.at_.pos = false ∧
        b.keeps s.blk .t_lmap ∧ b.store = s.blk.store) ∧
    (∀ (lbn : Nat) (tries : List (List Try)) (x : Slot) (r : NandRead) (c : Blk), s.blk.get Reg.lmap_V lbn = 1 → s.blk.peat.lost.contains lbn = false →
      Ps.ok ≤ s.blk.get Reg.PEAT_STATE_STATE → s.blk.aon.mode ≠ .p3 → x = s.blk.slotOfLbn lbn →
      r = { id := 0, pass := false, blk := 0, lbn, at_ := x, move := true, row := needsRow tries } → c = s.blk.clear.scrubPeriod →
      (c.peat.scrubbed.contains lbn = false → c.upkeepTurn (chanOf x.g x.pos) = true → c.readBusy r = false →
        c.readSettled r (c.tenantOf r tries) tries = true →
        ∃ b : Blk, exec (.retentionScrub lbn tries) s = .next (s.settled b) ∧ lbn ∈ b.peat.scrubbed ∧ b.keeps s.blk .t_lmap ∧
          b.get Reg.sb_SCRUB_BITS (sbIdx x.g x.sb) =
            Nat.max (s.blk.get Reg.sb_SCRUB_BITS (sbIdx x.g x.sb)) (Nat.min 255 (c.mostFixed r (c.tenantOf r tries) tries)) ∧
          b.store = s.blk.store ∧ b.home = s.blk.home ∧ b.tier = s.blk.tier) ∧
      (c.peat.scrubbed.contains lbn = true → exec (.retentionScrub lbn tries) s = .next (s.settled c)) ∧
      (s.blk.past s.blk.peat.scrubAt (secs (86400 * s.blk.get Reg.PEAT_RET_RET_PERIOD_D)) = false → c = s.blk.clear)) ∧
    (∀ (id : Nat) (o : NandOp),
      s.blk.peat.ops.find? (fun o => o.id == id && o.suspended && o.waits.all fun w => !s.blk.peat.reads.any (·.id == w)) = some o →
      s.blk.readsAt o = [] →
      ∃ b : Blk, exec (.programResume id) s = .next (s.settled b) ∧ b.fs = s.blk.fs ∧ b.store = s.blk.store ∧
        b.peat.ops = s.blk.peat.ops.map fun p => if p.id = id then { p with suspended := false, waits := [], since := s.blk.el } else p) ∧
    (∀ (id : Nat) (o : NandOp) (r : NandRead) (l : List NandRead),
      s.blk.peat.ops.find? (fun o => o.id == id && o.suspended && o.waits.all fun w => !s.blk.peat.reads.any (·.id == w)) = some o →
      s.blk.readsAt o = r :: l →
      exec (.programResume id) s = .next (s.settled (({ s.blk.clear with peat := { s.blk.peat with ops := s.blk.peat.ops.map fun p =>
        if p.id = id then { p with suspended := false, waits := [], since := s.blk.el } else p } } : Blk).suspendFor o.at_)))

/-- QMGR_CMD (R319 to R321, R211, R468, Table 10.7): `enable` makes an `off` queue whose context passes the checks ready and empty; `stop` and
`resume` act on the states they may; `reset` takes the queue off, leaves of its works only what they have issued, and unbinds it; a state they may not
act on ends in `bad_state`, a bad context in `bad_range`; and while `selftest_full` runs, `enable` and `resume` end `busy` (R548). -/
def Obligations.QueueCommands : Prop :=
  ∀ (q : Queue) (s : State), s.blk.opens Pg.qmgr = true → s.blk.get Reg.QMGR_CMD_STATUS_DONE = 1 →
    (s.blk.aon.full = none → s.blk.get Reg.qctx_STATE q.toNat = Qst.off → s.blk.enableBad q.toNat = false →
      ∃ b : Blk, exec (.qmgrEnable q) s = .next (s.settled b) ∧ b.endedAs qmgrCmd ok ∧ b.get Reg.qctx_STATE q.toNat = Qst.ready ∧
        b.get Reg.qctx_HEAD q.toNat = 0 ∧ b.get Reg.qctx_TAIL q.toNat = 0 ∧ b.get Reg.qmark_V q.toNat = 0 ∧
        b.get Reg.qctx_RING_VA q.toNat = s.blk.get Reg.qctx_RING_VA q.toNat ∧ b.onlyFields s.blk ∧
        ∀ r : Queue, r ≠ q → b.get Reg.qctx_STATE r.toNat = s.blk.get Reg.qctx_STATE r.toNat ∧
          b.get Reg.qctx_HEAD r.toNat = s.blk.get Reg.qctx_HEAD r.toNat ∧ b.get Reg.qctx_TAIL r.toNat = s.blk.get Reg.qctx_TAIL r.toNat) ∧
    (s.blk.aon.full = none → s.blk.get Reg.qctx_STATE q.toNat = Qst.off → s.blk.enableBad q.toNat = true →
      ∃ b : Blk, exec (.qmgrEnable q) s = .next (s.settled b) ∧ b.endedAs qmgrCmd badRange ∧ bitAt (b.get Reg.ERR_STICKY_ERR Pg.qmgr) 4 = true ∧
        b.onlyFields s.blk ∧ b.keeps s.blk .t_qctx) ∧
    (s.blk.aon.full = none → s.blk.get Reg.qctx_STATE q.toNat ≠ Qst.off →
      ∃ b : Blk, exec (.qmgrEnable q) s = .next (s.settled b) ∧ b.endedAs qmgrCmd badState ∧ b.onlyFields s.blk ∧ b.keeps s.blk .t_qctx) ∧
    (s.blk.get Reg.qctx_STATE q.toNat = Qst.ready →
      ∃ b : Blk, exec (.qmgrStop q) s = .next (s.settled b) ∧ b.get Reg.qctx_STATE q.toNat = Qst.stopped ∧
        b.get Reg.QMGR_CMD_STATUS_DONE = 0 ∧ b.eng = { s.blk.eng with stopping := some (q.toNat, 2) } ∧
        b.get Reg.qctx_HEAD q.toNat = s.blk.get Reg.qctx_HEAD q.toNat ∧ b.get Reg.qctx_TAIL q.toNat = s.blk.get Reg.qctx_TAIL q.toNat ∧
        b.store = s.blk.store ∧ b.home = s.blk.home) ∧
    (s.blk.get Reg.qctx_STATE q.toNat ≠ Qst.ready →
      ∃ b : Blk, exec (.qmgrStop q) s = .next (s.settled b) ∧ b.endedAs qmgrCmd badState ∧ b.onlyFields s.blk ∧ b.keeps s.blk .t_qctx) ∧
    (s.blk.aon.full ≠ none →
      ∃ b : Blk, exec (.qmgrEnable q) s = .next (s.settled b) ∧ exec (.qmgrResume q) s = .next (s.settled b) ∧ b.endedAs qmgrCmd busy ∧
        b.onlyFields s.blk ∧ b.keeps s.blk .t_qctx) ∧
    (s.blk.aon.full = none → s.blk.get Reg.qctx_STATE q.toNat = Qst.stopped ∨ s.blk.get Reg.qctx_STATE q.toNat = Qst.error →
      ∃ b : Blk, exec (.qmgrResume q) s = .next (s.settled b) ∧ b.endedAs qmgrCmd ok ∧ b.get Reg.qctx_STATE q.toNat = Qst.ready ∧
        b.get Reg.qctx_HEAD q.toNat = s.blk.get Reg.qctx_HEAD q.toNat ∧ b.eng.works = s.blk.eng.works ∧ b.eng.bound = s.blk.eng.bound ∧
        b.store = s.blk.store ∧ b.home = s.blk.home) ∧
    (s.blk.aon.full = none → s.blk.get Reg.qctx_STATE q.toNat ≠ Qst.stopped → s.blk.get Reg.qctx_STATE q.toNat ≠ Qst.error →
      ∃ b : Blk, exec (.qmgrResume q) s = .next (s.settled b) ∧ b.endedAs qmgrCmd badState ∧ b.onlyFields s.blk ∧ b.keeps s.blk .t_qctx) ∧
    ((∀ p ∈ s.blk.eng.monWork, p.1 < 65536) →
      ∃ b : Blk, exec (.qmgrReset q) s = .next (s.settled b) ∧ b.get Reg.qctx_STATE q.toNat = Qst.off ∧
        b.eng.stopping = some (q.toNat, 4) ∧ b.eng.bound = s.blk.eng.bound.filter (·.queue != q.toNat) ∧
        b.eng.waiting = s.blk.eng.waiting.filter (·.1 != q.toNat) ∧
        (∀ w ∈ b.eng.works, w.ofQueue q.toNat = true → w.phase = Phase.dropped ∧ w.out ≠ []) ∧
        (∀ w ∈ s.blk.eng.works, w.ofQueue q.toNat = false → w ∈ b.eng.works) ∧ b.store = s.blk.store ∧ b.home = s.blk.home)

/-- Threads and descriptors (R327, R328, R330, R331, R338): a waiting queue is bound to one of the free threads; a bound thread that may fetch takes
the descriptor at HEAD, moves HEAD on and reads the ring; a descriptor or stage that has ended writes its record once its release holds nothing back,
and waits where it does. -/
def Obligations.ThreadsAndDescriptors : Prop :=
  ∀ s : State, s.blk.on = true →
    (∀ q t : Nat, s.blk.nextQueue = some (q, t) → s.blk.freeThreads ≠ [] →
      ∃ (x : Nat × Nat) (b : Blk), x ∈ s.blk.freeThreads ∧ exec .queueBind s = .next (s.settled b) ∧
        b.eng = { s.blk.eng with waiting := s.blk.eng.waiting.filter (·.1 ≠ q), bound := s.blk.eng.bound ++ [{ queue := q, tile := x.1, thread := x.2 }] } ∧
        b.fs = s.blk.fs ∧ b.store = s.blk.store ∧ b.home = s.blk.home) ∧
    (s.blk.nextQueue = none → exec .queueBind s = .next (s.settled s.blk.clear)) ∧
    (∀ (q : Queue) (x : Bound) (i : Nat), s.blk.eng.bound.find? (·.queue == q.toNat) = some x → i = s.blk.get Reg.qctx_HEAD q.toNat →
      s.blk.stopsFetching x = false → s.blk.eng.halted.contains x.tile = false → (s.blk.worksOf q.toNat).length < 16 → s.blk.slotFree q.toNat i = true →
      ∃ b : Blk, exec (.descriptorFetch q) s = .next (s.settled (b.ask s.blk.eng.nextWork
          { op := Op.ring, opc := Opc.rdLineNa, va := s.blk.get Reg.qctx_RING_VA q.toNat * 2 ^ 10 + s.blk.slotOf q.toNat i * 64 })) ∧
        b.get Reg.qctx_HEAD q.toNat = (i + 1) % 2 ^ 32 ∧ b.get Reg.qctx_TAIL q.toNat = s.blk.get Reg.qctx_TAIL q.toNat ∧
        b.eng.works = s.blk.eng.works ++
          [{ id := s.blk.eng.nextWork, tenant := s.blk.get Reg.qctx_TENANT q.toNat, queue := q.toNat, index := i, tile := x.tile, thread := x.thread }] ∧
        b.store = s.blk.store ∧ b.home = s.blk.home ∧ b.orig = s.blk.orig) ∧
    (∀ (q : Queue) (i : Nat) (w : Work),
      s.blk.eng.works.find? (fun w => w.kind == 0 && w.queue == q.toNat && w.index == i && w.phase == .ended) = some w →
      (w.releases = false ∨ s.blk.earlierOpen w = [] →
        exec (.descriptorComplete q i) s = .next (s.settled ((s.blk.clear.modWork w.id fun w => { w with phase := Phase.recording }).ask w.id (s.blk.recordOf w)))) ∧
      (w.releases = true → s.blk.earlierOpen w ≠ [] → exec (.descriptorComplete q i) s = .next (s.settled s.blk.clear))) ∧
    (∀ (q : Queue) (i stage : Nat) (w g : Work),
      s.blk.eng.works.find? (fun w => w.kind == 1 && w.queue == q.toNat && w.index == i && w.stage == stage && w.phase == .ended) = some w →
      s.blk.work? w.parent = some g → (w.releases = false ∨ s.blk.earlierOpen g = []) →
      exec (.graphStageComplete q i stage) s = .next (s.settled ((s.blk.clear.modWork w.id fun w => { w with phase := Phase.recording }).ask w.id (w.stageRecord g))))

/-- Sedge and the tiles (R311 to R316, R7): with nothing waiting there, the owner of a bank hands it over and no other bank moves; another party's
write, or any access by a party that may not make it, is refused and counted, and its descriptor is to fail; bytes that are written stay where they
are put; an access that must wait is held; a bank of no owner accepts no read and no write; a window's party advances its count up to what the counts
allow, and waits beyond that; TILE_SNAP latches the step count and the time together. How accesses come to Sedge is the model's choice (log entry 84).
-/
def Obligations.SedgeAndTiles : Prop :=
  ∀ (t : TileId) (s : State),
    (s.blk.on = true → s.blk.eng.held = [] → s.blk.eng.handover = [] → ∀ (bank : Fin 16) (by_ new : Byte) (q : Queue) (i : Nat),
      (s.blk.bankOwner t.val bank.val = by_.toNat → ownerOk new.toNat = true →
        ∃ b : Blk, exec (.sedgeOwnerWrite t bank by_ new q i []) s = .next (s.settled b) ∧ b.bankOwner t.val bank.val = new.toNat ∧ b.onlyFields s.blk ∧
          ∀ (u : TileId) (k : Fin 16), (u, k) ≠ (t, bank) → b.bankOwner u.val k.val = s.blk.bankOwner u.val k.val) ∧
      (s.blk.bankOwner t.val bank.val ≠ by_.toNat →
        ∃ b : Blk, exec (.sedgeOwnerWrite t bank by_ new q i []) s = .next (s.settled b) ∧ bitAt (b.get Reg.ERR_STICKY_ERR (Pg.tile t.val)) 0 = true ∧
          (s.blk.get Reg.SEDGE_OWNER_FAULT_CNT t.val + 1 < 2 ^ 48 → b.get Reg.SEDGE_OWNER_FAULT_CNT t.val = s.blk.get Reg.SEDGE_OWNER_FAULT_CNT t.val + 1) ∧
          (∀ (u : TileId) (k : Fin 16), b.bankOwner u.val k.val = s.blk.bankOwner u.val k.val) ∧
          (∀ w ∈ b.eng.works, w.kind = 0 → w.queue = q.toNat → w.index = i → w.open_ = true → w.fault = true) ∧
          b.store = s.blk.store ∧ b.home = s.blk.home) ∧
      (s.blk.bankOwner t.val bank.val = by_.toNat → ownerOk new.toNat = false → ∀ before : List SedgeAcc,
        (before = [] →
          ∃ b : Blk, exec (.sedgeOwnerWrite t bank by_ new q i before) s = .next (s.settled b) ∧ b.onlyFields s.blk ∧
            ∀ (u : TileId) (k : Fin 16), b.bankOwner u.val k.val = s.blk.bankOwner u.val k.val) ∧
        (∀ a : SedgeAcc, before = [a] →
          (s.blk.stand t.val a = .bad →
            ∃ b : Blk, exec (.sedgeOwnerWrite t bank by_ new q i before) s = .next (s.settled b) ∧
              bitAt (b.get Reg.ERR_STICKY_ERR (Pg.tile t.val)) 0 = true ∧ b.eng.sedge = s.blk.eng.sedge ∧
              (∀ w ∈ b.eng.works, w.kind = 0 → w.queue = a.q.toNat → w.index = a.i → w.open_ = true → w.fault = true)) ∧
          (s.blk.stand t.val a = .wait →
            ∃ b : Blk, exec (.sedgeOwnerWrite t bank by_ new q i before) s = .next (s.settled b) ∧ b.eng.held = [(t.val, a)] ∧
              b.eng.sedge = s.blk.eng.sedge) ∧
          (∀ (off : BitVec 21) (l : List Byte), a.act = .write off l → l.length ≤ 64 → s.blk.stand t.val a = .go →
            ∃ b : Blk, exec (.sedgeOwnerWrite t bank by_ new q i before) s = .next (s.settled b) ∧
              (∀ j : Nat, j < l.length → Sparse.get 0 b.eng.sedge (t.val * 2 ^ 21 + sedgeAt off.toNat j) = (l.getD j 0).toNat + 1) ∧
              (∀ k : Nat, (∀ j : Nat, j < l.length → k ≠ t.val * 2 ^ 21 + sedgeAt off.toNat j) →
                Sparse.get 0 b.eng.sedge k = Sparse.get 0 s.blk.eng.sedge k) ∧
              b.eng.works = s.blk.eng.works ∧ b.store = s.blk.store ∧ b.home = s.blk.home)))) ∧
    (∀ (a : SedgeAcc) (off : BitVec 21) (k : Nat), s.blk.eng.handover = [] → (∃ l, a.act = .write off l) ∨ (∃ n, a.act = .read off n) →
      k ∈ s.blk.touches t.val a → s.blk.bankOwner t.val k = 0 → s.blk.stand t.val a = .bad) ∧
    (s.blk.on = true → s.blk.eng.held = [] → s.blk.eng.handover = [] → ∀ (w : Fin 8) (by_ : Byte) (p : Bool) (count : BitVec 32) (q : Queue) (i : Nat),
      (s.blk.windowStand t.val { by_, act := .advance w p count, q, i } w.val = .go →
        ∃ b : Blk, exec (.cbwCountAdvance t w by_ p count q i []) s = .next (s.settled b) ∧ b.onlyFields s.blk ∧
          b.get Reg.CBW_PTR_PROD (cbw t.val w.val) = (if p then count.toNat else s.blk.get Reg.CBW_PTR_PROD (cbw t.val w.val)) ∧
          b.get Reg.CBW_PTR_CONS (cbw t.val w.val) = (if p then s.blk.get Reg.CBW_PTR_CONS (cbw t.val w.val) else count.toNat)) ∧
      (s.blk.windowStand t.val { by_, act := .advance w p count, q, i } w.val = .wait →
        ∃ b : Blk, exec (.cbwCountAdvance t w by_ p count q i []) s = .next (s.settled b) ∧
          b.eng = { s.blk.eng with held := [(t.val, { by_, act := .advance w p count, q, i })] } ∧
          b.get Reg.CBW_PTR_PROD (cbw t.val w.val) = s.blk.get Reg.CBW_PTR_PROD (cbw t.val w.val) ∧
          b.get Reg.CBW_PTR_CONS (cbw t.val w.val) = s.blk.get Reg.CBW_PTR_CONS (cbw t.val w.val)) ∧
      (s.blk.get Reg.CBW_CFG_EN (cbw t.val w.val) = 0 ∨
          s.blk.get (if p then Reg.CBW_CFG_PRODUCER else Reg.CBW_CFG_CONSUMER) (cbw t.val w.val) ≠ by_.toNat →
        ∃ b : Blk, exec (.cbwCountAdvance t w by_ p count q i []) s = .next (s.settled b) ∧ bitAt (b.get Reg.ERR_STICKY_ERR (Pg.tile t.val)) 0 = true ∧
          b.get Reg.CBW_PTR_PROD (cbw t.val w.val) = s.blk.get Reg.CBW_PTR_PROD (cbw t.val w.val) ∧
          b.get Reg.CBW_PTR_CONS (cbw t.val w.val) = s.blk.get Reg.CBW_PTR_CONS (cbw t.val w.val)) ∧
      (s.blk.get Reg.CBW_CFG_EN (cbw t.val w.val) = 1 → s.blk.get (if p then Reg.CBW_CFG_PRODUCER else Reg.CBW_CFG_CONSUMER) (cbw t.val w.val) = by_.toNat →
        s.blk.windowStand t.val { by_, act := .advance w p count, q, i } w.val =
          (if (if p then subMod 32 count.toNat (s.blk.get Reg.CBW_PTR_PROD (cbw t.val w.val)) ≤ 2 ^ s.blk.get Reg.CBW_CFG_SIZE_LOG2 (cbw t.val w.val) -
                subMod 32 (s.blk.get Reg.CBW_PTR_PROD (cbw t.val w.val)) (s.blk.get Reg.CBW_PTR_CONS (cbw t.val w.val))
              else subMod 32 count.toNat (s.blk.get Reg.CBW_PTR_CONS (cbw t.val w.val)) ≤
                subMod 32 (s.blk.get Reg.CBW_PTR_PROD (cbw t.val w.val)) (s.blk.get Reg.CBW_PTR_CONS (cbw t.val w.val))) then .go else .wait))) ∧
    (s.blk.opens (Pg.tile t.val) = true →
      ∃ (d : Nat) (b : Blk), exec (.tileSnap t) s = .next (s.settled b) ∧ b.get Reg.TILE_TIME_SNAP_TIME t.val = s.blk.now ∧
        b.get Reg.TILE_STEP_SNAP_STEPS t.val = b.get Reg.TILE_STEP_CNT t.val ∧
        b.get Reg.TILE_STEP_CNT t.val = Nat.min (2 ^ 48 - 1) (s.blk.get Reg.TILE_STEP_CNT t.val + d) ∧ b.onlyFields s.blk)

/-- Chunks between parts (R384 to R387, R389, R413, R415): a complete request of the command's kind is taken up by one free tile; a trailer whose
serial is that of the waiting chunk ends it with the trailer's status and rows, and any other is discarded and counted; a chunk without a trailer in
time ends PEER_DEAD or INTERNAL, counted and recorded. -/
def Obligations.ChunksBetweenParts : Prop :=
  ∀ (peer : Fin 64) (ch : Nat) (s : State), s.blk.on = true →
    (∀ (mk : Fin 64 → Nat → Instr) (eng : Nat) (kind : Nat → Bool), (mk, eng, kind) ∈ serveRows →
      ((s.blk.chan eng peer.val ch).reqFinal = true → (s.blk.chan eng peer.val ch).serving = false →
        kind (s.blk.chan eng peer.val ch).kind = true → s.blk.servers ≠ [] →
        ∃ (b : Blk) (w : Work), exec (mk peer ch) s = .next (s.settled b) ∧ (b.chan eng peer.val ch).serving = true ∧
          b.eng.works = s.blk.eng.works ++ [w] ∧ w.kind = 2 ∧ w.phase = Phase.running ∧ w.tenant = (s.blk.chan eng peer.val ch).tenant ∧
          w.tile ∈ s.blk.servers ∧ w.snap = [eng, peer.val, ch] ∧ b.fs = s.blk.fs ∧ b.store = s.blk.store ∧ b.home = s.blk.home) ∧
      ((s.blk.chan eng peer.val ch).reqFinal = false ∨ (s.blk.chan eng peer.val ch).serving = true ∨
        kind (s.blk.chan eng peer.val ch).kind = false ∨ s.blk.servers = [] → exec (mk peer ch) s = .next (s.settled s.blk.clear))) ∧
    (∀ (trailer timeout : Fin 64 → Nat → Instr) (eng page : Nat) (bad late : Fld), (trailer, timeout, eng, page, bad, late) ∈ exchangeRows →
      (∀ (id no serial : Nat) (t : Line), (s.blk.chan eng peer.val ch).wait = some (id, no, serial) → (s.blk.chan eng peer.val ch).trailer = some t →
        lineGet t 4 4 = serial →
        ∃ b : Blk, exec (trailer peer ch) s = .next (s.settled b) ∧ (b.chan eng peer.val ch).wait = none ∧ (b.chan eng peer.val ch).trailer = none ∧
          (∀ w ∈ b.eng.works, w.id = id → ∀ k ∈ w.chunks, k.no = no → k.phase = CPhase.done ∧ k.status = asStatus (lineGet t 0 1) ∧
            k.rep = (s.blk.chan eng peer.val ch).rep ∧ k.missing = lineGet t 8 56) ∧
          (asStatus (lineGet t 0 1) = St.staleEpoch → bitAt (b.get Reg.ERR_STICKY_ERR page) 0 = true) ∧
          (asStatus (lineGet t 0 1) ≠ St.staleEpoch → b.fs = s.blk.fs) ∧ b.store = s.blk.store ∧ b.home = s.blk.home) ∧
      (∀ (id no serial : Nat) (t : Line), (s.blk.chan eng peer.val ch).wait = some (id, no, serial) → (s.blk.chan eng peer.val ch).trailer = some t →
        lineGet t 4 4 ≠ serial →
        ∃ b : Blk, exec (trailer peer ch) s = .next (s.settled b) ∧ (b.chan eng peer.val ch).wait = some (id, no, serial) ∧
          (b.chan eng peer.val ch).trailer = none ∧ (b.chan eng peer.val ch).rep = [] ∧ bitAt (b.get Reg.ERR_STICKY_ERR page) 2 = true ∧
          (s.blk.get bad + 1 < 2 ^ 48 → b.get bad = s.blk.get bad + 1) ∧ b.eng.works = s.blk.eng.works ∧ b.store = s.blk.store) ∧
      (∀ id no serial since : Nat, (s.blk.chan eng peer.val ch).wait = some (id, no, serial) → (s.blk.chan eng peer.val ch).waitFrom = some since →
        (s.blk.chan eng peer.val ch).trailer = none → s.blk.past since s.blk.reqTimeout = true →
        ∃ b : Blk, exec (timeout peer ch) s = .next (s.settled b) ∧ (b.chan eng peer.val ch).wait = none ∧ bitAt (b.get Reg.ERR_STICKY_ERR page) 1 = true ∧
          (s.blk.get late + 1 < 2 ^ 48 → b.get late = s.blk.get late + 1) ∧
          (∀ w ∈ b.eng.works, w.id = id → ∀ k ∈ w.chunks, k.no = no → k.phase = CPhase.done ∧
            k.status = if bitAt (s.blk.get Reg.WIN_PEER_DEAD_DEAD) peer.val = true then St.peerDead else St.internal) ∧
          b.store = s.blk.store ∧ b.home = s.blk.home) ∧
      (s.blk.past ((s.blk.chan eng peer.val ch).waitFrom.getD s.blk.el) s.blk.reqTimeout = false →
        exec (timeout peer ch) s = .next (s.settled s.blk.clear)))

/-- Tables and indexes (R371, R393, R394, R402, R422): `define` activates an `off` entry that passes the checks with slot A staged; `stage` stages a
free slot; `undefine` frees an entry that nothing pins, and answers `busy` where something does; a superseded slot that nothing pins is freed after
its grace, and an owning part's upkeep follows an index. That `undefine` frees both slots with their entry is a reading (log entry 21). -/
def Obligations.TablesAndIndexes : Prop :=
  ∀ (t : Fin 4096) (x : Fin 256) (slot : Fin 2) (s : State),
    (s.blk.opens Pg.emb = true → s.blk.get Reg.EMB_CMD_STATUS_DONE = 1 →
      (s.blk.get Reg.table_STATE t.val = 0 → s.blk.defineBad t.val = false →
        ∃ b : Blk, exec (.embDefine t) s = .next (s.settled b) ∧ b.endedAs embCmd ok ∧ b.get Reg.table_STATE t.val = 1 ∧ b.get Reg.table_SSTATE_A t.val = 1 ∧
          (∀ u : Fin 4096, u ≠ t → b.get Reg.table_STATE u.val = s.blk.get Reg.table_STATE u.val) ∧ b.eng.works = s.blk.eng.works ∧ b.store = s.blk.store) ∧
      (s.blk.get Reg.table_STATE t.val = 0 → s.blk.defineBad t.val = true →
        ∃ b : Blk, exec (.embDefine t) s = .next (s.settled b) ∧ b.endedAs embCmd badRange ∧ bitAt (b.get Reg.ERR_STICKY_ERR Pg.emb) 4 = true ∧
          b.onlyFields s.blk ∧ b.keeps s.blk .t_table) ∧
      (s.blk.get Reg.table_STATE t.val = 1 → s.blk.pinCount 0 t.val 0 = 0 → s.blk.pinCount 0 t.val 1 = 0 →
        ∃ b : Blk, exec (.embUndefine t) s = .next (s.settled b) ∧ b.endedAs embCmd ok ∧ b.get Reg.table_STATE t.val = 0 ∧
          b.get Reg.table_SSTATE_A t.val = 0 ∧ b.get Reg.table_SSTATE_B t.val = 0 ∧ b.eng.works = s.blk.eng.works ∧ b.store = s.blk.store) ∧
      (s.blk.get Reg.table_STATE t.val = 1 → s.blk.pinCount 0 t.val slot.val ≠ 0 →
        ∃ b : Blk, exec (.embUndefine t) s = .next (s.settled b) ∧ b.endedAs embCmd busy ∧ b.onlyFields s.blk ∧ b.keeps s.blk .t_table) ∧
      (s.blk.get Reg.table_STATE t.val = 1 → s.blk.get (inSlot Reg.table_SSTATE_A slot.val) t.val = 0 → s.blk.slotMisaligned t.val slot.val = false →
        s.blk.get Reg.table_VERSION_A t.val ≠ s.blk.get Reg.table_VERSION_B t.val →
        ∃ b : Blk, exec (.embStage t slot) s = .next (s.settled b) ∧ b.endedAs embCmd ok ∧ b.get (inSlot Reg.table_SSTATE_A slot.val) t.val = 1 ∧
          b.get (inSlot Reg.table_SSTATE_A (1 - slot.val)) t.val = s.blk.get (inSlot Reg.table_SSTATE_A (1 - slot.val)) t.val ∧
          b.eng.works = s.blk.eng.works ∧ b.store = s.blk.store)) ∧
    (s.blk.opens Pg.vse = true → s.blk.get Reg.VSE_CMD_STATUS_DONE = 1 →
      (s.blk.get Reg.index_STATE x.val = 0 → s.blk.indexBad x.val = false →
        ∃ b : Blk, exec (.vseDefine x) s = .next (s.settled b) ∧ b.endedAs vseCmd ok ∧ b.get Reg.index_STATE x.val = 1 ∧ b.get Reg.index_SSTATE_A x.val = 1 ∧
          b.eng.works = s.blk.eng.works ∧ b.store = s.blk.store) ∧
      (s.blk.get Reg.index_STATE x.val = 0 → s.blk.indexBad x.val = true →
        ∃ b : Blk, exec (.vseDefine x) s = .next (s.settled b) ∧ b.endedAs vseCmd badRange ∧ bitAt (b.get Reg.ERR_STICKY_ERR Pg.vse) 7 = true ∧
          b.onlyFields s.blk ∧ b.keeps s.blk .t_index) ∧
      (s.blk.get Reg.index_STATE x.val = 1 → s.blk.pinCount 1 x.val 0 = 0 → s.blk.pinCount 1 x.val 1 = 0 →
        ∃ b : Blk, exec (.vseUndefine x) s = .next (s.settled b) ∧ b.endedAs vseCmd ok ∧ b.get Reg.index_STATE x.val = 0 ∧
          b.get Reg.index_SSTATE_A x.val = 0 ∧ b.get Reg.index_SSTATE_B x.val = 0 ∧ b.eng.works = s.blk.eng.works ∧ b.store = s.blk.store) ∧
      (s.blk.get Reg.index_STATE x.val = 1 → s.blk.pinCount 1 x.val slot.val ≠ 0 →
        ∃ b : Blk, exec (.vseUndefine x) s = .next (s.settled b) ∧ b.endedAs vseCmd busy ∧ b.onlyFields s.blk ∧ b.keeps s.blk .t_index)) ∧
    (s.blk.on = true →
      (s.blk.mayRetire embVer t.val slot.val = true →
        ∃ b : Blk, exec (.embSlotRetire t slot) s = .next (s.settled b) ∧ b.get (inSlot Reg.table_SSTATE_A slot.val) t.val = 0 ∧
          b.get (inSlot Reg.table_SSTATE_A (1 - slot.val)) t.val = s.blk.get (inSlot Reg.table_SSTATE_A (1 - slot.val)) t.val ∧
          (s.blk.get Reg.EMB_RETIRE_CNT + 1 < 2 ^ 48 → b.get Reg.EMB_RETIRE_CNT = s.blk.get Reg.EMB_RETIRE_CNT + 1) ∧
          b.eng.works = s.blk.eng.works ∧ b.store = s.blk.store) ∧
      (s.blk.mayRetire embVer t.val slot.val = false → exec (.embSlotRetire t slot) s = .next (s.settled s.blk.clear)) ∧
      (s.blk.mayRetire vseVer x.val slot.val = true →
        ∃ b : Blk, exec (.vseSlotRetire x slot) s = .next (s.settled b) ∧ b.get (inSlot Reg.index_SSTATE_A slot.val) x.val = 0 ∧
          (s.blk.get Reg.index_OWN_SHARD x.val = 0x7F → b.eng.works = s.blk.eng.works) ∧
          (s.blk.get Reg.index_OWN_SHARD x.val ≠ 0x7F → ∃ w : Work, b.eng.works = s.blk.eng.works ++ [w] ∧ w.kind = 3 ∧
            w.snap = [x.val, s.blk.get Reg.index_OWN_SHARD x.val, s.blk.get (inSlot Reg.index_VERSION_A slot.val) x.val]) ∧
          b.store = s.blk.store) ∧
      (s.blk.mayRetire vseVer x.val slot.val = false → exec (.vseSlotRetire x slot) s = .next (s.settled s.blk.clear)))

/-- Searches, mutations, merges (R410, R417, R418, R421): a round that is in with a chunk failed ends its query with that chunk's status; one that is
in whole goes on exactly while too few items pass and lists are left; a mutation polls COMMITTED again after POLL_NS; one whose predecessor does not
commit in time, and a merge whose entries do not show in time, end INTERNAL, the merge with no main record written. Weight streams (R315, R438, R440,
R441): the ready stream whose turn it is starts its next chunk and notes when, with the window its tile reads it into enabled where its banks are the
window's, and ignored where they are not, and with that window as the one its source lines pass where a Mule fills it and the row unit empties it; one
whose turn it is not waits; the timeout of a member's FINAL line closes it and hands its stream no answer. -/
def Obligations.SearchesAndStreamsGoOn : Prop :=
  (∀ (q : Queue) (i : Nat) (w : Work) (s : State), s.blk.on = true →
    (∀ (query : Nat) (x : Query),
      s.blk.eng.works.find? (fun w => w.queue == q.toNat && w.index == i && w.opcode == Dop.vseSearch && w.phase == .running) = some w →
      w.queries.find? (·.q == query) = some x → x.round ≠ 0 → x.chunks ≠ [] → x.status = none →
      (∀ c ∈ w.roundChunks x, c.phase = CPhase.done) →
      ∃ (y : Query) (b : Blk), exec (.vseSearchRound q i query) s = .next (s.settled b) ∧ y.q = x.q ∧ y.round = x.round ∧ y.probed = x.probed ∧ y.chunks = [] ∧
        (∀ v ∈ b.eng.works, v.id = w.id → ∀ z ∈ v.queries, z.q = query → z = y) ∧
        (∀ c : Chunk, (w.roundChunks x).find? (·.status != St.ok) = some c → y.status = some c.status ∧ y.best = x.best) ∧
        ((∀ c ∈ w.roundChunks x, c.status = St.ok) → y.best.length ≤ w.sK ∧ x.passing ≤ y.passing ∧
          (y.status = none ↔ y.passing < w.sK ∧ x.probed < w.nprobeMax) ∧ (y.status = some St.ok → y.best.length = w.sK) ∧
          (y.status = none → s.blk.get Reg.VSE_WIDEN_CNT + 1 < 2 ^ 48 → b.get Reg.VSE_WIDEN_CNT = s.blk.get Reg.VSE_WIDEN_CNT + 1)) ∧
        b.store = s.blk.store ∧ b.home = s.blk.home) ∧
    (s.blk.waitingMut q.toNat i = some w → w.out = [] → s.blk.past w.since (ns (s.blk.get Reg.SYNC_CFG_POLL_NS)) = true →
      exec (.vseCommitPoll q i) s = .next (s.settled (s.blk.clear.ask w.id (s.blk.committedAsk w.mIndex (nth 0 w.snap 3))))) ∧
    (s.blk.waitingMut q.toNat i = some w → w.asked (s.blk.commitAsk w.mIndex (nth 0 w.snap 0)).op = false →
      s.blk.past (nth 0 w.snap 2) (us (s.blk.get Reg.VSE_CFG_COMMIT_WAIT_US)) = true →
      ∃ b : Blk, exec (.vseCommitTimeout q i) s = .next (s.settled b) ∧ bitAt (b.get Reg.ERR_STICKY_ERR Pg.vse) 3 = true ∧
        (∀ v ∈ b.eng.works, v.id = w.id → v.phase = Phase.ended ∧ v.status = St.internal ∧ v.detail = some (nth 0 w.snap 0)) ∧
        (s.blk.get Reg.VSE_COMMIT_TIMEOUT_CNT + 1 < 2 ^ 48 → b.get Reg.VSE_COMMIT_TIMEOUT_CNT = s.blk.get Reg.VSE_COMMIT_TIMEOUT_CNT + 1) ∧
        b.store = s.blk.store ∧ b.home = s.blk.home) ∧
    (s.blk.eng.works.find? (fun w => w.queue == q.toNat && w.index == i && w.opcode == Dop.vseMerge && w.phase == .running && w.snap.headD 1 == 0) = some w →
      s.blk.past (nth 0 w.snap 1) (us (s.blk.get Reg.VSE_CFG_COMMIT_WAIT_US)) = true →
      ∃ b : Blk, exec (.mergeWaitTimeout q i) s = .next (s.settled b) ∧ b.fs = s.blk.fs ∧
        (∀ v ∈ b.eng.works, v.id = w.id → v.phase = Phase.ended ∧ v.status = St.internal ∧ v.detail = some 0) ∧ b.store = s.blk.store ∧ b.home = s.blk.home)) ∧
  (∀ (slot : Fin 1024) (s : State), s.blk.on = true →
    (∀ (st : WStream) (win : Option CbwSetup), (s.blk.eng.streams.filter s.blk.streamReady).find? (·.slot == slot.val) = some st →
      (∀ r ∈ s.blk.eng.streams, s.blk.streamReady r = true → (st.slot + 1023 - s.blk.eng.wstTurn) % 1024 ≤ (r.slot + 1023 - s.blk.eng.wstTurn) % 1024) →
      ∃ (b : Blk) (into : Option Nat), exec (.wstChunkStart slot win) s = .next (s.settled b) ∧ b.eng.wstLast = some s.blk.el ∧ b.eng.wstTurn = slot.val ∧
        b.eng.streams = (s.blk.eng.streams.map fun r =>
          if r.work = st.work then { r with next := r.next + 1, last := some s.blk.el, open_ := r.open_ ++ [{ k := r.next, win := into }] } else r) ∧
        b.store = s.blk.store ∧ (win = none → into = none ∧ b.fs = s.blk.fs ∧ b.eng.works = s.blk.eng.works) ∧
        (∀ (x : CbwSetup) (w : Work), win = some x → s.blk.work? st.work = some w → w.tile < 96 → x.fits = true →
          into = (if b.rowWindow w.tile x.w.val then some x.w.val else none) ∧
          ((∀ k ∈ x.banks, s.blk.bankOwner w.tile k = windowOwner x.w.val) →
            b.get Reg.CBW_CFG_EN (cbw w.tile x.w.val) = 1 ∧ b.get Reg.CBW_CFG_BASE (cbw w.tile x.w.val) = x.base.toNat / 64 ∧
            b.get Reg.CBW_CFG_SIZE_LOG2 (cbw w.tile x.w.val) = x.sizeLog2.val ∧ b.get Reg.CBW_CFG_PRODUCER (cbw w.tile x.w.val) = x.producer.toNat ∧
            b.get Reg.CBW_CFG_CONSUMER (cbw w.tile x.w.val) = x.consumer.toNat) ∧
          ((∃ k ∈ x.banks, s.blk.bankOwner w.tile k ≠ windowOwner x.w.val) →
            b.get Reg.CBW_CFG_EN (cbw w.tile x.w.val) = s.blk.get Reg.CBW_CFG_EN (cbw w.tile x.w.val) ∧
            bitAt (b.get Reg.ERR_STICKY_ERR (Pg.tile w.tile)) 0 = true))) ∧
    (∀ (st r : WStream) (win : Option CbwSetup), (s.blk.eng.streams.filter s.blk.streamReady).find? (·.slot == slot.val) = some st →
      r ∈ s.blk.eng.streams → s.blk.streamReady r = true →
      (r.slot + 1023 - s.blk.eng.wstTurn) % 1024 < (st.slot + 1023 - s.blk.eng.wstTurn) % 1024 →
      exec (.wstChunkStart slot win) s = .next (s.settled s.blk.clear)) ∧
    (∀ win : Option CbwSetup, (s.blk.eng.streams.filter s.blk.streamReady).find? (·.slot == slot.val) = none →
      exec (.wstChunkStart slot win) s = .next (s.settled s.blk.clear)) ∧
    (∀ (k m : Nat) (st : WStream) (o : Out), s.blk.eng.streams.find? (·.slot == slot.val) = some st →
      s.blk.orig.out.find? (fun o => o.mc && o.agent == .work st.work (finalOp k m)) = some o →
      s.blk.orig.out.find? (fun p => p.fr.dst.toNat == o.fr.dst.toNat && p.fr.tag.toNat == o.fr.tag.toNat) = some o →
      s.blk.past o.sent s.blk.reqTimeout = true →
      ∃ b : Blk, exec (.wstAckTimeout slot k m) s = .next (s.settled (b.result o.agent unanswered)) ∧ b.orig.out = s.blk.orig.out.erase o ∧
        (o.fr.dst.toNat, o.fr.tag.toNat, s.blk.el) ∈ b.orig.quar ∧ b.fs = s.blk.fs ∧ b.eng = s.blk.eng ∧ b.store = s.blk.store))

/-- BAR4 access and doorbells taken (R450, R452, R455, Table 15.3): a TLP taken waits with its frames to be sent in order of arrival: a read one read
per line touched, a write WR_LINE or WR_PARTIAL per line, the last with FINAL in a FINAL segment, an AtomicOp one atomic; a doorbell write of 4 or 8
aligned bytes carries TAIL in its low 4 bytes, a write of any other form is discarded and counted (that 4 bytes of a doorbell's upper half are such a
write is the model's reading: log entry 59), a read returns zero, and writes of BAR2's upper half fill and mask the function's MSI-X table (its
entries' layout is presumed: log entry 102). The PCIe side (R447, R451, R459 to R461, R572): an FLR resets the function's queues, clears its MSI-X
table and PBA, drops its completions and is counted; loss of the link does so for each function and leaves its configuration at the default and no
function a bus master; unmasking sends a pending vector with its address and data; training sets speed and width; a configuration write sets Bus
Master Enable and the PF's sizes, and until step 5 of a boot meets Configuration Request Retry Status. That an FLR alone is counted, and the loss of
the link is not, is a reading (log entry 55). -/
def Obligations.Bar4AndPcie : Prop :=
  (∀ (func : Fin 65) (off : Nat) (s : State), s.blk.on = true → s.blk.linkUp = true →
    (∀ len : Nat, s.blk.bar4Refused func.val off = false →
      exec (.bar4Read func off len) s = .next (s.settled (s.blk.clear.takeTlp func.val 0 off len
        ((List.range ((off + len + 63) / 64 - off / 64)).map fun i =>
          { opc := s.blk.segRead (segOf func.val off), addr := s.blk.segAddr func.val off / 64 * 64 + 64 * i })))) ∧
    (∀ bytes : List (Option Byte), s.blk.bar4Refused func.val off = false →
      exec (.bar4Write func off bytes) s = .next (s.settled (s.blk.clear.takeTlp func.val 1 off bytes.length
        (withFinal (s.blk.flag Reg.seg_FINAL (segOf func.val off))
          ((cutLines bytes.length off bytes).flatMap fun l => lineFrames (s.blk.segAddr func.val l.1) l.2))))) ∧
    (∀ (op : Fin 3) (x y : BitVec 64) (opc : Nat), s.blk.bar4Refused func.val off = false → opc = nth 0 [Opc.add, Opc.swap, Opc.cas] op.val →
      exec (.bar4Atomic func off op 8 x y) s = .next (s.settled (s.blk.clear.takeTlp func.val 2 off 8
        (withFinal (s.blk.flag Reg.seg_FINAL (segOf func.val off))
          [{ opc, addr := s.blk.segAddr func.val off, arg := 1, data := .ofNat 512 (x.toNat + if opc = Opc.cas then y.toNat <<< 64 else 0) }]))) ∧
      exec (.bar4Atomic func off op 4 x y) s = .next (s.settled (s.blk.clear.takeTlp func.val 2 off 4
        (withFinal (s.blk.flag Reg.seg_FINAL (segOf func.val off))
          [{ opc, addr := s.blk.segAddr func.val off, arg := 0,
             data := .ofNat 512 (x.toNat % 2 ^ 32 + if opc = Opc.cas then (y.toNat % 2 ^ 32) <<< 32 else 0) }])))) ∧
    (∀ (len : Nat) (v : BitVec 64), off < 2 ^ 23 → (len = 4 ∨ len = 8) → off % 8 = 0 →
      exec (.bar2Doorbell func off len true v) s = .next (s.settled (s.blk.clear.takeTlp func.val 3 off len
        [{ opc := 0, addr := off / 8, arg := v.toNat % 2 ^ 32 }]))) ∧
    (∀ (len : Nat) (v : BitVec 64), off < 2 ^ 23 → ¬((len = 4 ∨ len = 8) ∧ off % 8 = 0) →
      ∃ b : Blk, exec (.bar2Doorbell func off len true v) s = .next (s.settled b) ∧
        b = ((s.blk.clear.count Reg.PCIE_DB_DISCARD_CNT).err Pg.pcie 1).emit (.fc func.val) ∧
        b.pcie = s.blk.pcie ∧ (∀ q : Queue, b.get Reg.qctx_TAIL q.toNat = s.blk.get Reg.qctx_TAIL q.toNat)) ∧
    (∀ (len : Nat) (v : BitVec 64), off < 2 ^ 23 →
      exec (.bar2Doorbell func off len false v) s = .next (s.settled ((s.blk.clear.emit (.fc func.val)).emit (.bar2 func.val off len 0)))) ∧
    (∀ (vec part : Nat) (v : BitVec 64) (e : Nat × Nat), vec < vectorsOf func.val → part < 4 → off = 2 ^ 23 + 16 * vec + 4 * part →
      e = Sparse.get (0, 0) s.blk.pcie.msix (func.val * 2048 + vec) →
      ∃ b : Blk, exec (.bar2Doorbell func off 4 true v) s = .next (s.settled b) ∧ b.fs = s.blk.fs ∧
        Sparse.get (0, 0) b.pcie.msix (func.val * 2048 + vec) = (if part = 0 then (e.1 / 2 ^ 32 * 2 ^ 32 + v.toNat % 2 ^ 32, e.2)
          else if part = 1 then (e.1 % 2 ^ 32 + v.toNat % 2 ^ 32 * 2 ^ 32, e.2) else if part = 2 then (e.1, v.toNat % 2 ^ 32) else e) ∧
        (part = 3 → b.pcie.open_.contains (func.val * 2048 + vec) = decide (v.toNat % 2 = 0)))) ∧
  (∀ (s : State),
    (s.blk.served = true →
      ((∀ p ∈ s.blk.eng.monWork, p.1 < 65536) → s.blk.formed →
        (∀ func : Fin 65, ∃ b : Blk, exec (.functionLevelReset func) s = .next (s.settled b) ∧
          b = (s.blk.clear.flr func.val).count Reg.PCIE_FLR_CNT ∧ (∀ k ∈ b.pcie.open_ ++ b.pcie.pba ++ b.pcie.msix.map (·.1), k / 2048 ≠ func.val) ∧
          (∀ t ∈ b.pcie.tlps, t.func = func.val → t.dropped = true) ∧
          (∀ q : Queue, s.blk.get Reg.qctx_FUNC q.toNat = func.val → b.get Reg.qctx_STATE q.toNat = Qst.off) ∧
          (∀ q : Queue, s.blk.get Reg.qctx_FUNC q.toNat ≠ func.val → b.get Reg.qctx_STATE q.toNat = s.blk.get Reg.qctx_STATE q.toNat)) ∧
        (∃ b : Blk, exec .pcieLinkDown s = .next (s.settled b) ∧ b.linkUp = false ∧ b.get Reg.PCIE_LINK_WIDTH = 0 ∧ b.pcie.master = [] ∧
          b.pcie.mps = 128 ∧ b.pcie.mrrs = 512 ∧ bitAt (b.get Reg.ERR_STICKY_ERR Pg.pcie) 4 = true ∧
          (∀ k ∈ b.pcie.open_ ++ b.pcie.pba ++ b.pcie.msix.map (·.1), 65 ≤ k / 2048) ∧ (∀ t ∈ b.pcie.tlps, t.func ≤ 64 → t.dropped = true) ∧
          (∀ q : Queue, s.blk.get Reg.qctx_FUNC q.toNat ≤ 64 → b.get Reg.qctx_STATE q.toNat = Qst.off ∧ ∀ x ∈ b.eng.bound, x.queue ≠ q.toNat))) ∧
      (∀ (func : Fin 65) (vec : Fin 2048) (e : Nat × Nat), s.blk.linkUp = true → vec.val < vectorsOf func.val →
        s.blk.pcie.pba.contains (func.val * 2048 + vec.val) = true → e = Sparse.get (0, 0) s.blk.pcie.msix (func.val * 2048 + vec.val) →
        ∃ b : Blk, exec (.msixUnmask func vec) s = .next (s.settled b) ∧ b.emits = [.msix func.val vec.val e.1 e.2] ∧
          b.pcie.pba = s.blk.pcie.pba.filter (· ≠ func.val * 2048 + vec.val) ∧ b.pcie.open_.contains (func.val * 2048 + vec.val) = true ∧
          b.fs = s.blk.fs) ∧
      (∀ (func : Fin 65) (c : PcieCfg), s.blk.linkUp = true →
        ∃ b : Blk, exec (.pcieConfigWrite func c) s = .next (s.settled b) ∧ (b.pcie.master.contains func.val = c.bme) ∧ b.fs = s.blk.fs ∧
          (∀ g : Nat, g ≠ func.val → b.pcie.master.contains g = s.blk.pcie.master.contains g) ∧
          (func.val = 0 → [128, 256, 512].contains c.mps = true → b.pcie.mps = c.mps) ∧
          (func.val = 0 → [128, 256, 512, 1024, 2048, 4096].contains c.mrrs = true → b.pcie.mrrs = c.mrrs) ∧
          (func.val ≠ 0 → b.pcie.mps = s.blk.pcie.mps ∧ b.pcie.mrrs = s.blk.pcie.mrrs))) ∧
    (s.blk.pcieOn = true → ∀ (speed : Fin 7) (width : Nat), 1 ≤ speed.val → [1, 4, 8, 16].contains width = true →
      ∃ b : Blk, exec (.pcieLinkTrain speed width) s = .next (s.settled b) ∧ b.get Reg.PCIE_LINK_SPEED = speed.val ∧ b.get Reg.PCIE_LINK_WIDTH = width ∧
        b.pcie = s.blk.pcie) ∧
    (∀ (func : Fin 65) (c : PcieCfg) (k : Nat), s.blk.aon.mode = .boot k → 2 ≤ k → k < 6 → s.blk.linkUp = true →
      exec (.pcieConfigWrite func c) s = .next (s.settled (s.blk.clear.emit (.crs func.val)))))

/-- BAR4 access refused (R453): with NODE below 0x0040, the function's BAR4_EN 0 or the segment's V 0, a read and an AtomicOp are completed with
Unsupported Request, a write is discarded, and each is logged with status UNMAPPED; no frame is sent, and its flow-control credits go back. What
follows by itself comes with it (`settled`: log entry 27, the model's choice). -/
def Obligations.Bar4Refused : Prop :=
  ∀ (func : Fin 65) (off : Nat) (s : State), s.blk.on = true → s.blk.linkUp = true →
    (s.blk.get Reg.PCIE_HOST_NODE < 0x40 ∨ s.blk.get Reg.func_BAR4_EN func.val = 0 ∨ s.blk.get Reg.seg_V (segOf func.val off) = 0) →
    ∃ b : Blk, b = s.blk.clear.bar4Err func.val off St.unmapped ∧ b.emits = [] ∧ b.pcie = s.blk.pcie ∧ b.orig = s.blk.orig ∧ b.sw = s.blk.sw ∧
      bitAt (b.get Reg.ERR_STICKY_ERR Pg.pcie) 0 = true ∧
      (s.blk.get Reg.PCIE_BAR4_ERR_CNT < 2 ^ 48 - 1 → b.get Reg.PCIE_BAR4_ERR_CNT = s.blk.get Reg.PCIE_BAR4_ERR_CNT + 1) ∧
      (bitAt (s.blk.get Reg.ERR_STICKY_ERR Pg.pcie) 0 = false → b.get Reg.PCIE_BAR4_ERR_FIRST_FUNC = func.val ∧
        b.get Reg.PCIE_BAR4_ERR_FIRST_STATUS = St.unmapped ∧ b.get Reg.PCIE_BAR4_ERR_FIRST_OFFSET = off % 2 ^ 36) ∧
      (∃ c : Blk, c.emits = [.fc func.val, .cpl func.val s.blk.pcie.nextTlp Cpl.ur []] ∧ c.fs = b.fs ∧ c.pcie.tlps = s.blk.pcie.tlps ∧ c.orig = b.orig ∧
        (∀ len : Nat, exec (.bar4Read func off len) s = .next (s.settled c)) ∧
        (∀ (op : Fin 3) (size : Nat) (x y : BitVec 64), exec (.bar4Atomic func off op size x y) s = .next (s.settled c))) ∧
      (∀ bytes : List (Option Byte), exec (.bar4Write func off bytes) s = .next (s.settled (b.emit (.fc func.val))))

/-- Rails and the reference clock (R582 to R585): requests are released from IO down, each once the power-good above has fallen; power-up raises HBM,
CORE and IO in that order, each after the group before is good, and ends with the release 2 ms after PG_IO; a power-good 50 ms late drops every
request, and after 1 s power-up starts again; a rail loss puts the part in P4 with every request low; loss of VAON leaves it dark, and its return
begins an L0 reset with the counter at zero; the counter holds while TCXO_IN is silent and goes on from that value, the time state `free`. VCORE, the
cap and the sensors (R495, R496, R550, R589): a write of PWR_VCORE commands the first step, up or down, of at most STEP_MV toward TARGET_MV, where
none is under way; a settled step is reported and the next follows until TARGET_MV is reached; a command unanswered for 1 ms leaves VCORE where it was
and sets AVS_FAIL; power above the cap lowers TARGET_MV by STEP_MV, not below VMIN_MV; reaching WARN_C is counted. -/
def Obligations.RailsAndSensors : Prop :=
  (∀ (s : State),
    (s.blk.aon.mode = .dark → ∃ b : Blk, exec .vaonPowerOn s = .next (s.settled b) ∧ b.t = 0 ∧ b.aon.mode = .rails 0 ∧ b.aon.reqs = [0] ∧ b.fs = [] ∧
      b.aon.nor = s.blk.aon.nor ∧ b.get Reg.GLB_LAST_RESET_LEVEL = 0) ∧
    (∀ b : Blk, b.aon.reqs = [0, 1, 2] → b.aon.goods = [0, 1, 2] →
      b.releaseRails.aon.reqs = [0, 1] ∧ b.releaseRails.aon.fall = some (2, 0, b.el) ∧ b.releaseRails.store = b.store) ∧
    (∀ t : Nat, s.blk.aon.fall = some (2, 0, t) → s.blk.aon.reqs = [0, 1] → s.blk.aon.goods = [0, 1] →
      ∃ b : Blk, exec (.railLoss 2) s = .next (s.settled b) ∧ b.aon.reqs = [0] ∧ b.aon.fall = some (1, 0, s.blk.el) ∧ b.aon.mode = s.blk.aon.mode) ∧
    (∀ g : Fin 3, s.blk.aon.mode = .rails g.val →
      exec (.powerGoodRise g) s = .next (s.settled ((s.blk.clear.setAon fun a => { a with goods := a.goods ++ [g.val] }).powerUp))) ∧
    (∀ b : Blk, (b.aon.reqs = [] → b.powerUp.aon.mode = .rails 0 ∧ b.powerUp.aon.reqs = [0]) ∧
      (b.aon.reqs = [0] → b.powerUp.aon.mode = .rails 1 ∧ b.powerUp.aon.reqs = [0, 1]) ∧
      (b.aon.reqs = [0, 1] → b.powerUp.aon.mode = .rails 2 ∧ b.powerUp.aon.reqs = [0, 1, 2]) ∧
      (b.aon.reqs = [0, 1, 2] → b.aon.wake = 0 → b.powerUp.aon.mode = .reset (b.get Reg.GLB_LAST_RESET_LEVEL) ∧ b.powerUp.aon.ready = b.el + ms 2)) ∧
    (∀ g : Nat, s.blk.aon.mode = .rails g → s.blk.aon.wake ≠ 3 → s.blk.past s.blk.aon.since (ms 50) = true →
      exec .powerGoodTimeout s = .next (s.settled (s.blk.clear.releaseRails.enter .retry))) ∧
    (s.blk.aon.mode = .retry → s.blk.past s.blk.aon.since (secs 1) = true →
      exec .powerUpRetry s = .next (s.settled s.blk.clear.powerUp)) ∧
    (∀ g : Fin 3, s.blk.aon.mode = .run → s.blk.aon.fall = none → s.blk.aon.goods.contains g.val = true →
      ∃ b : Blk, exec (.railLoss g) s = .next (s.plain b) ∧ b.aon.mode = .p4 ∧ b.aon.reqs = [] ∧ b.t = s.blk.t ∧ b.store.lines = [] ∧
        b.get Reg.WIN_RESTART_EPOCH_RESTART_EPOCH = 0) ∧
    (∃ b : Blk, exec .vaonLoss s = .next (s.plain b) ∧ b.aon.mode = .dark ∧ b.fs = [] ∧ b.aon.reqs = [] ∧ b.aon.nor = s.blk.aon.nor) ∧
    (∀ g : Fin 3, s.blk.aon.fall = none → s.blk.aon.goods.contains g.val = true → (∃ k, s.blk.aon.mode = .rails k) → s.blk.aon.wake ≠ 3 →
      ∃ b : Blk, exec (.railLoss g) s = .next (s.settled b) ∧ b.aon.mode = .rails 0 ∧ b.aon.reqs = [0] ∧ b.aon.goods = []) ∧
    (s.blk.held = false → s.blk.aon.mode = .run →
      ∃ b : Blk, exec .tcxoLoss s = .next (s.plain b) ∧ b.held = true ∧ b.t = s.blk.t ∧ b.el = s.blk.el ∧ b.aon.mode = .p4) ∧
    (s.blk.held = true → s.blk.get Reg.TIME_STATUS_STATE ≠ 2 → exec .tcxoReturn s = .next (s.settled { s.blk.clear.put Reg.TIME_STATUS_STATE 0 with held := false })) ∧
    (s.blk.held = true → exec .tcxoTick s = .next (s.settled s.blk.clear))) ∧
  (∀ (s : State),
    (∀ (target vmin : BitVec 10) (st : BitVec 5), s.blk.opens Pg.pwr = true → 600 ≤ target.toNat → target.toNat ≤ 850 → 5 ≤ st.toNat → st.toNat ≤ 25 →
      600 ≤ vmin.toNat → vmin.toNat ≤ target.toNat → s.blk.aon.avs = none → s.blk.get Reg.PWR_VCORE_STATUS_VCORE_MV ≠ target.toNat →
      ∃ b : Blk, exec (.vcoreTargetWrite target st vmin) s = .next (s.settled b) ∧ b.get Reg.PWR_VCORE_TARGET_MV = target.toNat ∧
        b.get Reg.PWR_VCORE_STEP_MV = st.toNat ∧ b.get Reg.PWR_VCORE_VMIN_MV = vmin.toNat ∧
        b.get Reg.PWR_VCORE_STATUS_VCORE_MV = s.blk.get Reg.PWR_VCORE_STATUS_VCORE_MV ∧
        (s.blk.get Reg.PWR_VCORE_STATUS_VCORE_MV < target.toNat →
          b.emits = [.avs (Nat.min target.toNat (s.blk.get Reg.PWR_VCORE_STATUS_VCORE_MV + st.toNat))]) ∧
        (target.toNat < s.blk.get Reg.PWR_VCORE_STATUS_VCORE_MV →
          b.emits = [.avs (Nat.max target.toNat (s.blk.get Reg.PWR_VCORE_STATUS_VCORE_MV - st.toNat))])) ∧
    (∀ (mv at_ : Nat), s.blk.served = true → s.blk.aon.avs = some (mv, at_) → mv < 1024 →
      (mv < s.blk.get Reg.PWR_VCORE_TARGET_MV →
        ∃ b : Blk, exec (.vcoreStepSettled []) s = .next (s.settled b) ∧ b.get Reg.PWR_VCORE_STATUS_VCORE_MV = mv ∧
          b.aon.avs = some (Nat.min (s.blk.get Reg.PWR_VCORE_TARGET_MV) (mv + s.blk.get Reg.PWR_VCORE_STEP_MV), s.blk.el) ∧ b.aon.avsFrom = mv ∧
          b.emits = [.avs (Nat.min (s.blk.get Reg.PWR_VCORE_TARGET_MV) (mv + s.blk.get Reg.PWR_VCORE_STEP_MV))]) ∧
      (s.blk.get Reg.PWR_VCORE_TARGET_MV < mv →
        ∃ b : Blk, exec (.vcoreStepSettled []) s = .next (s.settled b) ∧ b.get Reg.PWR_VCORE_STATUS_VCORE_MV = mv ∧
          b.emits = [.avs (Nat.max (s.blk.get Reg.PWR_VCORE_TARGET_MV) (mv - s.blk.get Reg.PWR_VCORE_STEP_MV))])) ∧
    (∀ (mv at_ : Nat), s.blk.served = true → s.blk.aon.avs = some (mv, at_) → mv = s.blk.get Reg.PWR_VCORE_TARGET_MV →
      ∃ b : Blk, exec (.vcoreStepSettled []) s = .next (s.settled b) ∧ b.get Reg.PWR_VCORE_STATUS_VCORE_MV = mv ∧ b.aon.avs = none ∧ b.emits = []) ∧
    (∀ (mv at_ : Nat), s.blk.served = true → s.blk.aon.avs = some (mv, at_) → s.blk.past at_ (ms 1) = true →
      ∃ b : Blk, exec .avsbusTimeout s = .next (s.settled b) ∧ b.aon.avs = none ∧ bitAt (b.get Reg.ERR_STICKY_ERR Pg.pwr) 2 = true ∧
        b.get Reg.PWR_VCORE_STATUS_VCORE_MV = s.blk.get Reg.PWR_VCORE_STATUS_VCORE_MV) ∧
    (∀ amps : BitVec 12, s.blk.kept = true → 0 < s.blk.get Reg.PWR_CAP_CORE_CAP_W → s.blk.past s.blk.aon.capAt (us 100) = true →
      s.blk.get Reg.PWR_CAP_CORE_CAP_W * 1000 < s.blk.get Reg.PWR_VCORE_STATUS_VCORE_MV * amps.toNat →
      s.blk.get Reg.PWR_VCORE_VMIN_MV < s.blk.get Reg.PWR_VCORE_TARGET_MV →
      ∃ b : Blk, exec (.powerCapSample amps) s = .next (s.settled b) ∧
        b.get Reg.PWR_VCORE_TARGET_MV = Nat.max (s.blk.get Reg.PWR_VCORE_VMIN_MV) (s.blk.get Reg.PWR_VCORE_TARGET_MV - s.blk.get Reg.PWR_VCORE_STEP_MV) ∧
        b.get Reg.PWR_VCORE_STATUS_CURRENT_A = amps.toNat ∧
        (s.blk.get Reg.PWR_CAP_ACT_CNT < 2 ^ 48 - 1 → b.get Reg.PWR_CAP_ACT_CNT = s.blk.get Reg.PWR_CAP_ACT_CNT + 1)) ∧
    (∀ tj : Int, s.blk.served = true → toSigned 8 (s.blk.get Reg.PWR_THERM_TJ_C) < (s.blk.get Reg.PWR_THERM_WARN_C : Int) →
      (s.blk.get Reg.PWR_THERM_WARN_C : Int) ≤ tj → tj ≤ 127 →
      ∃ b : Blk, exec (.thermWarn tj) s = .next (s.settled b) ∧ b.get Reg.PWR_THERM_TJ_C = tj.toNat ∧ bitAt (b.get Reg.ERR_STICKY_ERR Pg.pwr) 0 = true ∧
        (s.blk.get Reg.PWR_WARN_CNT < 2 ^ 48 - 1 → b.get Reg.PWR_WARN_CNT = s.blk.get Reg.PWR_WARN_CNT + 1)))

/-- The time counter (R523, R524, R530): a period of TCXO_IN advances it by 40 ns plus ADJ × 2^-32 ns and the elapsed time by as much; PPS_OUT, where
enabled, rises as it comes to a whole second and falls 100 ms later; `step_to` sets it to TIME_CMD_ARG, and with an argument below TIME_NS it finishes
`bad_range` and changes nothing. -/
def Obligations.TimeCounterAdvances : Prop :=
  ∀ (s : State),
    (s.blk.held = false → s.blk.aon.mode ≠ .dark →
      ∃ b : Blk, exec .tcxoTick s = .next (s.settled b) ∧ b.fs = s.blk.fs ∧ b.home = s.blk.home ∧ b.eng = s.blk.eng ∧
        (s.blk.aon.ppsRise = none → s.blk.aon.fall = none → s.blk.get Reg.TIME_CTRL_PPS_OUT_EN = 0 → b.aon = s.blk.aon) ∧
        (s.blk.get Reg.TIME_CTRL_PPS_OUT_EN = 1 →
          (wholeSecond s.blk.t < wholeSecond b.t → .pps ∈ b.emits ∧ b.ppsOut = true) ∧
          (∀ r : Nat, wholeSecond b.t ≤ wholeSecond s.blk.t → s.blk.aon.ppsRise = some r → b.ppsOut = !b.past r (ms 100) ∧
            (b.past r (ms 100) = true → .ppsFall ∈ b.emits))) ∧
        (b.el : Int) = s.blk.el + 40 * 2 ^ 32 + toSigned 32 (s.blk.get Reg.TIME_ADJ_ADJ) ∧
        (s.blk.t + 41 * 2 ^ 32 < 2 ^ 96 → (b.t : Int) = s.blk.t + 40 * 2 ^ 32 + toSigned 32 (s.blk.get Reg.TIME_ADJ_ADJ))) ∧
    (s.blk.opens Pg.time = true → s.blk.get Reg.TIME_CMD_STATUS_DONE = 1 → s.blk.t < 2 ^ 96 → s.blk.now ≤ s.blk.get Reg.TIME_CMD_ARG_NS →
      ∃ b : Blk, exec .timeStepTo s = .next (s.settled b) ∧ b.now = s.blk.get Reg.TIME_CMD_ARG_NS ∧ s.blk.t ≤ b.t ∧ b.el = s.blk.el ∧
        b.get Reg.TIME_CMD_STATUS_DONE = 1 ∧ b.get Reg.TIME_CMD_STATUS_CODE = ok ∧
        b.aon.mode = s.blk.aon.mode ∧ b.aon.nor = s.blk.aon.nor) ∧
    (s.blk.opens Pg.time = true → s.blk.get Reg.TIME_CMD_STATUS_DONE = 1 → s.blk.get Reg.TIME_CMD_ARG_NS < s.blk.now →
      ∃ b : Blk, exec .timeStepTo s = .next (s.settled b) ∧ b.t = s.blk.t ∧ b.el = s.blk.el ∧ b.get Reg.TIME_CMD_STATUS_CODE = badRange ∧ b.aon = s.blk.aon)

/-- No command of the time unit sets the counter back (R524), whatever the master says. The limit of ADJ (R524): no rate the servo sets exceeds
SLEW_PPM × 171,799, at any offset. -/
def Obligations.TimeAndRateBounds : Prop :=
  (∀ (b : Blk), b.t + 2 ^ 43 < 2 ^ 96 → b.t ≤ b.tick.t ∧ b.t ≤ b.timeStepTo.t ∧ (∀ m : PtpSync, b.t ≤ (b.ptpSync m).t) ∧ b.t ≤ b.ppsEdge.t ∧
    (∀ n, b.t ≤ (b.stepTo n).t)) ∧
  (∀ (b : Blk) (a : Int), (toSigned 32 ((b.setAdj a).get Reg.TIME_ADJ_ADJ)).natAbs ≤ b.get Reg.TIME_SERVO_SLEW_PPM * 171799)

/-- Time states (R525, R528, R531, Table 18.2): a selected master takes `free` to `acquiring`, and another takes its place only where its data set is
no worse (the order of data sets is presumed: log entry 100); a message of another domain or transport is let pass; before the first lock a master
ahead by more than STEP_THRESH is stepped to, and one behind is slewed at the limit; loss of the master takes `locked` to `holdover`, HOLDOVER_S there
to `free`; an edge on PPS_IN is timestamped and counted, and none for 1.5 s sets PPS_MISS. The announce interval before the first Announce is presumed
(log entry 39). -/
def Obligations.TimeStates : Prop :=
  ∀ (s : State), s.blk.served = true →
    (∀ m : Announce, s.blk.ptpTakes m.domain.toNat m.udp = true → 0 < m.interval →
      (s.blk.get Reg.TIME_STATUS_STATE = Tm.free →
        ∃ b : Blk, exec (.ptpAnnounce m) s = .next (s.settled b) ∧ b.get Reg.TIME_STATUS_STATE = Tm.acquiring ∧
          b.get Reg.TIME_MASTER_ID = m.id.toNat ∧ b.t = s.blk.t) ∧
      (s.blk.masterless = false → m.rank ≤ s.blk.aon.rank →
        ∃ b : Blk, exec (.ptpAnnounce m) s = .next (s.settled b) ∧ b.get Reg.TIME_STATUS_STATE = s.blk.get Reg.TIME_STATUS_STATE ∧
          b.get Reg.TIME_MASTER_ID = m.id.toNat ∧ b.t = s.blk.t) ∧
      (s.blk.masterless = false → s.blk.aon.rank < m.rank → m.id.toNat ≠ s.blk.get Reg.TIME_MASTER_ID →
        exec (.ptpAnnounce m) s = .next (s.settled s.blk.clear))) ∧
    (∀ (m : Announce) (y : PtpSync), s.blk.ptpTakes m.domain.toNat m.udp = false → s.blk.ptpTakes y.domain.toNat y.udp = false →
      exec (.ptpAnnounce m) s = .next (s.settled s.blk.clear) ∧ exec (.ptpSync y) s = .next (s.settled s.blk.clear)) ∧
    (∀ (m : PtpSync) (off : Int), s.blk.ptpTakes m.domain.toNat m.udp = true → m.id.toNat = s.blk.get Reg.TIME_MASTER_ID →
      m.p2p = s.blk.flag Reg.TIME_CTRL_DELAY → off = s.blk.syncOffset m → s.blk.get Reg.TIME_STATUS_STATE = Tm.acquiring → s.blk.ppsPhase = false →
      s.blk.get Reg.TIME_LOCK_LOCK_NS < s.blk.get Reg.TIME_STEP_THRESH_NS →
      (s.blk.aon.lockedOnce = false → (s.blk.get Reg.TIME_STEP_THRESH_NS : Int) < off → s.blk.t < 2 ^ 96 → s.blk.now + off.toNat < 2 ^ 64 →
        ∃ b : Blk, exec (.ptpSync m) s = .next (s.settled b) ∧ b.now = s.blk.now + off.toNat ∧ b.el = s.blk.el ∧
          b.get Reg.TIME_STATUS_STEPPED = 1 ∧ b.get Reg.TIME_STATUS_STATE = Tm.acquiring) ∧
      (s.blk.get Reg.TIME_SERVO_SLEW_PPM ≤ 1000 → off < -(s.blk.get Reg.TIME_STEP_THRESH_NS : Int) →
        ∃ b : Blk, exec (.ptpSync m) s = .next (s.settled b) ∧ b.t = s.blk.t ∧ bitAt (b.get Reg.ERR_STICKY_ERR Pg.time) 2 = true ∧
          toSigned 32 (b.get Reg.TIME_ADJ_ADJ) = -(s.blk.slewLimit : Int))) ∧
    (s.blk.past s.blk.aon.syncAt (ns (3 * s.blk.aon.announce)) = true → s.blk.get Reg.TIME_STATUS_STATE = Tm.locked →
      ∃ b : Blk, exec .masterLoss s = .next (s.settled b) ∧ b.get Reg.TIME_STATUS_STATE = Tm.holdover ∧ b.t = s.blk.t ∧
        bitAt (b.get Reg.ERR_STICKY_ERR Pg.time) 0 = true) ∧
    (s.blk.past s.blk.aon.holdAt (secs (s.blk.get Reg.TIME_SERVO_HOLDOVER_S)) = true → s.blk.get Reg.TIME_STATUS_STATE = Tm.holdover →
      ∃ b : Blk, exec .holdoverExpire s = .next (s.settled b) ∧ b.get Reg.TIME_STATUS_STATE = Tm.free ∧ b.t = s.blk.t ∧
        bitAt (b.get Reg.ERR_STICKY_ERR Pg.time) 1 = true) ∧
    (s.blk.get Reg.TIME_CTRL_PPS_IN_EN = 0 →
      ∃ b : Blk, exec .ppsInEdge s = .next (s.settled b) ∧ b.get Reg.TIME_PPS_IN_TS_NS = s.blk.now ∧ b.t = s.blk.t ∧
        b.get Reg.TIME_STATUS_STATE = s.blk.get Reg.TIME_STATUS_STATE ∧
        (s.blk.get Reg.TIME_PPS_IN_CNT < 2 ^ 48 - 1 → b.get Reg.TIME_PPS_IN_CNT = s.blk.get Reg.TIME_PPS_IN_CNT + 1)) ∧
    (s.blk.ppsPhase = true → s.blk.past s.blk.aon.ppsAt (ms 1500) = true →
      ∃ b : Blk, exec .ppsInMiss s = .next (s.settled b) ∧ bitAt (b.get Reg.ERR_STICKY_ERR Pg.time) 3 = true ∧ b.ppsPhase = false ∧ b.t = s.blk.t)

/-- The level a reset is taken at (R470): the deepest of the fuse field of its source, the software field and the level asked for, where a fuse field
of 0b11 acts as L0. The PERST_N pin of a running part takes it so: at L1 GLB_LAST_RESET, the counter and COUNT of failed starts stay, at L0 nothing of
the register file does. -/
def Obligations.ResetLevel : Prop :=
  (∀ (b : Blk) (z : Fuse) (source : Nat) (req : Option Nat),
    let fuse := z.map.toNat / 2 ^ (2 * (source - 1)) % 4
    let sw := b.get Reg.GLB_RESET_MAP_SW_MAP / 2 ^ (2 * (source - 1)) % 4
    let l := b.levelOf z source req
    (source = 0 → l = 0) ∧
    (1 ≤ source → fuse ≤ 2 → sw ≤ 2 → l ≤ fuse ∧ l ≤ sw ∧ (∀ r, req = some r → r ≤ 2 → l ≤ r) ∧
      (l = fuse ∨ l = sw ∨ req = some l ∨ (∃ r, req = some r ∧ 2 < r))) ∧
    (1 ≤ source → fuse = 3 → l = 0)) ∧
  (∀ (s : State) (l : Nat), s.blk.aon.mode = .run → s.blk.level ≠ 3 → s.blk.levelOf s.fuse 1 none = l → l ≤ 1 →
    ∃ b : Blk, exec .perstAssert s = .next (s.plain b) ∧ b.aon.mode = .reset l ∧ b.get Reg.WIN_RESTART_EPOCH_RESTART_EPOCH = 0 ∧
      b.get Reg.GLB_RESET_MAP_SW_MAP = 0xAAAA ∧ b.store.lines = [] ∧ b.home = {} ∧ b.eng = {} ∧
      (l = 1 → b.get Reg.GLB_LAST_RESET_SOURCE = 1 ∧ b.get Reg.GLB_LAST_RESET_LEVEL = 1 ∧ b.get Reg.GLB_LAST_RESET_TIME_TIME = s.blk.now ∧
        b.t = s.blk.t ∧ b.get Reg.GLB_FAILED_START_COUNT = s.blk.get Reg.GLB_FAILED_START_COUNT) ∧
      (l = 0 → b.t = 0 ∧ b.fs = []))

/-- Sources of resets (R470, R473, R475, R476, R483): the pins, the watchdog once its time has run, a fatal error held too long, a register command
with its key, and the debug one at D2, raise theirs; a trip releases every rail and holds the part, until every sensor reads below 95 °C and power-up
begins; a wrong key finishes `denied`; `tenant` resets queues of a tenant alone. An L2 reset keeps and clears (R465 to R467, Table 16.2): windows,
translation, routes and multicast, key slots, placement, pins, protection and PCIE tables, the member table, sticky bits, the SYNC debug log,
PAGE_LOCK, retired tiles, time and memory stay; the directory, the predictor, queue contexts, the EMB, VSE and WST tables, monitors, engine work,
frames and requests are gone, SEQ numbers stay, links are down and their lasers dark; it ends once firmware has brought the part back. That a trip is
taken at L1 at least is a reading (log entry 51). -/
def Obligations.ResetSourcesAndL2 : Prop :=
  (∀ (s : State),
    exec .sysRstAssert s = .next (s.settled (s.blk.clear.reset s.fuse 2 none)) ∧
    (∀ t : Nat, s.blk.aon.wdog = some t → s.blk.past t s.blk.wdogSpan = true → s.blk.aon.mode = .run →
      exec .watchdogExpire s = .next (s.settled (s.blk.clear.reset s.fuse 3 none))) ∧
    (s.blk.get Reg.GLB_ESCALATE_EN = 1 → s.blk.aon.fatal.any (fun e => s.blk.past e.2 (ms (s.blk.get Reg.GLB_ESCALATE_HOLD_MS))) = true →
      exec .fatalEscalate s = .next (s.settled (s.blk.clear.reset s.fuse 5 none))) ∧
    (∀ tj : Int, 115 ≤ tj → tj ≤ 127 → s.blk.aon.mode = .run → s.blk.aon.trip = false →
      ∃ b : Blk, exec (.thermalTrip tj) s = .next (s.plain b) ∧ b.aon.mode = .tripped ∧ b.aon.trip = true ∧
        (s.blk.aon.reqs = [0, 1, 2] → s.blk.aon.goods = [0, 1, 2] → b.aon.reqs = [0, 1] ∧ b.aon.fall = some (2, 0, s.blk.el)) ∧
        (s.blk.aon.goods = [] → b.aon.reqs.all (fun g => decide (2 < g)) = true) ∧
        b.get Reg.PWR_THERM_TJ_C = tj.toNat ∧ b.store.lines = []) ∧
    (∀ tj : Int, tj < 95 → s.blk.aon.trip = true →
      exec (.thermalRelease tj) s = .next (s.settled (((s.blk.clear.setAon fun a => { a with trip := false }).setTj tj).powerUp))) ∧
    (∀ (key : Byte) (level : Fin 4), s.blk.opens Pg.glb = true → s.blk.get Reg.GLB_RST_STATUS_DONE = 1 → key = 0x5A →
      exec (.glbRstSystem .bar0 key level) s =
        .next (s.settled (((s.blk.clear.cmdStart rstCmd).cmdEnd rstCmd ok).reset s.fuse 6 (some level.val)))) ∧
    (∀ (key : Byte) (level : Fin 4), s.blk.opens Pg.glb = true → s.blk.get Reg.GLB_RST_STATUS_DONE = 1 → key ≠ 0x5A →
      exec (.glbRstSystem .bar0 key level) s = .next (s.settled ((s.blk.clear.cmdStart rstCmd).cmdEnd rstCmd denied))) ∧
    (∀ (key : Byte) (tenant : Tenant), s.blk.opens Pg.glb = true → s.blk.get Reg.GLB_RST_STATUS_DONE = 1 → key = 0x5A →
      exec (.glbRstTenant .bar0 key tenant) s = .next (s.settled ((s.blk.clear.cmdStart rstCmd).resetTenant tenant.toNat))) ∧
    (∀ (op : Fin 16) (key : Byte) (level : Fin 4) (tenant : Tenant), s.blk.opens Pg.dbg = true → s.blk.get Reg.DBG_STATE_LEVEL ≠ 2 →
      exec (.dbgRstCmd .bar0 op key level tenant) s = .next (s.settled s.blk.clear)) ∧
    (∀ (level : Fin 4) (tenant : Tenant), s.blk.opens Pg.dbg = true → s.blk.get Reg.DBG_STATE_LEVEL = 2 → s.blk.get Reg.GLB_RST_STATUS_DONE = 1 →
      ∃ b : Blk, exec (.dbgRstCmd .bar0 1 0x5A level tenant) s = .next (s.settled (b.reset s.fuse 8 (some level.val))) ∧
        b.get Reg.GLB_RST_STATUS_CODE = ok ∧ b.aon.logNext = (s.blk.aon.logNext + 1) % 32)) ∧
  ((∀ (b : Blk), b.prot = none → b.tier.fetches = [] → b.tier.downs = [] → b.tier.job = none →
    b.clearL2.home.reqs = [] ∧ b.clearL2.home.inbox = [] ∧ b.clearL2.eng = {} ∧ b.clearL2.orig.out = [] ∧ b.clearL2.orig.seqs = b.orig.seqs ∧
    b.clearL2.sw.queue = [] ∧ b.clearL2.store = b.store ∧ b.clearL2.t = b.t ∧ b.clearL2.aon.nor = b.aon.nor ∧
    (∀ i : Fin 4096, b.clearL2.get Reg.window_STATE i.val = b.get Reg.window_STATE i.val ∧ b.clearL2.get Reg.slot_LOADED i.val = b.get Reg.slot_LOADED i.val) ∧
    (∀ i : Fin 65536, b.clearL2.get Reg.route_V i.val = b.get Reg.route_V i.val) ∧
    (∀ q : Queue, b.clearL2.get Reg.qctx_STATE q.toNat = 0) ∧ (∀ i : Fin 262144, b.clearL2.get Reg.dir_V i.val = 0) ∧
    b.clearL2.get Reg.WIN_RESTART_EPOCH_RESTART_EPOCH = b.get Reg.WIN_RESTART_EPOCH_RESTART_EPOCH ∧
    b.clearL2.get Reg.GLB_RESET_MAP_SW_MAP = b.get Reg.GLB_RESET_MAP_SW_MAP ∧
    (∀ sp ∈ [Space.t_xlt_entry, .t_tenant_ctx, .t_route, .t_mcast, .t_place, .t_pin, .t_region, .t_func, .t_seg, .t_slot, .t_member, .t_dbg_log, .hbm],
      b.clearL2.keeps b sp) ∧
    (∀ sp ∈ [Space.t_dir, .t_pred, .t_qctx, .t_qmark, .t_table, .t_index, .t_stream, .t_members, .t_monitor], ∀ (f : Fld) (i : Nat), f.sp = sp →
      f.key i / 2 ^ 60 = sp.code → b.clearL2.get f i = f.rst % 2 ^ f.w) ∧
    (∀ p : Nat, p < 2 ^ 44 → b.clearL2.get Reg.ERR_STICKY_ERR p = b.get Reg.ERR_STICKY_ERR p ∧
      b.clearL2.get Reg.PAGE_LOCK_LOCK p = b.get Reg.PAGE_LOCK_LOCK p) ∧
    (∀ t : TileId, b.get Reg.TILE_STATE_STATE t.val = Ts.retired → b.clearL2.get Reg.TILE_STATE_STATE t.val = Ts.retired) ∧
    (∀ p : PortId, (b.clearL2.port p.val).lit = false ∧
      b.clearL2.get Reg.FQP_STATE_LINK_STATE p.val = if b.get Reg.FQP_CTRL_ENABLE p.val = 1 then Ls.down else Ls.disabled) ∧
    bitAt (b.clearL2.get Reg.GLB_PIN_EN_GROUPS) 5 = false) ∧
  (∀ (o : BootIn) (s : State), s.blk.aon.mode = .l2 →
    ∃ b : Blk, exec (.resetRelease o) s = .next (s.settled b) ∧ b = s.blk.clear.l2Return o.badTiles ∧ b.aon.mode = .run))

/-- GLB_RESET_MAP_SW (R471): a write changes a field only where the new value encodes a deeper level than the field holds, and 0b11 never does; the
other registers and all else stay. -/
def Obligations.ResetMapOnlyDeepens : Prop :=
  ∀ (v : BitVec 16) (s : State), s.blk.opens Pg.glb = true →
    ∃ b : Blk, exec (.resetMapSwWrite v) s = .next (s.settled b) ∧
      (∀ n : Fin 8, b.get Reg.GLB_RESET_MAP_SW_MAP / 4 ^ n.val % 4 =
        Nat.min (s.blk.get Reg.GLB_RESET_MAP_SW_MAP / 4 ^ n.val % 4) (v.toNat / 4 ^ n.val % 4)) ∧
      (∀ (f : Fld) (i : Nat), f.key i ≠ Reg.GLB_RESET_MAP_SW_MAP.key 0 → b.get f i = s.blk.get f i) ∧
      b = { s.blk.clear with fs := b.fs }

/-- GLB_NOR_CMD (R486 to R490): `write` of staged bytes to the slot that is not running or the copy that did not win, its covered sectors erased
first; a write that touches the counter blocks `denied`, one off the permitted targets or the multiples of 256 `bad_range`; `verify` finishes with the
first check of R482 that fails; `recover` of an image that fails its checks changes nothing. `verify` in the order of R482: the header's form, then
SVN, then the signature, then the body's hash. A valid signature is one `Config` makes (log entry 6), and `recover` is taken outside recovery mode as
well (log entry 11). -/
def Obligations.BootStoreAndImages : Prop :=
  (∀ (s : State), s.blk.opens Pg.glb = true → s.blk.get Reg.GLB_NOR_STATUS_DONE = 1 →
    (∀ (off len : Nat), s.blk.get Reg.GLB_NOR_ARG_NOR_OFF = off → s.blk.get Reg.GLB_NOR_ARG_LEN = len → len % 256 = 0 → off % 256 = 0 → 256 ≤ len →
      len ≤ 65536 → (off < 0x3A00000 → off + len ≤ 0x3200000) → s.blk.get Reg.GLB_BOOT_STATUS_RECOVERY = 0 →
      ((∃ k : Nat, k < len / 256 ∧ s.blk.norTarget (off + 256 * k) = false) →
        exec .norWrite s = .next (s.settled ((s.blk.clear.cmdStart norCmd).cmdEnd norCmd badRange))) ∧
      ((∀ k : Nat, k < len / 256 → s.blk.norTarget (off + 256 * k) = true) →
      ∃ b : Blk, exec .norWrite s = .next (s.settled (b.cmdEnd norCmd ok)) ∧ b = ((s.blk.clear.cmdStart norCmd).norSectors off len).norWrite off (s.blk.norStage len) ∧
        (∀ i : Nat, i < len → b.norByte (off + i) = nth 0 (s.blk.norStage len) i) ∧
        (∀ a : Nat, a / 4096 < off / 4096 ∨ (off + len + 4095) / 4096 ≤ a / 4096 → b.norByte a = s.blk.norByte a))) ∧
    (∀ a : Nat, s.blk.get Reg.GLB_BOOT_STATUS_RECOVERY = 0 → (s.blk.norTarget a = true ↔
      (slotBase (1 - s.blk.get Reg.GLB_BOOT_STATUS_FW_SLOT) ≤ a ∧ a < slotBase (1 - s.blk.get Reg.GLB_BOOT_STATUS_FW_SLOT) + 0x1800000) ∨
      ∃ l : Nat, s.blk.aon.loser = some l ∧ copyBase l ≤ a ∧ a < copyBase l + 0x100000)) ∧
    (0x3A00000 ≤ s.blk.get Reg.GLB_NOR_ARG_NOR_OFF ∨ s.blk.get Reg.GLB_NOR_ARG_NOR_OFF + s.blk.get Reg.GLB_NOR_ARG_LEN ≤ 0x3200000 →
      s.blk.get Reg.GLB_NOR_ARG_LEN % 256 ≠ 0 ∨ s.blk.get Reg.GLB_NOR_ARG_NOR_OFF % 256 ≠ 0 →
      exec .norWrite s = .next (s.settled ((s.blk.clear.cmdStart norCmd).cmdEnd norCmd badRange))) ∧
    (s.blk.get Reg.GLB_NOR_ARG_NOR_OFF < 0x3A00000 → 0x3200000 < s.blk.get Reg.GLB_NOR_ARG_NOR_OFF + s.blk.get Reg.GLB_NOR_ARG_LEN →
      exec .norWrite s = .next (s.settled ((s.blk.clear.cmdStart norCmd).cmdEnd norCmd denied))) ∧
    (∀ slot : Fin 2, s.blk.get Reg.GLB_BOOT_STATUS_RECOVERY = 0 →
      exec (.norVerify slot) s = .next (s.settled ((s.blk.clear.cmdStart norCmd).cmdEnd norCmd (s.blk.slotCode s.fuse slot.val)))) ∧
    (s.blk.recoverCode s.fuse ≠ ok →
      exec .norRecover s = .next (s.settled ((s.blk.clear.cmdStart norCmd).cmdEnd norCmd (s.blk.recoverCode s.fuse)))) ∧
    (s.blk.recoverCode s.fuse = ok → s.blk.aon.mode = .run →
      ∃ b : Blk, exec .norRecover s = .next (s.plain b) ∧ b.aon.mode = .reset 1 ∧ b.get Reg.GLB_FAILED_START_COUNT = 0 ∧
        (∀ a : Nat, 0x100000 ≤ a → a < 0x200000 → b.norByte a = 0xFF) ∧
        (∀ a : Nat, 0x1A00000 ≤ a → b.norByte a = s.blk.norByte a))) ∧
  (∀ (z : Fuse) (rd : Bytes) (type : Nat),
    (imageCode z rd type = ok →
      ofNatBytes ((rd 0 64).take 4) = 0x4B484657 ∧ nth 0 (rd 0 64) 4 = type ∧ ofNatBytes (slice_ (rd 0 64) 20 4) ≤ 0x17FF000 ∧
      z.svn ≤ nth 0 (rd 0 64) 16 ∧ hssVerify (natBytes 60 Config.firmwareKey) (rd 0 64) (rd 64 3604) = true ∧
      sha256 (rd 4096 (ofNatBytes (slice_ (rd 0 64) 20 4))) = slice_ (rd 0 64) 24 32) ∧
    (imageCode z rd type = rollback → nth 0 (rd 0 64) 16 < z.svn ∧ ofNatBytes ((rd 0 64).take 4) = 0x4B484657) ∧
    (imageCode z rd type = badSig → z.svn ≤ nth 0 (rd 0 64) 16 ∧ hssVerify (natBytes 60 Config.firmwareKey) (rd 0 64) (rd 64 3604) = false) ∧
    (imageCode z rd type = ok ∨ imageCode z rd type = badImage ∨ imageCode z rd type = rollback ∨ imageCode z rd type = badSig))

/-- `commit_svn` (R490): fuses blow until FUSE_SVN equals RUN_SVN; where RUN_SVN is not above it, `ok` and nothing changes; `bad_state` unless the
other slot is valid with an SVN of at least RUN_SVN; no step gives a fuse back. What follows by itself comes with it (`settled`: log entry 27, the
model's choice). -/
def Obligations.CommitSvn : Prop :=
  (∀ (s : State), s.blk.opens Pg.glb = true → s.blk.get Reg.GLB_NOR_STATUS_DONE = 1 → s.blk.get Reg.GLB_BOOT_STATUS_RECOVERY = 0 →
    let run := s.blk.get Reg.GLB_SVN_RUN_SVN
    let other := 1 - s.blk.get Reg.GLB_BOOT_STATUS_FW_SLOT
    let ended (code : Nat) : Blk := (s.blk.clear.cmdStart norCmd).cmdEnd norCmd code
    (run ≤ s.fuse.svn → exec .commitSvn s = .next (s.settled (ended ok))) ∧
    (s.fuse.svn < run → (s.blk.slotCode s.fuse other ≠ ok ∨ s.blk.norByte (slotBase other + 16) < run) →
      exec .commitSvn s = .next (s.settled (ended badState))) ∧
    (s.fuse.svn < run → s.blk.slotCode s.fuse other = ok → run ≤ s.blk.norByte (slotBase other + 16) →
      exec .commitSvn s = .next (({ s with fuse := { s.fuse with svn := run } } : State).settled (ended ok)))) ∧
  (∀ (s t : State), Sys2Proof.Machine.step s = .next t → s.fuse.svn ≤ t.fuse.svn)

/-- Boot and resume (R483 to R486, R498, Table 16.9): released once its time has come, a start with COUNT at LIMIT, or with FORCE_RECOVERY_N low,
enters recovery mode with every tile gated and GLB, SEC and TIME alone serving; any other start raises COUNT, and with no valid configuration copy
fails with `no_config` and ends in a reset of source `watchdog`; one with a copy whose entries leave the part in step 5, and a slot that boots, comes
through to step 10, with the stacks up, key slot 0 loaded, tiles in `run`, every page READY and COUNT zero; and a wake from P3 comes to step 10 with
the memory as it was and each stopped queue `ready` again. What a start meets outside the die comes with the command (log entry 9). -/
def Obligations.BootStarts : Prop :=
  ∀ (o : BootIn) (k : Nat) (s : State), s.blk.aon.mode = .reset k → s.blk.past s.blk.aon.ready 0 = true →
    (s.blk.aon.wake ≠ 3 → (o.force = true ∨ s.fuse.startLimit ≤ s.blk.get Reg.GLB_FAILED_START_COUNT) →
      ∃ b : Blk, exec (.resetRelease o) s = .next (s.settled b) ∧ b.aon.mode = .run ∧ b.get Reg.GLB_BOOT_STATUS_RECOVERY = 1 ∧
        b.get Reg.GLB_BOOT_STATUS_STAGE = 0xE ∧ b.get Reg.GLB_FAILED_START_COUNT = s.blk.get Reg.GLB_FAILED_START_COUNT ∧ b.aon.wdog = none ∧
        (∀ t : TileId, b.get Reg.TILE_STATE_STATE t.val = Ts.gated) ∧
        (∀ p : Nat, p ∈ allPages → b.reaches .bar0 p = true → p = Pg.glb ∨ p = Pg.sec ∨ p = Pg.time)) ∧
    (s.blk.aon.wake ≠ 3 → o.force = false → s.blk.get Reg.GLB_FAILED_START_COUNT < s.fuse.startLimit → s.blk.cfgWinner = none →
      ∃ b : Blk, exec (.resetRelease o) s = .next (s.plain b) ∧
        (1 ≤ s.blk.levelOf s.fuse 3 none → b.get Reg.GLB_BOOT_STATUS_FAIL_CODE = 1 ∧ b.get Reg.GLB_FAILED_START_COUNT = s.blk.get Reg.GLB_FAILED_START_COUNT + 1 ∧
          b.get Reg.GLB_LAST_RESET_SOURCE = 3 ∧ b.aon.mode = .reset 1)) ∧
    (∀ (slot i : Nat) (c : CfgCopy) (b2 b4 : Blk) (d5 : Die), s.blk.aon.wake ≠ 3 → o.force = false →
      s.blk.get Reg.GLB_FAILED_START_COUNT < s.fuse.startLimit → s.blk.cfgWinner = some (slot, c) →
      s.blk.bootSlot s.fuse (s.blk.get Reg.GLB_FAILED_START_COUNT % 2 == 1) c.pref = some i →
      b2 = ((s.blk.clear.setAon fun a => { a with up := false }).ownAddress s.fuse |>.checkStart s.fuse false).2 →
      b4 = ((((b2.enter (.boot 3)).atStage 3).takeCopy slot c).enter (.boot 4)).atStage 4 →
      d5 = c.entries.foldl (Die.cfgApply o.world) { fuse := s.fuse, blk := ((b4.runImage i c.pref).enter (.boot 5)).atStage 5 } →
      d5.blk.aon.mode = .boot 5 → o.stall = 0 → o.badStacks = [] → o.keyFail = false → o.badTiles = [] →
      (∃ n : Fin 12, bitAt (d5.blk.get Reg.HBM_GLB_STACK_EN) n.val = true) →
      ∃ b : Blk, exec (.resetRelease o) s = .next (s.withDie ({ fuse := d5.fuse, blk := b } : Die).settle) ∧ b.aon.mode = .run ∧
        b.get Reg.GLB_BOOT_STATUS_STAGE = 10 ∧ b.get Reg.GLB_FAILED_START_COUNT = 0 ∧ b.aon.wdog = some b.el ∧
        (c.entries = [] → b.get Reg.GLB_BOOT_STATUS_FW_SLOT = i % 2 ∧ b.get Reg.GLB_BOOT_STATUS_CFG_SLOT = slot % 2) ∧
        (∀ n : Fin 12, b.get Reg.HBM_STATE_STACK_STATE n.val =
          if bitAt (d5.blk.get Reg.HBM_GLB_STACK_EN) n.val = true then Stk.up else Stk.disabled) ∧
        b.get Reg.slot_LOADED 0 = 1 ∧ (∀ p ∈ allPages, b.get Reg.PAGE_STATUS_READY p = 1) ∧ b.get Reg.route_LOCAL b.node = 1 ∧
        (∀ t : TileId, d5.blk.get Reg.TILE_STATE_STATE t.val ≠ Ts.retired → d5.blk.get Reg.TILE_STATE_STATE t.val ≠ Ts.gated →
          b.get Reg.TILE_STATE_STATE t.val = Ts.run)) ∧
    (∀ i : Nat, s.blk.aon.wake = 3 → o.force = false → s.blk.get Reg.GLB_FAILED_START_COUNT < s.fuse.startLimit →
      s.blk.bootSlot s.fuse (s.blk.get Reg.GLB_FAILED_START_COUNT % 2 == 1) ((s.blk.cfgWinner.map (·.2.pref)).getD 0) = some i →
      o.stall = 0 → o.badTiles = [] → o.lostKeys = [] → (∀ e : Entry, s.blk.aon.entry = some e → ∀ q ∈ e.queues, q < 2 ^ 20) →
      ∃ b : Blk, exec (.resetRelease o) s = .next (s.settled b) ∧ b.aon.mode = .run ∧ b.get Reg.GLB_BOOT_STATUS_STAGE = 10 ∧
        b.get Reg.GLB_FAILED_START_COUNT = 0 ∧ b.aon.entry = none ∧ b.aon.retKey = none ∧ b.store = s.blk.store ∧ b.home = s.blk.home ∧
        b.tier = s.blk.tier ∧ b.t = s.blk.t ∧
        (∀ q : Queue, b.get Reg.qctx_STATE q.toNat = if s.blk.aon.entry.any (fun e => e.queues.contains q.toNat) = true ∧
          s.blk.get Reg.qctx_STATE q.toNat = Qst.stopped then Qst.ready else s.blk.get Reg.qctx_STATE q.toNat))

/-- Entry to P3 and P4, and wake (R497 to R499, Table 16.12): an accepted command stops every `ready` queue and begins the entry, `p4_enter` at D0 and
`p3_enter` with a D2 level closed; step by step: once no descriptor holds up step 2 every directory entry is recalled; with the directory empty and no
request left step 3 ends; with fetches and write-downs finished and rows closed a checkpoint is written; the links go down, and P4 is there; state is
saved; the last step releases IO, then CORE, with the stacks kept. Steps 2 to 4 past 10 s abandon it, finish the command `busy` and give the queues
back. WAKE_N, or the counter at PWR_WAKE_TIME, makes the AON island request the rails. -/
def Obligations.LowPowerEntry : Prop :=
  ∀ (s : State),
    (s.blk.opens Pg.pwr = true → s.blk.aon.mode = .run → s.blk.get Reg.PWR_CMD_STATUS_DONE = 1 → s.blk.anyBusy = false → s.blk.level ≠ 3 →
      s.blk.recovery = false →
      (∃ b : Blk, exec .p3Enter s = .next (s.settled b) ∧ b.get Reg.PWR_CMD_STATUS_DONE = 0 ∧ b.get Reg.PAGE_STATUS_BUSY Pg.pwr = 1 ∧
        (∃ e : Entry, b.aon.entry = some e ∧ e.target = 3 ∧ e.step = 2 ∧ e.since = s.blk.el ∧
          (∀ q : Queue, q.toNat ∈ e.queues ↔ s.blk.get Reg.qctx_STATE q.toNat = Qst.ready)) ∧
        (∀ q : Queue, b.get Reg.qctx_STATE q.toNat = if s.blk.get Reg.qctx_STATE q.toNat = Qst.ready then Qst.stopped else s.blk.get Reg.qctx_STATE q.toNat) ∧
        b.level = (if s.blk.level = 2 then 0 else s.blk.level) ∧ b.home = s.blk.home ∧ b.store = s.blk.store ∧ b.t = s.blk.t) ∧
      (∃ b : Blk, exec .p4Enter s = .next (s.settled b) ∧ b.get Reg.PWR_CMD_STATUS_DONE = 0 ∧ b.get Reg.PAGE_STATUS_BUSY Pg.pwr = 1 ∧
        (∃ e : Entry, b.aon.entry = some e ∧ e.target = 4 ∧ e.step = 2 ∧ e.since = s.blk.el ∧
          (∀ q : Queue, q.toNat ∈ e.queues ↔ s.blk.get Reg.qctx_STATE q.toNat = Qst.ready)) ∧
        (∀ q : Queue, b.get Reg.qctx_STATE q.toNat = if s.blk.get Reg.qctx_STATE q.toNat = Qst.ready then Qst.stopped else s.blk.get Reg.qctx_STATE q.toNat) ∧
        b.level = 0 ∧ b.home = s.blk.home ∧ b.store = s.blk.store ∧ b.t = s.blk.t)) ∧
    (∀ e : Entry, s.blk.on = true → s.blk.aon.entry = some e → e.step = 2 → s.blk.eng.works.any Work.holdsUp = true →
      exec .p3EntryAdvance s = .next (s.settled s.blk.clear)) ∧
    (∀ e : Entry, s.blk.on = true → s.blk.aon.entry = some e → e.step = 2 → s.blk.eng.works.any Work.holdsUp = false →
      exec .p3EntryAdvance s = .next (s.settled (s.blk.clear.setAon fun a => { a with entry := some { e with step := 3 } }).recallAll)) ∧
    (∀ e : Entry, s.blk.on = true → s.blk.aon.entry = some e → e.step = 3 → s.blk.entriesWith Reg.dir_V = [] → s.blk.home.reqs = [] →
      ∃ b : Blk, exec .p3EntryAdvance s = .next (s.settled b) ∧ b.aon.entry = some { e with step := 4 } ∧ (∀ d ∈ b.home.drains, d.win ≠ 4096) ∧ b.fs = s.blk.fs) ∧
    (∀ e : Entry, s.blk.on = true → s.blk.aon.entry = some e → e.step = 4 → s.blk.tier.fetches = [] → s.blk.tier.downs = [] → s.blk.peat.open_ = [] →
      s.blk.peat.closing = [] → s.blk.peat.ops = [] → s.blk.peat.fmt = none →
      exec .p3EntryAdvance s = .next (s.settled ((s.blk.clear.checkpoint []).2.setEntry fun x => { x with step := x.step + 1 }))) ∧
    (∀ e : Entry, s.blk.on = true → s.blk.aon.entry = some e → e.step = 5 →
      (e.target ≠ 4 → exec .p3EntryAdvance s = .next (s.settled (s.blk.clear.setAon fun a => { a with entry := some { e with step := 6 } }).dropLinks)) ∧
      (e.target = 4 → ∃ b : Blk, exec .p3EntryAdvance s = .next (s.plain b) ∧ b.aon.mode = .p4 ∧ b.aon.entry = none ∧
        (s.blk.aon.reqs = [0, 1, 2] → s.blk.aon.goods = [0, 1, 2] → b.aon.reqs = [0, 1] ∧ b.aon.fall = some (2, 0, s.blk.el)) ∧
        b.store.lines = [] ∧ b.t = s.blk.t ∧ b.get Reg.PWR_WAKE_TIME_SECONDS = s.blk.get Reg.PWR_WAKE_TIME_SECONDS)) ∧
    (∀ e : Entry, s.blk.on = true → s.blk.aon.entry = some e → e.step = 6 →
      exec .p3EntryAdvance s = .next (s.settled (s.blk.clear.setAon fun a => { a with entry := some { e with step := 7 } }))) ∧
    (∀ e : Entry, s.blk.on = true → s.blk.aon.entry = some e → e.step = 7 →
      ∃ b : Blk, exec .p3EntryAdvance s = .next (s.plain b) ∧ b.aon.mode = .p3 ∧
        (s.blk.aon.reqs = [0, 1, 2] → s.blk.aon.goods = [0, 1, 2] → b.aon.reqs = [0, 1] ∧ b.aon.fall = some (2, 1, s.blk.el)) ∧ b.aon.retKey.isSome = true ∧ b.aon.wdog = none ∧
        b.get Reg.GLB_PIN_EN_GROUPS = 0 ∧ b.store = s.blk.store ∧ b.t = s.blk.t ∧ b.eng = s.blk.eng ∧ b.get Reg.PWR_CMD_STATUS_CODE = ok) ∧
    (∀ e : Entry, s.blk.on = true → s.blk.aon.entry = some e → e.step ≤ 4 → s.blk.past e.since (secs 10) = true → (∀ q ∈ e.queues, q < 2 ^ 20) →
      ∃ b : Blk, exec .p3EntryTimeout s = .next (s.settled b) ∧ b.aon.entry = none ∧ b.get Reg.PWR_CMD_STATUS_CODE = busy ∧
        b.get Reg.PWR_CMD_STATUS_DONE = 1 ∧ bitAt (b.get Reg.ERR_STICKY_ERR Pg.pwr) 3 = true ∧
        (∀ q : Queue, b.get Reg.qctx_STATE q.toNat = if q.toNat ∈ e.queues ∧ s.blk.get Reg.qctx_STATE q.toNat = Qst.stopped then Qst.ready
          else s.blk.get Reg.qctx_STATE q.toNat)) ∧
    (∀ pin : Bool, (pin = true ∨ (s.blk.get Reg.PWR_WAKE_TIME_SECONDS ≠ 0 ∧ s.blk.get Reg.PWR_WAKE_TIME_SECONDS * 10 ^ 9 ≤ s.blk.now)) →
      (s.blk.aon.mode = .p3 → exec (.wake pin) s = .next (s.settled ((s.blk.clear.setAon fun a => { a with wake := 3 }).powerUp))) ∧
      (s.blk.aon.mode = .p4 → exec (.wake pin) s = .next (s.settled ((s.blk.clear.setAon fun a => { a with wake := 4 }).powerUp))) ∧
      (s.blk.aon.mode = .p3 → s.blk.aon.reqs = [0] →
        ∃ b : Blk, exec (.wake pin) s = .next (s.plain b) ∧ b.aon.mode = .rails 1 ∧ b.aon.reqs = [0, 1] ∧ b.aon.wake = 3 ∧ b.store = s.blk.store ∧ b.t = s.blk.t) ∧
      (s.blk.aon.mode = .p4 → s.blk.aon.reqs = [] →
        ∃ b : Blk, exec (.wake pin) s = .next (s.plain b) ∧ b.aon.mode = .rails 0 ∧ b.aon.reqs = [0] ∧ b.aon.wake = 4 ∧ b.t = s.blk.t))

/-- Gating (R492, R493): an idle `run` tile is gated and counted; a write of the force masks sets them. Self-test and canaries (R545 to R551):
`selftest_tile` sends a `run` tile out to drain; a slice whose tile does not drain in time gives it back to `run` and is counted; a passed slice gives
its tile back, a failed one retires it and logs the canary that failed, or 0xFFFF; `selftest_full` on idle queues finishes `ok` with no failure; a
canary that fails retires its tile, and a temperature moved by TEMP_BAND_C since a `run` tile's last run has it run its canaries. A read of the
sensors that reaches WARN_C sets THERM_WARN (R589). When TILES_LOW is set is a reading (log entry 53). -/
def Obligations.TilesGatedAndTested : Prop :=
  (∀ (s : State),
    (∀ t : TileId, s.blk.on = true → s.blk.get Reg.TILE_STATE_STATE t.val = Ts.run → s.blk.get Reg.PWR_CFG_RUN_STATE ≠ 0 → s.blk.tileBusy t.val = false →
      s.blk.eng.halted.contains t.val = false → s.blk.past (Sparse.get 0 s.blk.aon.idle t.val) (us (s.blk.get Reg.PWR_CFG_GATE_IDLE_US)) = true →
      exec (.gateIdleTimeout t) s = .next (s.settled ((s.blk.clear.put Reg.TILE_STATE_STATE Ts.gated t.val).count Reg.PWR_GATE_CNT))) ∧
    (∀ (lo : BitVec 64) (hi : BitVec 32), s.blk.opens Pg.pwr = true →
      ∃ b : Blk, exec (.tileForceWrite lo hi) s = .next (s.settled b) ∧ b.get Reg.PWR_TILE_FORCE_LO_MASK = lo.toNat ∧
        b.get Reg.PWR_TILE_FORCE_HI_MASK = hi.toNat ∧ b.home = s.blk.home ∧ b.t = s.blk.t)) ∧
  (∀ (s : State),
    (∀ t : TileId, s.blk.opens Pg.mgmt = true → s.blk.get Reg.MGMT_CMD_STATUS_DONE = 1 → s.blk.tileState t.val = Ts.run → s.blk.aon.slice = none →
      ∃ b : Blk, exec (.selftestTile (t.castLE (by decide))) s = .next (s.settled b) ∧ b.tileState t.val = Ts.draining ∧
        b.aon.slice = some { tile := t.val, gated := false, testing := false, since := s.blk.el, cmd := true } ∧ b.get Reg.MGMT_CMD_STATUS_DONE = 0) ∧
    (s.blk.opens Pg.mgmt = true → s.blk.get Reg.MGMT_CMD_STATUS_DONE = 1 → s.blk.queuesIdle = true →
      ∃ b : Blk, exec (.selftestFull [] []) s = .next (s.settled b) ∧ b.get Reg.MGMT_CMD_STATUS_DONE = 1 ∧ b.get Reg.MGMT_CMD_STATUS_CODE = ok ∧
        b.aon.full = none ∧ (∀ t : TileId, b.tileState t.val = s.blk.tileState t.val)) ∧
    (s.blk.on = true → s.blk.get Reg.MGMT_SELFTEST_CFG_SLICE_S ≠ 0 → s.blk.aon.slice = none → s.blk.aon.sliceNext = 0 → s.blk.tileState 0 = Ts.run →
      s.blk.eng.halted = [] → s.blk.past s.blk.aon.sliceAt (secs (s.blk.get Reg.MGMT_SELFTEST_CFG_SLICE_S)) = true →
      ∃ b : Blk, exec .selftestSlice s = .next (s.settled b) ∧ b.tileState 0 = Ts.draining ∧ b.aon.sliceNext = 1 ∧ b.aon.sliceAt = s.blk.el ∧
        b.aon.slice = some { tile := 0, gated := false, testing := false, since := s.blk.el, cmd := false }) ∧
    (∀ x : Slice, s.blk.on = true → s.blk.aon.slice = some x → x.testing = false → x.cmd = false → x.tile < 96 →
      s.blk.past x.since (ms (s.blk.get Reg.MGMT_SELFTEST_CFG_DRAIN_MAX_MS)) = true →
      ∃ b : Blk, exec .sliceDrainTimeout s = .next (s.settled b) ∧ b.tileState x.tile = Ts.run ∧ b.aon.slice = none ∧
        (s.blk.get Reg.MGMT_SLICE_ABANDON_CNT < 2 ^ 48 - 1 → b.get Reg.MGMT_SLICE_ABANDON_CNT = s.blk.get Reg.MGMT_SLICE_ABANDON_CNT + 1)) ∧
    (∀ x : Slice, s.blk.on = true → s.blk.aon.slice = some x → x.testing = true → x.tile < 96 → s.blk.aon.retireNext < 16 →
      (∃ b : Blk, exec (.sliceTestComplete none) s = .next (s.settled b) ∧ b.tileState x.tile = (if x.gated then Ts.gated else Ts.run) ∧ b.aon.slice = none) ∧
      (∀ id : BitVec 16, ∃ b : Blk, exec (.sliceTestComplete (some id)) s = .next (s.settled b) ∧ b.tileState x.tile = Ts.retired ∧ b.aon.slice = none ∧
        b.get Reg.retire_log_CAUSE s.blk.aon.retireNext = 1 ∧ b.get Reg.retire_log_TILE s.blk.aon.retireNext = x.tile ∧
        b.get Reg.retire_log_CANARY_ID s.blk.aon.retireNext = id.toNat ∧
        (id ≠ 0xFFFF → bitAt (b.get Reg.ERR_STICKY_ERR Pg.mgmt) 1 = true))) ∧
    (∀ (t : TileId) (id : BitVec 16), s.blk.on = true → s.blk.tileState t.val = Ts.run → s.blk.aon.retireNext < 16 →
      s.blk.past (Sparse.get 0 s.blk.aon.canaryAt t.val) (ms (s.blk.get Reg.MGMT_CANARY_CFG_CANARY_MS)) = true →
      (∃ b : Blk, exec (.canaryRun t none) s = .next (s.settled b) ∧ b.tileState t.val = Ts.run ∧ Sparse.get 0 b.aon.passAt t.val = s.blk.now) ∧
      (∃ b : Blk, exec (.canaryRun t (some id.toNat)) s = .next (s.settled b) ∧ b.tileState t.val = Ts.retired ∧
        bitAt (b.get Reg.ERR_STICKY_ERR Pg.mgmt) 1 = true ∧ bitAt (b.get Reg.ERR_STICKY_ERR (Pg.tile t.val)) 1 = true ∧
        b.get Reg.retire_log_CANARY_ID s.blk.aon.retireNext = id.toNat)) ∧
    (∀ tj : Int, s.blk.on = true → -128 ≤ tj → tj ≤ 127 → s.blk.tilesIn Ts.run = [] →
      exec (.canaryTempTrigger tj []) s = .next (s.settled (s.blk.clear.readTj tj))) ∧
    (∀ (tj : Int) (fails : List (Nat × Nat)), s.blk.on = true → -128 ≤ tj → tj ≤ 127 →
      ∃ b : Blk, exec (.canaryTempTrigger tj fails) s = .next (s.settled b) ∧ toSigned 8 (b.get Reg.PWR_THERM_TJ_C) = tj ∧
        (toSigned 8 (s.blk.get Reg.PWR_THERM_TJ_C) < s.blk.get Reg.PWR_THERM_WARN_C → s.blk.get Reg.PWR_THERM_WARN_C ≤ tj →
          bitAt (b.get Reg.ERR_STICKY_ERR Pg.pwr) 0 = true) ∧
        (∀ t : TileId, s.blk.tileState t.val = Ts.run →
          s.blk.get Reg.MGMT_CANARY_CFG_TEMP_BAND_C ≤ (tj - toSigned 8 (Sparse.get 0 s.blk.aon.tempAt t.val)).natAbs →
          (failOf fails t.val = none → b.tileState t.val = Ts.run ∧ Sparse.get 0 b.aon.passAt t.val = s.blk.now ∧
            Sparse.get 0 b.aon.canaryAt t.val = s.blk.el) ∧
          (∀ id : Nat, failOf fails t.val = some id → b.tileState t.val = Ts.retired ∧ bitAt (b.get Reg.ERR_STICKY_ERR Pg.mgmt) 1 = true ∧
            bitAt (b.get Reg.ERR_STICKY_ERR (Pg.tile t.val)) 1 = true)) ∧
        (∀ t : TileId, (s.blk.tileState t.val ≠ Ts.run ∨
          (tj - toSigned 8 (Sparse.get 0 s.blk.aon.tempAt t.val)).natAbs < s.blk.get Reg.MGMT_CANARY_CFG_TEMP_BAND_C) →
          b.tileState t.val = s.blk.tileState t.val ∧ Sparse.get 0 b.aon.passAt t.val = Sparse.get 0 s.blk.aon.passAt t.val)))

/-- Lifecycle (R503, R505, Table 17.1): the bits of LC never clear, a pattern not in the table acts as DECOMMISSIONED, and each transition blows its
fuses and then resets at L1; `advance` needs D3 in MANUFACTURE (there JTAG alone reaches the part: log entry 103, the model's choice), `set_owner`
PROVISIONED, `decommission` its key; and where a fuse of `set_owner` does not blow no debug level stays open. That the reset after a transition has
source `soft_cmd` and level L1 is a reading (log entry 38). -/
def Obligations.LifecycleTransitions : Prop :=
  (∀ z : Fuse, (z.lc = 0 → z.life = 0) ∧ (z.lc = 1 → z.life = 1) ∧ (z.lc = 3 → z.life = 2) ∧ (z.lc ≠ 0 → z.lc ≠ 1 → z.lc ≠ 3 → z.life = 3)) ∧
  (∀ s : State, s.blk.alive = true → s.blk.level = 3 → s.blk.unsettled = false → s.blk.get Reg.SEC_CMD_STATUS_DONE = 1 →
    (s.fuse.life = 0 → s.blk.aon.mode = .run →
      ∃ b : Blk, exec (.secAdvance .jtag) s = .next ({ s with fuse := { s.fuse with lc := 1 } }.plain b) ∧ b.aon.mode = .reset 1 ∧
        b.get Reg.DBG_STATE_LEVEL = 0) ∧
    (s.fuse.life ≠ 0 → exec (.secAdvance .jtag) s = .next (s.settled ((s.blk.clear.cmdStart secCmd).cmdEnd secCmd badState)))) ∧
  (∀ s : State, s.blk.opens Pg.sec = true → s.blk.unsettled = false → s.blk.get Reg.SEC_CMD_STATUS_DONE = 1 → s.blk.aon.mode = .run →
    exec (.secAdvance .bar0) s = .next (s.settled ((s.blk.clear.cmdStart secCmd).cmdEnd secCmd badState)) ∧
    (s.fuse.life = 1 → s.fuse.seed = 0 → s.fuse.dbgKey = 0 → ∀ (seed key : BitVec 256), s.blk.get Reg.SEC_OWNER_STAGE_SEED = seed.toNat →
      s.blk.get Reg.SEC_DBGKEY_STAGE_HASH = key.toNat →
      ∃ b : Blk, exec (.setOwner 0 0) s = .next ({ s with fuse := { s.fuse with lc := 3, seed, dbgKey := key } }.plain b) ∧ b.aon.mode = .reset 1 ∧
        b.get Reg.SEC_OWNER_STAGE_SEED = 0 ∧ b.get Reg.SEC_DBGKEY_STAGE_HASH = 0 ∧ (∀ t : Tenant, b.loaded t.toNat = false)) ∧
    (s.fuse.life = 1 → s.fuse.seed = 0 → s.fuse.dbgKey = 0 → ∀ stuck : BitVec 256, BitVec.ofNat 256 (s.blk.get Reg.SEC_OWNER_STAGE_SEED) &&& stuck ≠ 0 →
      ∃ b : Blk, exec (.setOwner stuck 0) s = .next ({ s with fuse := (s.fuse.blowOwner (.ofNat 256 (s.blk.get Reg.SEC_OWNER_STAGE_SEED))
          (.ofNat 256 (s.blk.get Reg.SEC_DBGKEY_STAGE_HASH)) stuck 0).blowLc 7 }.settled b) ∧
        b.get Reg.SEC_CMD_STATUS_CODE = 9 ∧ b.level = 0 ∧ bitAt (b.get Reg.ERR_STICKY_ERR Pg.sec) 2 = true) ∧
    (s.fuse.life ≠ 1 → ∀ a c : BitVec 256, exec (.setOwner a c) s = .next (s.settled ((s.blk.clear.cmdStart secCmd).cmdEnd secCmd badState))) ∧
    (s.fuse.life = 1 ∨ s.fuse.life = 2 →
      ∃ b : Blk, exec (.decommission 0xD5) s = .next ({ s with fuse := { s.fuse with lc := 7, seed := BitVec.allOnes 256 } }.plain b) ∧
        b.aon.mode = .reset 1 ∧ (∀ t : Tenant, b.loaded t.toNat = false)) ∧
    (∀ key : Byte, key ≠ 0xD5 → exec (.decommission key) s = .next (s.settled ((s.blk.clear.cmdStart secCmd).cmdEnd secCmd denied)))) ∧
  (∀ (s t : State) (i : Nat), Sys2Proof.Machine.step s = .next t → s.fuse.lc.getLsbD i = true → t.fuse.lc.getLsbD i = true)

/-- A challenge (R514): `challenge` draws 32 bytes into DBG_CHALLENGE; one `unlock`, whatever its outcome, or 60 s ends it, and DBG_CHALLENGE then
reads zero. What follows by itself comes with it (`settled`: log entry 27, the model's choice). -/
def Obligations.ChallengeServesOnce : Prop :=
  (∀ (path : Path) (s : State), path = .bar0 → s.blk.opens Pg.dbg = true → s.blk.unsettled = false → s.blk.get Reg.DBG_CMD_STATUS_DONE = 1 →
    (∃ b : Blk, exec (.dbgChallenge path) s = .next (s.settled b) ∧ b.get Reg.DBG_CHALLENGE_NONCE = Config.free s.blk.freeCtr % 2 ^ 256 ∧
      b.aon.chal = some s.blk.el ∧ b.get Reg.DBG_CMD_STATUS_CODE = ok ∧ b.level = s.blk.level) ∧
    (∃ b : Blk, exec (.dbgUnlock path) s = .next (s.settled b) ∧ b.get Reg.DBG_CHALLENGE_NONCE = 0 ∧ b.aon.chal = none ∧
      b.get Reg.DBG_CMD_STATUS_CODE = s.blk.unlockCode s.fuse path)) ∧
  (∀ (t : Nat) (s : State), s.blk.aon.chal = some t → s.blk.past t (secs 60) = true →
    ∃ b : Blk, exec .challengeExpire s = .next (s.settled b) ∧ b.get Reg.DBG_CHALLENGE_NONCE = 0 ∧ b.aon.chal = none)

/-- Debug sessions (R516 to R518): `lock` and DBG_EXPIRY take the level to D0 and resume every halted tile, DBG_EXPIRY once no command of the level
runs; at D2 `halt` holds a `run` tile and `resume` gives it back; below D2 both are `denied`, as is a `poke`; a `peek` within the level reads a value.
`unlock` (R515): the first check that fails gives the code, counts in DBG_DENY_CNT and opens nothing; success opens the token's level until its life
ends, with a new SESSION, and with TENANT_DATA no tenant slot stays loaded. A valid signature is one `Config` makes (log entry 6). -/
def Obligations.DebugUnlockAndSessions : Prop :=
  (∀ (path : Path) (s : State), path = .bar0 → s.blk.opens Pg.dbg = true → s.blk.unsettled = false → s.blk.get Reg.DBG_CMD_STATUS_DONE = 1 →
    (∃ b : Blk, exec (.dbgLock path) s = .next (s.settled b) ∧ b.level = 0 ∧ b.get Reg.DBG_STATE_TENANT_DATA = 0 ∧ b.eng.halted = [] ∧
      b.get Reg.DBG_CMD_STATUS_CODE = ok) ∧
    (s.blk.level ≠ 0 → s.blk.get Reg.DBG_EXPIRY_TIME ≤ s.blk.now →
      (s.blk.levelRuns = false →
        ∃ b : Blk, exec .debugExpiry s = .next (s.settled b) ∧ b.level = 0 ∧ b.get Reg.DBG_STATE_TENANT_DATA = 0 ∧ b.eng.halted = []) ∧
      (s.blk.levelRuns = true → exec .debugExpiry s = .next (s.settled (s.blk.clear.setAon fun a => { a with expired := true })))) ∧
    (s.blk.aon.expired = true → s.blk.level ≠ 0 → s.blk.levelRuns = false → s.blk.settleExpiry.level = 0 ∧ s.blk.settleExpiry.aon.expired = false) ∧
    (∀ t : Fin 128, s.blk.level ≠ 2 → ∃ b c : Blk, exec (.dbgHalt path t) s = .next (s.settled b) ∧ exec (.dbgResume path t) s = .next (s.settled c) ∧
      b.get Reg.DBG_CMD_STATUS_CODE = denied ∧ b.eng = s.blk.eng ∧ c.get Reg.DBG_CMD_STATUS_CODE = denied ∧ c.eng = s.blk.eng) ∧
    (∀ t : Fin 96, s.blk.level = 2 → s.blk.tileState t.val = Ts.run →
      ∃ b : Blk, exec (.dbgHalt path (t.castLE (by decide))) s = .next (s.settled b) ∧ b.tileState t.val = Ts.testing ∧
        b.eng.halted = s.blk.eng.halted ++ [t.val] ∧ b.get Reg.DBG_CMD_STATUS_CODE = ok ∧
        (∀ u : TileId, u ≠ t → b.tileState u.val = s.blk.tileState u.val)) ∧
    (∀ t : Fin 96, s.blk.level = 2 → s.blk.eng.halted.contains t.val = true →
      ∃ b : Blk, exec (.dbgResume path (t.castLE (by decide))) s = .next (s.settled b) ∧ b.tileState t.val = Ts.run ∧
        b.eng.halted = s.blk.eng.halted.filter (· ≠ t.val) ∧ b.get Reg.DBG_CMD_STATUS_CODE = ok) ∧
    (s.blk.level = 1 ∨ s.blk.level = 2 → s.blk.get Reg.DBG_PEEK_ADDR_SPACE = 0 → s.blk.get Reg.DBG_PEEK_ADDR_TILE < 96 →
      s.blk.get Reg.DBG_PEEK_ADDR_OFFSET % 8 = 0 → s.blk.get Reg.DBG_PEEK_ADDR_OFFSET < 4096 →
      ∃ b : Blk, exec (.dbgPeek path) s = .next (s.settled b) ∧ b.get Reg.DBG_DATA_DATA = Config.free s.blk.freeCtr % 2 ^ 64 ∧
        b.get Reg.DBG_CMD_STATUS_CODE = ok ∧ b.eng = s.blk.eng) ∧
    (∀ w : World, s.blk.level ≠ 2 → ∃ b : Blk, exec (.dbgPoke path w) s = .next (s.settled b) ∧ b.get Reg.DBG_CMD_STATUS_CODE = denied ∧
      b.eng = s.blk.eng ∧ b.t = s.blk.t) ∧
    (∀ w : World, s.blk.level = 2 → s.blk.recovery = false → s.blk.get Reg.DBG_POKE_ADDR_OFFSET % 8 = 0 →
      (s.blk.get Reg.DBG_POKE_ADDR_OFFSET / 4096 = Pg.sec ∨ s.blk.get Reg.DBG_POKE_ADDR_OFFSET / 4096 = Pg.dbg) →
      ∃ b : Blk, exec (.dbgPoke path w) s = .next (s.settled b) ∧ b.get Reg.DBG_CMD_STATUS_CODE = denied) ∧
    (∀ w : World, s.blk.level = 2 → s.blk.aon.mode = .run → s.blk.recovery = false → s.blk.get Reg.DBG_POKE_ADDR_OFFSET = Pg.time * 4096 + 0x70 →
      ∃ b : Blk, exec (.dbgPoke path w) s = .next (s.settled b) ∧ b.get Reg.TIME_CMD_ARG_NS = s.blk.get Reg.DBG_DATA_DATA ∧
        b.get Reg.DBG_CMD_STATUS_CODE = ok ∧ b.eng = s.blk.eng ∧ b.home = s.blk.home)) ∧
  ((∀ (z : Fuse) (b : Blk) (path : Path),
    (b.aon.chal = none → b.unlockCode z path = 0xE) ∧
    (b.unlockCode z path = ok → b.aon.chal ≠ none ∧ tokenForm b.token (z.life == 2) = true ∧
      ofNatBytes (slice_ b.token 8 8) = z.serial.toNat ∧ ofNatBytes (slice_ b.token 16 32) = b.get Reg.DBG_CHALLENGE_NONCE ∧ z.life ≠ 3 ∧
      (nth 0 b.token 4 = 3 → z.life = 0 ∧ path = .jtag) ∧
      (z.life = 2 → z.dbgKey ≠ 0 ∧ ofNatBytes (sha256 (slice_ b.token 64 60)) = z.dbgKey.toNat))) ∧
  (∀ (path : Path) (s : State), path = .bar0 → s.blk.opens Pg.dbg = true → s.blk.unsettled = false → s.blk.get Reg.DBG_CMD_STATUS_DONE = 1 →
    (s.blk.unlockCode s.fuse path ≠ ok →
      ∃ b : Blk, exec (.dbgUnlock path) s = .next (s.settled b) ∧ b.level = s.blk.level ∧ b.get Reg.DBG_STATE_SESSION = s.blk.get Reg.DBG_STATE_SESSION ∧
        bitAt (b.get Reg.ERR_STICKY_ERR Pg.dbg) 1 = true ∧ (∀ t : Tenant, b.loaded t.toNat = s.blk.loaded t.toNat) ∧
        (s.blk.get Reg.DBG_DENY_CNT < 2 ^ 48 - 1 → b.get Reg.DBG_DENY_CNT = s.blk.get Reg.DBG_DENY_CNT + 1)) ∧
    (s.blk.unlockCode s.fuse path = ok →
      ∃ b : Blk, exec (.dbgUnlock path) s = .next (s.settled b) ∧ b.level = nth 0 s.blk.token 4 % 4 ∧
        b.get Reg.DBG_STATE_SESSION = (s.blk.get Reg.DBG_STATE_SESSION + 1) % 2 ^ 16 ∧
        b.get Reg.DBG_EXPIRY_TIME = (s.blk.now + ofNatBytes (slice_ s.blk.token 48 4) * 10 ^ 9) % 2 ^ 64 ∧
        (nth 0 s.blk.token 5 = 1 → ∀ t : Tenant, t ≠ 0 → b.loaded t.toNat = false))))

/-- Attestation and SEC_FM (R502, R512, R513): `attest` reserves a leaf by a record before it signs, and writes the body, the signature and zeros into
`report`; SEC_FM takes one write after each L1 or L0. A leaf and a signature come from constants without a value (log entry 6); when a reserved leaf
is dropped is a reading (log entry 52). -/
def Obligations.AttestationAndCredential : Prop :=
  ∀ (s : State), s.blk.opens Pg.sec = true →
    (∀ q : Nat, s.blk.unsettled = false → s.blk.get Reg.SEC_CMD_STATUS_DONE = 1 → s.blk.aon.leaf.getD s.blk.otsNext = q → s.blk.otsNext ≤ q → q + 1024 ≤ 2 ^ 40 →
      ∃ r b : Blk, r = ((s.blk.clear.cmdStart secCmd).otsReserve q).setAon (fun a => { a with leaf := some (q + 1) }) ∧
        exec .attest s = .next (s.settled b) ∧ b.get Reg.SEC_CMD_STATUS_CODE = ok ∧ b.aon = r.aon ∧
        (∀ i : Fin 16, b.get Reg.report_DATA i.val = ofNatBytes (slice_ (r.reportBody s.fuse ++
          hssSign attestSeed q (r.reportBody s.fuse)) (256 * i.val) 256) % 2 ^ 2048)) ∧
    (∀ q : Nat, s.blk.unsettled = false → s.blk.get Reg.SEC_CMD_STATUS_DONE = 1 → s.blk.aon.leaf.getD s.blk.otsNext = q → s.blk.otsNext ≤ q → 2 ^ 40 < q + 1024 →
      ∃ b : Blk, exec .attest s = .next (s.settled b) ∧ b.get Reg.SEC_CMD_STATUS_CODE = badState ∧ bitAt (b.get Reg.ERR_STICKY_ERR Pg.sec) 1 = true ∧
        b.aon.nor = s.blk.aon.nor) ∧
    (∀ (en : Bool) (node : Node), s.blk.aon.fmWritten = false →
      ∃ b : Blk, exec (.secFmWrite en node) s = .next (s.settled b) ∧ b.get Reg.SEC_FM_EN = b2n en ∧ b.get Reg.SEC_FM_NODE = node.toNat ∧ b.aon.fmWritten = true) ∧
    (∀ (en : Bool) (node : Node), s.blk.aon.fmWritten = true → exec (.secFmWrite en node) s = .next (s.settled s.blk.clear))

/-- Beacons and fencing (R538, R540): at a boundary a part that may sends its beacon line to the target, or without a TAG counts a miss; between
boundaries it does nothing; `fence` makes the part FENCED at once. -/
def Obligations.BeaconsAndFence : Prop :=
  ∀ (s : State),
    (s.blk.on = true → s.blk.now / (s.blk.get Reg.MGMT_BEACON_CFG_PERIOD_US * 1000) ≤ s.blk.aon.beaconAt / (s.blk.get Reg.MGMT_BEACON_CFG_PERIOD_US * 1000) →
      exec .beaconSend s = .next (s.settled s.blk.clear)) ∧
    (∀ (p : Nat) (tag : Option Nat) (b c : Blk), s.blk.on = true → p = s.blk.get Reg.MGMT_BEACON_CFG_PERIOD_US * 1000 → s.blk.aon.beaconAt / p < s.blk.now / p →
      s.blk.get Reg.MGMT_BEACON_CFG_EN = 1 → s.blk.restart ≠ 0 → s.blk.fenced = false → s.blk.aon.beaconOut = false →
      b = (s.blk.clear.setAon fun a => { a with beaconAt := s.blk.now }) → b.takeTag (s.blk.get Reg.MGMT_BEACON_ADDR * 64 / 2 ^ 47) = (tag, c) →
      (tag = none → exec .beaconSend s = .next (s.settled c.beaconMiss)) ∧
      (∀ (t : Nat) (o : Out), tag = some t → o = { fr := c.reqFrame Opc.wrLine (s.blk.get Reg.MGMT_BEACON_ADDR * 64) 0 false 0 b.beaconLine,
                                                   agent := .beacon (s.blk.aon.beacons + 1), sent := s.blk.el, src := 34 } →
        exec .beaconSend s = .next (s.settled ((((c.sendOut o t).count Reg.MGMT_BEACON_CNT).setAon fun a =>
          { a with beaconOut := true, beacons := a.beacons + 1 }).emit (.beacon b.beaconLine))))) ∧
    (s.blk.opens Pg.mgmt = true → s.blk.get Reg.MGMT_CMD_STATUS_DONE = 1 → s.blk.fenced = false →
      exec .mgmtFence s = .next (s.settled ((s.blk.clear.cmdStart mgmtCmd).enterFenced.cmdEnd mgmtCmd ok)))

/-- One occurrence of an error (R533): its sticky bit is set; COUNT rises by one, or at 0xFFFF stays and SAT is set; ERR_FIRST and ERR_FIRST_TIME are
written where VALID is 0 or its class is higher; INT_STATUS.ERR is set where the mask bit is 0. Other pages and all other registers stay. -/
def Obligations.ErrorIsRecorded : Prop :=
  ∀ (b : Blk) (p n info : Nat), p < 2 ^ 20 → n < 32 →
    let c := b.errInfo p n info
    (∀ m : Nat, m < 32 → bitAt (c.get Reg.ERR_STICKY_ERR p) m = (m == n || bitAt (b.get Reg.ERR_STICKY_ERR p) m)) ∧
    (b.get Reg.ERR_COUNT_COUNT p < 0xFFFF → c.get Reg.ERR_COUNT_COUNT p = b.get Reg.ERR_COUNT_COUNT p + 1 ∧ c.get Reg.ERR_COUNT_SAT p = b.get Reg.ERR_COUNT_SAT p) ∧
    (b.get Reg.ERR_COUNT_COUNT p = 0xFFFF → c.get Reg.ERR_COUNT_COUNT p = 0xFFFF ∧ c.get Reg.ERR_COUNT_SAT p = 1) ∧
    ((b.get Reg.ERR_FIRST_VALID p = 0 ∨ b.get Reg.ERR_FIRST_CLASS p < b.classOf p n) →
      c.get Reg.ERR_FIRST_VALID p = 1 ∧ c.get Reg.ERR_FIRST_CLASS p = b.classOf p n ∧ c.get Reg.ERR_FIRST_BIT p = n ∧
      c.get Reg.ERR_FIRST_INFO p = info % 2 ^ 32 ∧ c.get Reg.ERR_FIRST_TIME_TIME p = b.now) ∧
    (b.get Reg.ERR_FIRST_VALID p = 1 → b.classOf p n ≤ b.get Reg.ERR_FIRST_CLASS p →
      ∀ f ∈ [Reg.ERR_FIRST_VALID, Reg.ERR_FIRST_CLASS, Reg.ERR_FIRST_BIT, Reg.ERR_FIRST_INFO, Reg.ERR_FIRST_TIME_TIME], c.get f p = b.get f p) ∧
    (c.get Reg.INT_STATUS_ERR p = if bitAt (b.get Reg.ERR_MASK_MASK p) n then b.get Reg.INT_STATUS_ERR p else 1) ∧
    (∀ (f : Fld) (i : Nat), (∀ g ∈ [Reg.ERR_STICKY_ERR, Reg.ERR_COUNT_COUNT, Reg.ERR_COUNT_SAT, Reg.ERR_FIRST_VALID, Reg.ERR_FIRST_CLASS, Reg.ERR_FIRST_BIT,
      Reg.ERR_FIRST_INFO, Reg.ERR_FIRST_TIME_TIME, Reg.INT_STATUS_ERR], f.key i ≠ g.key p) → c.get f i = b.get f i) ∧
    c = { b with fs := c.fs }

/-- PAGE_CTRL.INJECT (R562): a write records one occurrence of the bit under R533 with INFO 0xFFFF_FFFF and does nothing else; a bit at or above
ERR_BITS makes it ignored. -/
def Obligations.InjectionRecords : Prop :=
  ∀ (n : BitVec 14) (p : Nat) (bit : Fin 32) (s : State), pageAt n.toNat = some p → s.blk.opens p = true →
    (bit.val < errBits p → exec (.pageInject .bar0 n bit) s = .next (s.settled (s.blk.clear.errInfo p bit.val 0xFFFFFFFF))) ∧
    (errBits p ≤ bit.val → exec (.pageInject .bar0 n bit) s = .next (s.settled s.blk.clear))

/-- A write to ERR_SEVERITY changes a class only where it raises it; at reset each is the class its chapter gives (R532). What follows by itself comes
with it (`settled`: log entry 27, the model's choice). -/
def Obligations.SeverityOnlyRises : Prop :=
  (∀ p n : Nat, n < errBits p → State.reset.blk.classOf p n = nth 0 (pageClasses p) n) ∧
  (∀ (n : BitVec 14) (p : Nat) (v : BitVec 64) (s : State), pageAt n.toNat = some p → s.blk.opens p = true →
    ∃ b : Blk, exec (.errSeverityWrite .bar0 n v) s = .next (s.settled b) ∧
      (∀ m : Nat, m < errBits p → b.classOf p m = Nat.max (s.blk.classOf p m) (v.toNat / 4 ^ m % 4)) ∧
      (∀ (f : Fld) (i : Nat), f.key i ≠ Reg.ERR_SEVERITY_CLASS.key p → b.get f i = s.blk.get f i))

/-- Clearing and locking (R534, R537, R563): ERR_STICKY and INT_STATUS are cleared by the ones written, and ERR_FIRST is no longer valid once every
sticky bit is clear while ERR_FIRST_TIME stays; SAT clears with COUNT; OVF of a counter clears with its COUNT; MASK_LOCK lets a mask bit only clear;
PAGE_LOCK is only ever set. Statistics counters (R536): an event adds one, and at 2^48 − 1 the counter stays there and sets OVF; it never wraps. -/
def Obligations.HeaderAndCounters : Prop :=
  (∀ (n : BitVec 14) (p : Nat) (s : State), pageAt n.toNat = some p → s.blk.opens p = true →
    (∀ v : BitVec 32, ∃ b : Blk, exec (.errStickyClear .bar0 n v) s = .next (s.settled b) ∧
      b.get Reg.ERR_STICKY_ERR p = s.blk.get Reg.ERR_STICKY_ERR p - (s.blk.get Reg.ERR_STICKY_ERR p &&& v.toNat) ∧
      (b.get Reg.ERR_STICKY_ERR p = 0 → b.get Reg.ERR_FIRST_VALID p = 0) ∧
      b.get Reg.ERR_FIRST_TIME_TIME p = s.blk.get Reg.ERR_FIRST_TIME_TIME p ∧ b.get Reg.ERR_COUNT_COUNT p = s.blk.get Reg.ERR_COUNT_COUNT p ∧
      b.get Reg.INT_STATUS_ERR p = s.blk.get Reg.INT_STATUS_ERR p) ∧
    (∃ b : Blk, exec (.errCountClear .bar0 n) s = .next (s.settled b) ∧ b.get Reg.ERR_COUNT_COUNT p = 0 ∧ b.get Reg.ERR_COUNT_SAT p = 0 ∧
      b.get Reg.ERR_STICKY_ERR p = s.blk.get Reg.ERR_STICKY_ERR p) ∧
    (∀ v : BitVec 32, ∃ b : Blk, exec (.errMaskWrite .bar0 n v) s = .next (s.settled b) ∧
      b.get Reg.ERR_MASK_MASK p = (if s.blk.get Reg.PAGE_LOCK_MASK_LOCK p = 1 then s.blk.get Reg.ERR_MASK_MASK p &&& v.toNat else v.toNat) ∧
      (∀ (f : Fld) (i : Nat), f.key i ≠ Reg.ERR_MASK_MASK.key p → b.get f i = s.blk.get f i)) ∧
    (∀ v : BitVec 32, ∃ b : Blk, exec (.pageLockWrite .bar0 n v) s = .next (s.settled b) ∧
      b.get Reg.PAGE_LOCK_LOCK p = (s.blk.get Reg.PAGE_LOCK_LOCK p ||| v.toNat % 2) ∧
      b.get Reg.PAGE_LOCK_MASK_LOCK p = (s.blk.get Reg.PAGE_LOCK_MASK_LOCK p ||| v.toNat / 2 % 2)) ∧
    (∀ v : BitVec 32, ∃ b : Blk, exec (.intStatusClear .bar0 n v) s = .next (s.settled b) ∧
      b.get Reg.INT_STATUS_ERR p = s.blk.get Reg.INT_STATUS_ERR p - (s.blk.get Reg.INT_STATUS_ERR p &&& v.toNat % 2) ∧
      b.get Reg.INT_STATUS_CMD_DONE p = s.blk.get Reg.INT_STATUS_CMD_DONE p - (s.blk.get Reg.INT_STATUS_CMD_DONE p &&& v.toNat / 2 ^ 31) ∧
      b.get Reg.ERR_STICKY_ERR p = s.blk.get Reg.ERR_STICKY_ERR p) ∧
    (p = Pg.glb → ∃ b : Blk, exec (.counterOvfClear .bar0 n 0x78) s = .next (s.settled b) ∧ b.get Reg.GLB_ABSENT_CNT = 0 ∧ b.get Reg.GLB_ABSENT_CNT_OVF = 0 ∧
      b.get Reg.GLB_MGMT_REQ_CNT = s.blk.get Reg.GLB_MGMT_REQ_CNT)) ∧
  (∀ (b : Blk) (f : Fld) (n i : Nat), f.w = 48 →
    (b.countN f n i).get f i = Nat.min (b.get f i + n) (2 ^ 48 - 1) ∧
    (2 ^ 48 ≤ b.get f i + n → (b.countN f n i).get { f with bit := f.bit + 63, w := 1, acc := .w1c } i = 1) ∧
    (b.get f i + n < 2 ^ 48 → ∀ (g : Fld) (j : Nat), g.key j ≠ f.key i → (b.countN f n i).get g j = b.get g j))

/-- The table window (R565 to R568): TABLE_SEL selects and clears TABLE_DATA of its own path's copy alone; a `read` copies the entry whole; a `write`
to an entry of the route table takes its writable fields; a command with no table finishes `bad_op`, an INDEX beyond the table `bad_range`, a `write`
to a read-only table `denied`, each with TABLE_DATA and INDEX as they were. Registers by path (R9, R502, R536, R557, R558, R571, R572): a write of its
own width reaches an RW register; of two registers that one write covers, one with a byte not enabled is not written; a write through the fabric
management window without the fabric manager's credential, or to SEC or DBG, is not done and sets FM_REFUSED; a read of TIME_NS latches TIME_FRAC; a
write to the page of a block in an L2 reset is discarded and counted; in recovery mode a hidden page discards its writes; a TIME register reads and
writes through the management port, which answers to the sender's address and port and also answers ARP, and through the sideband, which answers
`denied` for a page it does not reach and takes the four control commands of MCTP (their answers: log entry 29). A command on a table that ends
otherwise than `ok` sets CMD_DONE alike (log entry 58), and what MCTP's control commands answer is presumed (log entry 29). -/
def Obligations.RegistersAndTables : Prop :=
  (∀ (n : BitVec 14) (p : Nat) (s : State), pageAt n.toNat = some p → s.blk.opens p = true →
    (∀ sel : Byte, ∃ b : Blk, exec (.tableSelWrite .bar0 n sel) s = .next (s.settled b) ∧ b.get Reg.TABLE_SEL_SEL p = sel.toNat ∧
      b.get Reg.TABLE_DATA_DATA p = 0 ∧ b.get Reg.TABLE_DATA_DATA (winOf 1 p) = s.blk.get Reg.TABLE_DATA_DATA (winOf 1 p) ∧
      b.get Reg.TABLE_INDEX_INDEX p = s.blk.get Reg.TABLE_INDEX_INDEX p) ∧
    (∀ (t : Tab) (inc : Bool), (s.blk.tablesOf p)[s.blk.get Reg.TABLE_SEL_SEL p]? = some t → s.blk.get Reg.TABLE_INDEX_INDEX p < t.count →
      s.blk.get Reg.TABLE_INDEX_INDEX p + 1 < 2 ^ 40 →
      ∃ b : Blk, exec (.tableRead .bar0 n inc) s = .next (s.settled b) ∧ b.get Reg.TABLE_STATUS_CODE p = ok ∧
        b.get Reg.TABLE_DATA_DATA p = s.blk.entryRead p t (s.blk.get Reg.TABLE_INDEX_INDEX p) % 2 ^ 2048 ∧
        b.get Reg.TABLE_INDEX_INDEX p = s.blk.get Reg.TABLE_INDEX_INDEX p + b2n inc ∧ b.get Reg.INT_STATUS_CMD_DONE p = 1) ∧
    (∀ (i : Fin 65536) (inc : Bool), p = Pg.swc → s.blk.get Reg.TABLE_SEL_SEL p = 0 → s.blk.get Reg.TABLE_INDEX_INDEX p = i.val →
      ∃ b : Blk, exec (.tableWrite .bar0 n inc) s = .next (s.settled b) ∧ b.get Reg.TABLE_STATUS_CODE p = ok ∧
        (∀ f ∈ Reg.all .t_route, b.get f i.val = if f.acc = .rw then s.blk.get Reg.TABLE_DATA_DATA p / 2 ^ f.bit % 2 ^ f.w else s.blk.get f i.val) ∧
        (∀ f ∈ Reg.all .t_route, ∀ j : Fin 65536, j ≠ i → b.get f j.val = s.blk.get f j.val)) ∧
    (∀ inc : Bool, (s.blk.tablesOf p)[s.blk.get Reg.TABLE_SEL_SEL p]? = none →
      exec (.tableRead .bar0 n inc) s = .next (s.settled ((s.blk.clear.put Reg.TABLE_STATUS_CODE badOp p).put Reg.INT_STATUS_CMD_DONE 1 p)) ∧
      exec (.tableWrite .bar0 n inc) s = .next (s.settled ((s.blk.clear.put Reg.TABLE_STATUS_CODE badOp p).put Reg.INT_STATUS_CMD_DONE 1 p))) ∧
    (∀ (t : Tab) (inc : Bool), (s.blk.tablesOf p)[s.blk.get Reg.TABLE_SEL_SEL p]? = some t → t.count ≤ s.blk.get Reg.TABLE_INDEX_INDEX p →
      exec (.tableRead .bar0 n inc) s = .next (s.settled ((s.blk.clear.put Reg.TABLE_STATUS_CODE badRange p).put Reg.INT_STATUS_CMD_DONE 1 p)) ∧
      exec (.tableWrite .bar0 n inc) s = .next (s.settled ((s.blk.clear.put Reg.TABLE_STATUS_CODE badRange p).put Reg.INT_STATUS_CMD_DONE 1 p))) ∧
    (∀ (t : Tab) (inc : Bool), (s.blk.tablesOf p)[s.blk.get Reg.TABLE_SEL_SEL p]? = some t → s.blk.get Reg.TABLE_INDEX_INDEX p < t.count → t.rw = false →
      exec (.tableWrite .bar0 n inc) s = .next (s.settled ((s.blk.clear.put Reg.TABLE_STATUS_CODE denied p).put Reg.INT_STATUS_CMD_DONE 1 p)))) ∧
  (∀ (s : State), s.blk.served = true →
    (∀ (v : BitVec 64) (w : World), s.blk.recovery = false →
      ∃ b : Blk, exec (.registerWrite .bar0 0x3070 8 v.toNat [] w) s = .next (s.settled b) ∧ b.get Reg.TIME_CMD_ARG_NS = v.toNat ∧
        (∀ (f : Fld) (i : Nat), f.sp ≠ .tier → f.sp ≠ .peat → f.key i ≠ Reg.TIME_CMD_ARG_NS.key 0 → f.key i ≠ Reg.TIME_LOCK_LOCK_NS.key 0 →
          f.key i / 2 ^ 60 = f.sp.code → b.get f i = s.blk.get f i) ∧ b.home = s.blk.home ∧ b.t = s.blk.t) ∧
    (∀ (v : BitVec 64) (k : Nat) (w : World), s.blk.recovery = false → k < 8 →
      exec (.registerWrite .bar0 0x3070 8 v.toNat [k] w) s = .next (s.settled s.blk.clear) ∧
      (1000 ≤ v.toNat / 2 ^ 32 → 1 ≤ v.toNat / 2 ^ 16 % 2 ^ 16 → v.toNat / 2 ^ 16 % 2 ^ 16 ≤ 1000 → 1 ≤ v.toNat % 2 ^ 16 → ∃ b : Blk, exec (.registerWrite .bar0 0x3060 8 v.toNat [k] w) s = .next (s.settled b) ∧
        b.get Reg.TIME_STEP_THRESH_NS = (if k < 4 then v.toNat / 2 ^ 32 else s.blk.get Reg.TIME_STEP_THRESH_NS) ∧
        b.get Reg.TIME_SERVO_SLEW_PPM = (if k < 4 then s.blk.get Reg.TIME_SERVO_SLEW_PPM else v.toNat / 2 ^ 16 % 2 ^ 16) ∧
        b.get Reg.TIME_SERVO_HOLDOVER_S = (if k < 4 then s.blk.get Reg.TIME_SERVO_HOLDOVER_S else v.toNat % 2 ^ 16))) ∧
    (∀ (src : Node) (tenant : Tenant) (off : BitVec 26) (p n v : Nat) (holes : List Nat) (w : World), s.blk.recovery = false →
      pageAt (off.toNat / 4096) = some p →
      (s.blk.get Reg.SEC_FM_EN = 0 ∨ src.toNat ≠ s.blk.get Reg.SEC_FM_NODE ∨ tenant ≠ 0 ∨ p = Pg.sec ∨ p = Pg.dbg) →
      exec (.registerWrite (.fabric src tenant) off n v holes w) s = .next (s.settled (s.blk.clear.err Pg.sec 3))) ∧
    (s.blk.recovery = false → ∃ b : Blk, exec (.rcFieldRead .bar0 0x3040 8 []) s = .next (s.settled b) ∧ b.emits = [.bar 0x3040 8 s.blk.now] ∧
      b.get Reg.TIME_FRAC_FRAC = s.blk.t % 2 ^ 32 ∧ b.t = s.blk.t) ∧
    (∀ (off : BitVec 26) (p n v : Nat) (holes : List Nat) (w : World), s.blk.aon.mode = .l2 → s.blk.recovery = false →
      pageAt (off.toNat / 4096) = some p → pagesL2.contains p = true →
      exec (.registerWrite .mgmt off n v holes w) s = .next (s.settled s.blk.clear.absentWrite) ∧
      ((covered p (off.toNat % 4096) n holes).length = 1 →
        exec (.registerWrite .bar0 off n v holes w) s = .next (s.settled s.blk.clear.absentWrite))) ∧
    (∀ (off : BitVec 26) (p n v : Nat) (holes : List Nat) (w : World), s.blk.recovery = true → pageAt (off.toNat / 4096) = some p →
      p ≠ Pg.glb → p ≠ Pg.sec → p ≠ Pg.time →
      exec (.registerWrite .bar0 off n v holes w) s = .next (s.plain s.blk.clear)) ∧
    (∀ (ip : BitVec 32), ip.toNat = s.blk.get Reg.GLB_MGMT_IP_IP →
      exec (.mgmtArpRequest ip) s = .next (s.settled (s.blk.clear.emit (.arp ip.toNat (s.blk.get Reg.GLB_MGMT_MAC_MAC))))) ∧
    (∀ (ip : BitVec 32) (port : BitVec 16) (from_ : BitVec 32) (sport : BitVec 16) (m : BitVec 192), ip.toNat = s.blk.get Reg.GLB_MGMT_IP_IP → port.toNat = s.blk.get Reg.GLB_MGMT_UDP_PORT →
      dgOk m.toNat = true → dgOp m.toNat = 1 → dgWidth m.toNat = 8 → dgOffset m.toNat = 0x3070 → s.blk.recovery = false →
      ∃ b : Blk, exec (.mgmtUdpRequest ip port from_ sport m) s = .next (s.settled b) ∧
        b.emits = [.mgmt from_.toNat sport.toNat 0x81 8 (dgSeq m.toNat) 0x3070 ok (s.blk.get Reg.TIME_CMD_ARG_NS)]) ∧
    (∀ (ip : BitVec 32) (port : BitVec 16) (from_ : BitVec 32) (sport : BitVec 16) (m : BitVec 192), ip.toNat = s.blk.get Reg.GLB_MGMT_IP_IP → port.toNat = s.blk.get Reg.GLB_MGMT_UDP_PORT →
      dgOk m.toNat = false → exec (.mgmtUdpRequest ip port from_ sport m) s = .next (s.settled (s.blk.clear.count Reg.GLB_MGMT_BAD_CNT))) ∧
    (∀ m : BitVec 112, pageAt (bits m.toNat 39 8 / 4096) = some Pg.qmgr →
      exec (.i3cMctpRequest (.register m)) s = .next (s.settled (s.blk.clear.emit (.i3c (bits m.toNat 39 8) 0 false)))) ∧
    (∀ m : BitVec 112, s.blk.recovery = false → bits m.toNat 39 8 = 0x3070 → bits m.toNat 47 40 = 8 →
      (bits m.toNat 7 0 = 1 → ∃ b : Blk, exec (.i3cMctpRequest (.register m)) s = .next (s.settled b) ∧
        b.emits = [.i3c 0x3070 (s.blk.get Reg.TIME_CMD_ARG_NS) true] ∧ b.fs = s.blk.fs ∧ b.t = s.blk.t) ∧
      (bits m.toNat 7 0 = 2 → ∃ b : Blk, exec (.i3cMctpRequest (.register m)) s = .next (s.settled b) ∧
        b.emits = [.i3c 0x3070 (bits m.toNat 111 48) true] ∧ b.get Reg.TIME_CMD_ARG_NS = bits m.toNat 111 48 ∧ b.t = s.blk.t)) ∧
    (∀ e : Byte, e ≠ 0 → e ≠ 0xFF → ∃ b : Blk, exec (.i3cMctpRequest (.setEid e)) s = .next (s.settled b) ∧ b.aon.eid = e.toNat ∧ b.fs = s.blk.fs ∧
      b.emits = [.mctp [0, 0, e.toNat, 0]]) ∧
    exec (.i3cMctpRequest .getEid) s = .next (s.settled (s.blk.clear.emit (.mctp [0, s.blk.aon.eid, 0, 0]))) ∧
    exec (.i3cMctpRequest .versions) s = .next (s.settled (s.blk.clear.emit (.mctp [0, 1, 0xF1, 0xF3, 0xFF, 0x00]))) ∧
    exec (.i3cMctpRequest .types) s = .next (s.settled (s.blk.clear.emit (.mctp [0, 1, 0x7F]))))

/-- An absent page (R555): a read returns zero; a write is discarded, counted in GLB_ABSENT_CNT and sets ABSENT_ACCESS, as an access of its own and as
a register access alike. What follows by itself comes with it (`settled`: log entry 27, the model's choice). -/
def Obligations.AbsentPages : Prop :=
  ∀ (off : BitVec 26) (s : State), pageAt (off.toNat / 4096) = none → s.blk.served = true →
    exec (.absentPageAccess off false) s = .next (s.settled (s.blk.clear.emit (.bar off.toNat 4 0))) ∧
    (∀ (n : Nat) (holes : List Nat), exec (.rcFieldRead .bar0 off n holes) s = .next (s.settled (s.blk.clear.emit (.bar off.toNat n 0)))) ∧
    (∃ b : Blk, exec (.absentPageAccess off true) s = .next (s.settled b) ∧
      (∀ (n v : Nat) (holes : List Nat) (w : World), exec (.registerWrite .bar0 off n v holes w) s = .next (s.settled b)) ∧
      bitAt (b.get Reg.ERR_STICKY_ERR Pg.glb) 4 = true ∧
      (s.blk.get Reg.GLB_ABSENT_CNT < 2 ^ 48 - 1 → b.get Reg.GLB_ABSENT_CNT = s.blk.get Reg.GLB_ABSENT_CNT + 1) ∧
      b.home = s.blk.home ∧ b.eng = s.blk.eng ∧ b.aon = s.blk.aon ∧ b.t = s.blk.t)
end

