-- ==== Sys2Proof/Laws/Sparse.lean ====
section
/-! SUPPORT. The laws of the sparse maps: read after write, other keys untouched, the canonical form kept. -/
namespace Sys2Proof.Machine

variable {α : Type}

theorem Sparse.get_insert_same (d : α) (a : Nat) (v : α) : ∀ m : List (Nat × α), Sparse.get d (Sparse.insert a v m) a = v
  | [] => by simp [Sparse.insert, Sparse.get]
  | (k, u) :: m => by
    by_cases h1 : a < k
    · simp [Sparse.insert, h1, Sparse.get]
    · by_cases h2 : a = k
      · simp [Sparse.insert, h2, Sparse.get]
      · simp [Sparse.insert, h1, h2, Sparse.get, Sparse.get_insert_same d a v m]

theorem Sparse.get_insert_other (d : α) {a b : Nat} (v : α) (hab : b ≠ a) :
    ∀ m : List (Nat × α), Sparse.get d (Sparse.insert a v m) b = Sparse.get d m b
  | [] => by simp [Sparse.insert, Sparse.get, hab]
  | (k, u) :: m => by
    by_cases h1 : a < k
    · simp [Sparse.insert, h1, Sparse.get, hab]
    · by_cases h2 : a = k
      · subst h2; simp [Sparse.insert, Sparse.get, hab]
      · simp [Sparse.insert, h1, h2, Sparse.get, Sparse.get_insert_other d v hab m]

theorem Sparse.get_filter (d : α) (a b : Nat) :
    ∀ m : List (Nat × α), Sparse.get d (m.filter fun e => decide (e.1 ≠ a)) b = if b = a then d else Sparse.get d m b
  | [] => by simp [Sparse.get]
  | (k, u) :: m => by
    by_cases h : k = a
    · subst h
      simp only [List.filter, ne_eq, not_true_eq_false, decide_false, Sparse.get, Sparse.get_filter d k b m]
      split <;> rfl
    · simp only [List.filter, ne_eq, h, not_false_eq_true, decide_true, Sparse.get, Sparse.get_filter d a b m]
      by_cases hb : b = k
      · subst hb; simp [h]
      · simp [hb]

theorem Sparse.above_mono {a b : Nat} (h : b ≤ a) {m : List (Nat × α)} (hm : Sparse.above a m = true) :
    Sparse.above b m = true := by
  cases m with
  | nil => rfl
  | cons e m => obtain ⟨k, v⟩ := e; simp only [Sparse.above, decide_eq_true_eq] at *; omega

theorem Sparse.above_insert {a b : Nat} (v : α) (hb : b < a) {m : List (Nat × α)} (h : Sparse.above b m = true) :
    Sparse.above b (Sparse.insert a v m) = true := by
  cases m with
  | nil => simp [Sparse.insert, Sparse.above, hb]
  | cons e m =>
    obtain ⟨k, u⟩ := e
    simp only [Sparse.above, decide_eq_true_eq] at h
    unfold Sparse.insert
    split
    · simp [Sparse.above, hb]
    · split <;> simp [Sparse.above, h]

variable [DecidableEq α]

/-- A key reads as it was last written. -/
@[simp] theorem Sparse.get_set_same (d : α) (m : List (Nat × α)) (a : Nat) (v : α) : Sparse.get d (Sparse.set d m a v) a = v := by
  unfold Sparse.set
  split
  · next h => rw [Sparse.get_filter]; simp [h]
  · exact Sparse.get_insert_same d a v m

/-- A write leaves every other key alone. -/
theorem Sparse.get_set_other (d : α) {a b : Nat} (v : α) (hab : b ≠ a) (m : List (Nat × α)) :
    Sparse.get d (Sparse.set d m a v) b = Sparse.get d m b := by
  unfold Sparse.set
  split
  · rw [Sparse.get_filter]; simp [hab]
  · exact Sparse.get_insert_other d v hab m

theorem Sparse.above_filter (d : α) (p : Nat × α → Bool) {a : Nat} : ∀ {m : List (Nat × α)}, Sparse.above a m = true →
    Sparse.wf d m = true → Sparse.above a (m.filter p) = true
  | [], _, _ => rfl
  | (k, u) :: m, h, hw => by
    simp only [Sparse.above, decide_eq_true_eq] at h
    simp only [Sparse.wf, Bool.and_eq_true] at hw
    unfold List.filter
    split
    · simp [Sparse.above, h]
    · exact Sparse.above_filter d p (Sparse.above_mono (by omega) hw.1.2) hw.2

/-- Dropping entries keeps the canonical form. -/
theorem Sparse.wf_filter (d : α) (p : Nat × α → Bool) : ∀ {m : List (Nat × α)}, Sparse.wf d m = true → Sparse.wf d (m.filter p) = true
  | [], _ => rfl
  | (k, u) :: m, hw => by
    simp only [Sparse.wf, Bool.and_eq_true] at hw
    unfold List.filter
    split
    · simp only [Sparse.wf, Bool.and_eq_true]
      exact ⟨⟨hw.1.1, Sparse.above_filter d p hw.1.2 hw.2⟩, Sparse.wf_filter d p hw.2⟩
    · exact Sparse.wf_filter d p hw.2

theorem Sparse.wf_insert (d : α) (a : Nat) (v : α) (hv : v ≠ d) : ∀ {m : List (Nat × α)}, Sparse.wf d m = true →
    Sparse.wf d (Sparse.insert a v m) = true
  | [], _ => by simp [Sparse.insert, Sparse.wf, Sparse.above, hv]
  | (k, u) :: m, hw => by
    have hw' := hw
    simp only [Sparse.wf, Bool.and_eq_true, decide_eq_true_eq] at hw
    unfold Sparse.insert
    split
    · next h => simp only [Sparse.wf, Sparse.above, Bool.and_eq_true, decide_eq_true_eq]; exact ⟨⟨hv, h⟩, ⟨hw.1, hw.2⟩⟩
    · split
      · simp only [Sparse.wf, Bool.and_eq_true, decide_eq_true_eq]; exact ⟨⟨hv, hw.1.2⟩, hw.2⟩
      · simp only [Sparse.wf, Bool.and_eq_true, decide_eq_true_eq]
        exact ⟨⟨hw.1.1, Sparse.above_insert v (by omega) hw.1.2⟩, Sparse.wf_insert d a v hv hw.2⟩

/-- Every write keeps the canonical form. -/
theorem Sparse.wf_set (d : α) (a : Nat) (v : α) {m : List (Nat × α)} (hw : Sparse.wf d m = true) :
    Sparse.wf d (Sparse.set d m a v) = true := by
  unfold Sparse.set
  split
  · exact Sparse.wf_filter d _ hw
  · next h => exact Sparse.wf_insert d a v h hw

end Sys2Proof.Machine
end

