-- ==== Sys2Proof/Laws/State.lean ====
section
/-! SUPPORT. What each update of the state changes and what it leaves alone. -/
namespace Sys2Proof.Machine

/-! ### The state and the die -/

@[simp] theorem State.die_fuse (s : State) : s.die.fuse = s.fuse := rfl
@[simp] theorem State.die_blk (s : State) : s.die.blk = s.blk := rfl
@[simp] theorem State.withDie_fuse (s : State) (d : Die) : (s.withDie d).fuse = d.fuse := rfl
@[simp] theorem State.withDie_blk (s : State) (d : Die) : (s.withDie d).blk = d.blk := rfl
@[simp] theorem State.withDie_pending (s : State) (d : Die) : (s.withDie d).pending = s.pending := rfl
@[simp] theorem State.withDie_die (s : State) : s.withDie s.die = s := rfl
@[simp] theorem State.signed_fuse (s : State) (b : Blk) : (s.signed b).fuse = s.fuse := rfl
@[simp] theorem State.signed_blk (s : State) (b : Blk) : (s.signed b).blk = b.settleSigns := rfl
@[simp] theorem State.signed_pending (s : State) (b : Blk) : (s.signed b).pending = s.pending := rfl
@[simp] theorem State.plain_fuse (s : State) (b : Blk) : (s.plain b).fuse = s.fuse := rfl
@[simp] theorem State.plain_blk (s : State) (b : Blk) : (s.plain b).blk = b := rfl
@[simp] theorem State.plain_pending (s : State) (b : Blk) : (s.plain b).pending = s.pending := rfl
@[simp] theorem Die.on_fuse (d : Die) (f : Fuse → Blk → Blk) : (d.on f).fuse = d.fuse := rfl
@[simp] theorem Die.on_blk (d : Die) (f : Fuse → Blk → Blk) : (d.on f).blk = f d.fuse d.blk := rfl

/-! ### Fields -/

@[simp] theorem Blk.get_put_same (b : Blk) (f : Fld) (v i : Nat) : (b.put f v i).get f i = v % 2 ^ f.w := by
  simp only [Blk.get, Blk.put, Sparse.get_set_same]
  rw [Nat.xor_assoc, Nat.xor_self, Nat.xor_zero, Nat.mod_mod]

/-- A field written reads back; a field of another key is untouched. -/
theorem Blk.get_put_other (b : Blk) (f g : Fld) (v i j : Nat) (h : g.key j ≠ f.key i) : (b.put f v i).get g j = b.get g j := by
  simp only [Blk.get, Blk.put, Sparse.get_set_other 0 _ h]

@[simp] theorem Blk.put_t (b : Blk) (f : Fld) (v i : Nat) : (b.put f v i).t = b.t := rfl
@[simp] theorem Blk.put_el (b : Blk) (f : Fld) (v i : Nat) : (b.put f v i).el = b.el := rfl
@[simp] theorem Blk.put_held (b : Blk) (f : Fld) (v i : Nat) : (b.put f v i).held = b.held := rfl
@[simp] theorem Blk.put_freeCtr (b : Blk) (f : Fld) (v i : Nat) : (b.put f v i).freeCtr = b.freeCtr := rfl
@[simp] theorem Blk.put_ports (b : Blk) (f : Fld) (v i : Nat) : (b.put f v i).ports = b.ports := rfl
@[simp] theorem Blk.put_sw (b : Blk) (f : Fld) (v i : Nat) : (b.put f v i).sw = b.sw := rfl
@[simp] theorem Blk.put_home (b : Blk) (f : Fld) (v i : Nat) : (b.put f v i).home = b.home := rfl
@[simp] theorem Blk.put_store (b : Blk) (f : Fld) (v i : Nat) : (b.put f v i).store = b.store := rfl
@[simp] theorem Blk.put_tier (b : Blk) (f : Fld) (v i : Nat) : (b.put f v i).tier = b.tier := rfl
@[simp] theorem Blk.put_orig (b : Blk) (f : Fld) (v i : Nat) : (b.put f v i).orig = b.orig := rfl
@[simp] theorem Blk.put_eng (b : Blk) (f : Fld) (v i : Nat) : (b.put f v i).eng = b.eng := rfl
@[simp] theorem Blk.put_prot (b : Blk) (f : Fld) (v i : Nat) : (b.put f v i).prot = b.prot := rfl
@[simp] theorem Blk.put_peat (b : Blk) (f : Fld) (v i : Nat) : (b.put f v i).peat = b.peat := rfl
@[simp] theorem Blk.put_pcie (b : Blk) (f : Fld) (v i : Nat) : (b.put f v i).pcie = b.pcie := rfl
@[simp] theorem Blk.put_aon (b : Blk) (f : Fld) (v i : Nat) : (b.put f v i).aon = b.aon := rfl
@[simp] theorem Blk.put_emits (b : Blk) (f : Fld) (v i : Nat) : (b.put f v i).emits = b.emits := rfl

/-- Writing a field keeps the register file's form. -/
theorem Blk.put_wf (b : Blk) (f : Fld) (v i : Nat) (h : Sparse.wf 0 b.fs = true) : Sparse.wf 0 (b.put f v i).fs = true :=
  Sparse.wf_set 0 _ _ h

/-- Clearing an entry keeps it too. -/
theorem Blk.clearEntry_wf (b : Blk) (sp : Space) (i : Nat) (h : Sparse.wf 0 b.fs = true) : Sparse.wf 0 (b.clearEntry sp i).fs = true :=
  Sparse.wf_filter 0 _ h

theorem Blk.clearSpace_wf (b : Blk) (sp : Space) (h : Sparse.wf 0 b.fs = true) : Sparse.wf 0 (b.clearSpace sp).fs = true :=
  Sparse.wf_filter 0 _ h

/-! ### Clearing what was driven -/

@[simp] theorem Blk.clear_get (b : Blk) (f : Fld) (i : Nat) : b.clear.get f i = b.get f i := rfl
@[simp] theorem Blk.clear_fs (b : Blk) : b.clear.fs = b.fs := rfl
@[simp] theorem Blk.clear_aon (b : Blk) : b.clear.aon = b.aon := rfl
@[simp] theorem Blk.clear_emits (b : Blk) : b.clear.emits = [] := rfl
@[simp] theorem Blk.clear_on (b : Blk) : b.clear.on = b.on := rfl
@[simp] theorem Blk.clear_alive (b : Blk) : b.clear.alive = b.alive := rfl
@[simp] theorem Blk.clear_idle (b : Blk) : b.clear.idle = b.idle := rfl

/-! ### What follows by itself -/

theorem Blk.get_lt (b : Blk) (f : Fld) (i : Nat) : b.get f i < 2 ^ f.w := Nat.mod_lt _ (Nat.two_pow_pos _)

/-- A vector of the PF's table changes no register. -/
theorem Blk.raise_pf_fs (b : Blk) (v : Nat) (h : v < 2048) : (b.raise 0 v).fs = b.fs := by
  unfold Blk.raise
  rw [if_neg (by simp [vectorsOf]; omega)]
  dsimp only
  split
  · rfl
  · split <;> rfl

/-- The signs of errors touch the device-fatal times, the error interrupt and its message alone. -/
theorem Blk.settleSigns_fs (b : Blk) : b.settleSigns.fs = b.fs := by
  unfold Blk.settleSigns Blk.settleInt
  dsimp only
  split
  · rfl
  · split
    · exact Blk.raise_pf_fs _ _ (Blk.get_lt _ Reg.PCIE_CTRL_ERR_VEC 0)
    · rfl

@[simp] theorem Blk.settleSigns_get (b : Blk) (f : Fld) (i : Nat) : b.settleSigns.get f i = b.get f i := by
  simp only [Blk.get, Blk.settleSigns_fs]

end Sys2Proof.Machine
end

