-- ==== Sys2Proof/Laws/Idle.lean ====
section
/-! SUPPORT. A part in which nothing is under way stays as a command left it: what goes on by itself has nothing to do. -/
namespace Sys2Proof.Machine

/-- What an idle part has, one by one. -/
theorem Blk.idle_parts {b : Blk} (h : b.idle = true) :
    (b.home.reqs = [] ∧ b.home.again = [] ∧ b.home.drains = [] ∧ b.home.busQ = []) ∧ b.home.inbox = [] ∧
    (b.tier.fetches = [] ∧ b.tier.downs = [] ∧ b.tier.job = none ∧ b.tier.evicting = false) ∧
    (b.eng.works = [] ∧ b.eng.bound = [] ∧ b.eng.waiting = [] ∧ b.eng.updQ = [] ∧ b.eng.chans = [] ∧ b.eng.streams = [] ∧
      b.eng.stopping = none ∧ b.eng.tenantRst = none) ∧
    b.orig.results = [] ∧ b.pcie.tlps = [] ∧ b.prot = none ∧ b.aon.slice = none ∧ b.aon.full = none ∧ b.aon.capped = [] ∧
    b.get Reg.PWR_TILE_FORCE_LO_MASK = 0 ∧ b.get Reg.PWR_TILE_FORCE_HI_MASK = 0 ∧
    b.evicting = false ∧ b.sw.queue.all (fun e => !e.ingress) = true ∧ b.get Reg.PEAT_STATE_STATE < Ps.ok ∧
    (b.peat.fmt = none ∧ b.aon.expired = false) ∧ b.aon.low = decide (b.tilesRun < b.get Reg.MGMT_CANARY_CFG_MIN_TILES) := by
  simp only [Blk.idle, Home.idle, Tier.idle, Engines.idle, Bool.and_eq_true, List.isEmpty_iff, Option.isNone_iff_eq_none,
    Bool.not_eq_true', decide_eq_true_eq, beq_iff_eq] at h
  simp only [h, and_self]

section
variable {b : Blk} (h : b.idle = true)
include h

theorem Blk.settleHome_idle : b.settleHome = b := by
  obtain ⟨⟨h1, h2, h3, h4⟩, -⟩ := Blk.idle_parts h
  have hd : b.trimDrains = b := by
    cases b with | mk => rename_i home _ _ _ _ _ _ _ _ _ ; cases home; simp_all [Blk.trimDrains]
  simp [Blk.settleHome, h1, h2, h3, Blk.drive, hd]

theorem Blk.settleTier_idle : b.settleTier = b := by
  obtain ⟨⟨h1, -, -, -⟩, -, ⟨h2, h3, h4, h5⟩, -⟩ := Blk.idle_parts h
  have hd : b.dropIdle = b := by simp [Blk.dropIdle, h2, Blk.each]
  have hl : b.settleLower = b := by simp [Blk.settleLower, h1, h2, h3, Blk.each]
  have hr : b.retireGo = b := by simp [Blk.retireGo, h4]
  have he : b.evictStop = b := by
    simp only [Blk.evictStop, h4]
    split
    · cases b with | mk => rename_i tier _ _ _ _ _ _ _ _; cases tier; simp_all
    · rfl
  have hs : b.evictStart = b := if_neg (by simp [(Blk.idle_parts h).2.2.2.2.2.2.2.2.2.2.2.2.1])
  simp [Blk.settleTier, hd, h2, Blk.feedFetches, h4, hl, hr, hs, he]

theorem Blk.settlePeat_idle : b.settlePeat = b := by
  obtain ⟨-, -, -, -, -, -, -, -, -, -, -, -, -, -, hp, ⟨hf, -⟩, -⟩ := Blk.idle_parts h
  simp [Blk.settlePeat, Blk.formatGoes, hf, hp]

theorem Blk.settleFreeze_idle : b.settleFreeze = b := by
  have hp := (Blk.idle_parts h).2.2.2.2.2.2.1
  simp [Blk.settleFreeze, hp]

theorem Blk.settleStore_idle : b.settleStore = b := by
  have hn : b.strays = b := by simp [Blk.strays, (Blk.idle_parts h).2.1, Blk.each]
  have hi : b.ingressMove = b := by
    have hq := (Blk.idle_parts h).2.2.2.2.2.2.2.2.2.2.2.2.2.1
    have hf : b.sw.queue.filter (·.ingress) = [] := by
      rw [List.filter_eq_nil_iff]
      intro e he
      simpa using List.all_eq_true.mp hq e he
    simp [Blk.ingressMove, hf, Blk.each]
  simp only [Blk.settleStore, hi, hn, Blk.settleHome_idle h, Blk.settleTier_idle h, Blk.settlePeat_idle h, Blk.settleFreeze_idle h]

theorem Blk.takeResults_idle : b.takeResults = b := by
  have hr := (Blk.idle_parts h).2.2.2.2.1
  cases b with | mk => rename_i orig _ _ _ _ _ _; cases orig; simp_all [Blk.takeResults, Blk.each]

theorem Blk.settleEngines_idle : b.settleEngines = b := by
  obtain ⟨-, -, -, ⟨h1, h2, h3, h4, h5, h6, h7, h8⟩, -⟩ := Blk.idle_parts h
  have hw : b.settleWorks 64 = b := by simp [Blk.settleWorks, h1]
  have hu : b.trimUpd = b := by cases b with | mk => rename_i eng _ _ _ _ _; cases eng; simp_all [Blk.trimUpd]
  have hc : b.settleChans = b := by simp [Blk.settleChans, h5, Blk.each]
  have hs : b.settleStreams = b := by cases b with | mk => rename_i eng _ _ _ _ _; cases eng; simp_all [Blk.settleStreams]
  simp [Blk.settleEngines, hw, hu, hc, hs]

theorem Blk.settleBar4_idle : b.settleBar4 = b := by
  have hp := (Blk.idle_parts h).2.2.2.2.2.1
  have hr : b.ringTlps = b := by simp [Blk.ringTlps, hp, Blk.each]
  have he : b.endTlps = b := by cases b with | mk => rename_i pcie _ _; cases pcie; simp_all [Blk.endTlps, Blk.each]
  simp [Blk.settleBar4, hr, hp, Blk.sendTlps, he]

theorem Blk.settleTiles_idle : b.settleTiles = b := by
  obtain ⟨-, -, -, ⟨h1, h2, h3, h4, h5, h6, h7, h8⟩, -, -, -, hs, hf, hc, hlo, hhi, -, -, -, ⟨-, hx⟩, -⟩ := Blk.idle_parts h
  have a1 : b.settleThreads = b := by cases b with | mk => rename_i eng _ _ _ _ _; cases eng; simp_all [Blk.settleThreads, Blk.trimWaiting, Blk.each]
  have a2 : b.settleStop = b := by cases b with | mk => rename_i eng _ _ _ _ _; cases eng; simp_all [Blk.settleStop]
  have a3 : b.settleTenant = b := by simp [Blk.settleTenant, h8]
  have a9 : b.settleExpiry = b := by simp [Blk.settleExpiry, hx]
  have a4 : b.settleSlice = b := by simp [Blk.settleSlice, hs]
  have a5 : b.settleFull = b := by simp [Blk.settleFull, hf]
  have a6 : b.settleForce = b := by
    have hd : ∀ t, b.heldDown t = false := by
      intro t
      simp only [Blk.heldDown, Blk.forced, hc]
      split <;> simp [bitAt, hlo, hhi]
    simp only [Blk.settleForce, hd, Bool.false_and]
    rw [List.filter_eq_nil_iff.mpr (by simp)]
    rfl
  have a7 : b.settleIdle = b := by
    cases b with | mk => rename_i aon _; cases aon; simp_all [Blk.settleIdle, Blk.setAon]
  have a8 : b.checkTiles = b := by
    unfold Blk.checkTiles
    exact if_pos (Blk.idle_parts h).2.2.2.2.2.2.2.2.2.2.2.2.2.2.2.2
  simp only [Blk.settleTiles, a1, a2, a3, a9, a4, a5, a6, a7, a8]

end

/-- An idle part has nothing to go on with. -/
theorem Die.settleAll_idle {d : Die} (h : d.blk.idle = true) : d.settleAll = d := by
  have hb := (Blk.idle_parts h).1.2.2.2
  have e1 : (d.on fun _ b => b.settleStore.takeResults.settleEngines) = d := by
    simp [Die.on, Blk.settleStore_idle h, Blk.takeResults_idle h, Blk.settleEngines_idle h]
  have e2 : d.serveBus = d := by
    cases d with | mk f b => cases b with | mk => rename_i home _ _ _ _ _ _ _ _ _; cases home; simp_all [Die.serveBus]
  have e3 : (d.on fun _ b => b.settleStore.takeResults.settleEngines.settleBar4.settleTiles) = d := by
    simp [Die.on, Blk.settleStore_idle h, Blk.takeResults_idle h, Blk.settleEngines_idle h, Blk.settleBar4_idle h, Blk.settleTiles_idle h]
  simp only [Die.settleAll, e1, e2, e3]

/-- What follows by itself in an idle part that is alive: the signs of errors alone. -/
theorem Die.settle_idle {d : Die} (h : d.blk.idle = true) (ha : d.blk.alive = true) : d.settle = { d with blk := d.blk.settleSigns } := by
  unfold Die.settle
  have e : (if d.blk.on then d.settleAll else d) = d := by split <;> simp [Die.settleAll_idle h]
  simp only [e, ha, if_true, Die.on]

/-- A part that is not alive has nothing that follows a command. -/
theorem Blk.on_alive {b : Blk} (h : b.on = true) : b.alive = true := by
  simp only [Blk.on, Bool.and_eq_true, beq_iff_eq] at h
  simp [Blk.alive, h.1.1]

theorem Die.settle_dead {d : Die} (h : d.blk.alive = false) : d.settle = d := by
  have ho : d.blk.on = false := by
    cases hb : d.blk.on with
    | false => rfl
    | true => rw [Blk.on_alive hb] at h; exact absurd h (by decide)
  simp [Die.settle, ho, h]

theorem State.settled_idle {s : State} {b : Blk} (h : b.idle = true) (ha : b.alive = true) : s.settled b = s.signed b := by
  simp only [State.settled, Die.settle_idle (d := { fuse := s.fuse, blk := b }) h ha]; rfl

theorem State.settled_dead {s : State} {b : Blk} (h : b.alive = false) : s.settled b = s.plain b := by
  simp only [State.settled, Die.settle_dead (d := { fuse := s.fuse, blk := b }) h]; rfl

end Sys2Proof.Machine
end

