-- ==== Sys2Proof/Laws/Commands.lean ====
section
/-! SUPPORT. What each way a command comes to the part answers: one law for where it is taken and one for where it is not. -/
namespace Sys2Proof.Machine

theorem State.whileOn_on {s : State} (f : Blk → Blk) (h : s.blk.on = true) : s.whileOn f = .next (s.settled (f s.blk.clear)) := by
  have e : s.die.blk.on = true := h
  simp only [State.whileOn, Die.whileOn, e, if_true]; rfl

theorem State.whileOn_off {s : State} (f : Blk → Blk) (h : s.blk.on = false) : s.whileOn f = .next (s.plain s.blk.clear) := by
  have e : s.die.blk.on = false := h
  simp only [State.whileOn, Die.whileOn, e]; rfl

theorem State.whileKept_on {s : State} (f : Blk → Blk) (h : s.blk.kept = true) : s.whileKept f = .next (s.settled (f s.blk.clear)) := by
  have e : s.die.blk.kept = true := h
  simp only [State.whileKept, Die.whileKept, e, if_true]; rfl

theorem State.whileKept_off {s : State} (f : Blk → Blk) (h : s.blk.kept = false) : s.whileKept f = .next (s.plain s.blk.clear) := by
  have e : s.die.blk.kept = false := h
  simp only [State.whileKept, Die.whileKept, e]; rfl

/-- Management cores that are held for scan do not serve, nor do they in a part that is not alive. -/
theorem Blk.served_dead {b : Blk} (h : b.alive = false) : b.served = false := by simp [Blk.served, h]

theorem State.whileAlive_on {s : State} (f : Fuse → Blk → Blk) (h : s.blk.served = true) :
    s.whileAlive f = .next (s.settled (f s.fuse s.blk.clear)) := by
  have e : s.die.blk.served = true := h
  simp only [State.whileAlive, Die.whileAlive, e, if_true]; rfl

theorem State.whileAlive_off {s : State} (f : Fuse → Blk → Blk) (h : s.blk.served = false) : s.whileAlive f = .next (s.plain s.blk.clear) := by
  have e : s.die.blk.served = false := h
  simp only [State.whileAlive, Die.whileAlive, e]; rfl

theorem State.whilePcie_on {s : State} (f : Blk → Blk) (h : s.blk.pcieOn = true) : s.whilePcie f = .next (s.settled (f s.blk.clear)) := by
  have e : s.die.blk.pcieOn = true := h
  simp only [State.whilePcie, Die.whilePcie, e, if_true]; rfl

theorem State.whilePcie_off {s : State} (f : Blk → Blk) (h : s.blk.pcieOn = false) : s.whilePcie f = .next (s.plain s.blk.clear) := by
  have e : s.die.blk.pcieOn = false := h
  simp only [State.whilePcie, Die.whilePcie, e]; rfl

theorem State.servedDie_on {s : State} (f : Die → Die) (h : s.blk.served = true) : s.servedDie f = .next (s.withDie (f s.die.fresh).settle) := by
  simp only [State.servedDie, h, if_true]

theorem State.servedDie_off {s : State} (f : Die → Die) (h : s.blk.served = false) : s.servedDie f = .next (s.plain s.blk.clear) := by
  simp only [State.servedDie, h]; rfl

theorem State.always_eq {s : State} (f : Fuse → Blk → Blk) : s.always f = .next (s.settled (f s.fuse s.blk.clear)) := rfl

/-- A write through a path that reaches its page and that the fabric window does not refuse. -/
theorem State.onPath_reached {s : State} {path : Path} {page : Option Nat} (f : Die → Die) (ha : s.blk.answers path = true) (hd : path ≠ .debug)
    (hr : s.blk.opensTo path page = true) (hf : s.blk.fmwRefuses path page = false) :
    s.onPath path page f = .next (s.withDie (f { fuse := s.fuse, blk := s.blk.clear }).settle) := by
  have a1 : s.die.fresh.blk.answers path = true := ha
  have a2 : s.die.fresh.blk.opensTo path page = true := hr
  have a3 : s.die.fresh.blk.fmwRefuses path page = false := hf
  simp only [State.onPath, Die.whilePath, a1, a2, a3, hd]
  simp
  rfl

/-- Nothing takes a write through a path on which the part does not answer. -/
theorem State.onPath_dead {s : State} {path : Path} {page : Option Nat} (f : Die → Die) (ha : s.blk.answers path = false) :
    s.onPath path page f = .next (s.plain s.blk.clear) := by
  have a1 : s.die.fresh.blk.answers path = false := ha
  simp only [State.onPath, Die.whilePath, a1]
  simp
  rfl

/-- A part that is not alive answers on no path. -/
theorem Blk.answers_dead {b : Blk} (h : b.alive = false) (path : Path) : b.answers path = false := by simp [Blk.answers, h]

/-- A read through a path on which the part does not answer. -/
theorem State.readPath_dead {s : State} {path : Path} (f : Die → Die) (ha : s.blk.answers path = false) :
    s.readPath path f = .next (s.plain s.blk.clear) := by
  have a1 : s.die.blk.answers path = false := ha
  simp only [State.readPath, Die.whileRead, a1]
  simp
  rfl

/-- A command to a page over a path that reaches it. -/
theorem State.onPageDie_reached {s : State} {path : Path} {p : Nat} (f : Die → Die) (ha : s.blk.answers path = true) (hd : path ≠ .debug)
    (hf : s.blk.fmwRefuses path (some p) = false) (hr : s.blk.reaches path p = true) (hl : s.blk.pageInL2 p = false) :
    s.onPageDie path p f = .next (s.withDie (f { fuse := s.fuse, blk := s.blk.clear }).settle) := by
  have a3 : s.blk.clear.pageInL2 p = false := hl
  have e := State.onPath_reached (s := s) (path := path) (page := some p) (fun d => if d.blk.pageInL2 p then d.on fun _ b => b.absentWrite else f d)
    ha hd hr hf
  simp only [a3, Bool.false_eq_true, if_false] at e
  exact e

/-- A page that serves a command over BAR0 answers it there. -/
theorem Blk.opens_parts {b : Blk} {p : Nat} (h : b.opens p = true) :
    b.answers .bar0 = true ∧ b.reaches .bar0 p = true ∧ b.pageInL2 p = false ∧ b.fmwRefuses .bar0 (some p) = false := by
  simp only [Blk.opens, Bool.and_eq_true, Bool.not_eq_true'] at h
  exact ⟨by simpa [Blk.answers, Blk.served] using h.1.1, h.1.2, h.2, rfl⟩

/-- A command to a page over BAR0. -/
theorem State.onPage_bar0 {s : State} {p : Nat} (f : Fuse → Blk → Blk) (h : s.blk.opens p = true) :
    s.onPage .bar0 p f = .next (s.settled (f s.fuse s.blk.clear)) := by
  obtain ⟨h1, h2, h3, h4⟩ := Blk.opens_parts h
  exact State.onPageDie_reached _ h1 (by decide) h4 h2 h3

/-- A write to a page whose block is in an L2 reset is discarded and counted (R572). -/
theorem State.onPage_bar0_l2 {s : State} {p : Nat} (f : Fuse → Blk → Blk) (ha : s.blk.answers .bar0 = true) (hr : s.blk.reaches .bar0 p = true)
    (hl : s.blk.pageInL2 p = true) : s.onPage .bar0 p f = .next (s.settled s.blk.clear.absentWrite) := by
  have a3 : s.blk.clear.pageInL2 p = true := hl
  have e := State.onPath_reached (s := s) (path := .bar0) (page := some p)
    (fun d => if d.blk.pageInL2 p then d.on fun _ b => b.absentWrite else d.on f) ha (by decide) hr rfl
  simp only [a3, if_true] at e
  exact e

/-- Nothing takes a command to a page over a path on which the part does not answer. -/
theorem State.onPageDie_dead {s : State} {path : Path} {p : Nat} (f : Die → Die) (ha : s.blk.answers path = false) :
    s.onPageDie path p f = .next (s.plain s.blk.clear) := State.onPath_dead _ ha
theorem State.onPage_dead {s : State} {path : Path} {p : Nat} (f : Fuse → Blk → Blk) (ha : s.blk.answers path = false) :
    s.onPage path p f = .next (s.plain s.blk.clear) := State.onPath_dead _ ha
theorem State.onPageNumber_dead {s : State} {path : Path} {n : Nat} (f : Nat → Blk → Blk) (ha : s.blk.answers path = false) :
    s.onPageNumber path n f = .next (s.plain s.blk.clear) := by
  unfold State.onPageNumber
  split
  · exact State.onPage_dead _ ha
  · exact State.onPath_dead _ ha

end Sys2Proof.Machine
end

