-- ==== Sys2Proof/Laws/Ops.lean ====
section
/-! SUPPORT. What the shared operations leave alone: registers, counters, errors and command registers move fields only; a port, the AON island and
what is driven each move themselves only. -/
namespace Sys2Proof.Machine

/-! ### Operations on fields -/

theorem Blk.onlyFields_refl (b : Blk) : b.onlyFields b := ⟨rfl, rfl, rfl, rfl, rfl, rfl, rfl, rfl, rfl, rfl, rfl, rfl, rfl⟩

theorem Blk.onlyFields_trans {a b c : Blk} (h : a.onlyFields b) (k : b.onlyFields c) : a.onlyFields c := by
  obtain ⟨h1, h2, h3, h4, h5, h6, h7, h8, h9, h10, h11, h12, h13⟩ := h
  obtain ⟨k1, k2, k3, k4, k5, k6, k7, k8, k9, k10, k11, k12, k13⟩ := k
  exact ⟨h1.trans k1, h2.trans k2, h3.trans k3, h4.trans k4, h5.trans k5, h6.trans k6, h7.trans k7, h8.trans k8, h9.trans k9, h10.trans k10,
    h11.trans k11, h12.trans k12, h13.trans k13⟩

theorem Blk.put_only (b : Blk) (f : Fld) (v i : Nat) : (b.put f v i).onlyFields b :=
  ⟨rfl, rfl, rfl, rfl, rfl, rfl, rfl, rfl, rfl, rfl, rfl, rfl, rfl⟩

theorem Blk.clearEntry_only (b : Blk) (sp : Space) (i : Nat) : (b.clearEntry sp i).onlyFields b :=
  ⟨rfl, rfl, rfl, rfl, rfl, rfl, rfl, rfl, rfl, rfl, rfl, rfl, rfl⟩

theorem Blk.puts_only (i : Nat) : ∀ (l : List (Fld × Nat)) (b : Blk), (b.puts i l).onlyFields b
  | [], b => b.onlyFields_refl
  | (f, v) :: l, b => Blk.onlyFields_trans (Blk.puts_only i l (b.put f v i)) (b.put_only f v i)

theorem Blk.countN_only (b : Blk) (f : Fld) (n i : Nat) : (b.countN f n i).onlyFields b := by
  unfold Blk.countN
  dsimp only
  split
  · exact b.put_only _ _ _
  · exact Blk.onlyFields_trans (Blk.put_only _ _ _ _) (b.put_only _ _ _)

theorem Blk.count_only (b : Blk) (f : Fld) (i : Nat) : (b.count f i).onlyFields b := b.countN_only f 1 i

theorem Blk.mark_only (b : Blk) (f : Fld) (v : Nat) : (b.mark f v).onlyFields b := by
  unfold Blk.mark
  split
  · exact b.put_only _ _ _
  · exact b.onlyFields_refl

theorem Blk.errInfo_only (b : Blk) (p n info : Nat) : (b.errInfo p n info).onlyFields b := by
  unfold Blk.errInfo
  dsimp only
  split <;> split <;> split <;> exact Blk.put_only _ _ _ _

theorem Blk.err_only (b : Blk) (p n : Nat) : (b.err p n).onlyFields b := b.errInfo_only p n 0

theorem Blk.cmdStart_only (b : Blk) (c : CmdReg) : (b.cmdStart c).onlyFields b :=
  Blk.onlyFields_trans (Blk.put_only _ _ _ _) (b.put_only _ _ _)

theorem Blk.cmdEnd_only (b : Blk) (c : CmdReg) (code : Nat) : (b.cmdEnd c code).onlyFields b :=
  ⟨rfl, rfl, rfl, rfl, rfl, rfl, rfl, rfl, rfl, rfl, rfl, rfl, rfl⟩

theorem Blk.cmdEndRej_only (b : Blk) (c : CmdReg) (rej code : Nat) : (b.cmdEndRej c rej code).onlyFields b := by
  unfold Blk.cmdEndRej
  dsimp only
  split
  · exact b.cmdEnd_only c code
  · exact Blk.onlyFields_trans (Blk.err_only _ _ _) (b.cmdEnd_only c code)

/-- A command register's commands are taken one at a time: a further one finds `busy` and moves fields only (R564). -/
theorem Blk.cmd_busy_only (b : Blk) (c : CmdReg) (rej : Option Nat) (run : Blk → Blk) (h : b.get c.done = 0) :
    (b.cmd c rej run).onlyFields b := by
  unfold Blk.cmd
  rw [if_pos h]
  dsimp only
  split
  · exact Blk.onlyFields_trans (Blk.err_only _ _ _) (b.put_only _ _ _)
  · exact b.put_only _ _ _

/-- One that is taken runs from the accepted state. -/
theorem Blk.cmd_taken (b : Blk) (c : CmdReg) (rej : Option Nat) (run : Blk → Blk) (h : b.get c.done ≠ 0) :
    b.cmd c rej run = run (b.cmdStart c) := if_neg h

/-! ### A port, the AON island, what is driven -/

@[simp] theorem Blk.setPort_fs (b : Blk) (n : Nat) (f : Port → Port) : (b.setPort n f).fs = b.fs := rfl
@[simp] theorem Blk.setPort_t (b : Blk) (n : Nat) (f : Port → Port) : (b.setPort n f).t = b.t := rfl
@[simp] theorem Blk.setPort_el (b : Blk) (n : Nat) (f : Port → Port) : (b.setPort n f).el = b.el := rfl
@[simp] theorem Blk.setPort_held (b : Blk) (n : Nat) (f : Port → Port) : (b.setPort n f).held = b.held := rfl
@[simp] theorem Blk.setPort_freeCtr (b : Blk) (n : Nat) (f : Port → Port) : (b.setPort n f).freeCtr = b.freeCtr := rfl
@[simp] theorem Blk.setPort_sw (b : Blk) (n : Nat) (f : Port → Port) : (b.setPort n f).sw = b.sw := rfl
@[simp] theorem Blk.setPort_home (b : Blk) (n : Nat) (f : Port → Port) : (b.setPort n f).home = b.home := rfl
@[simp] theorem Blk.setPort_store (b : Blk) (n : Nat) (f : Port → Port) : (b.setPort n f).store = b.store := rfl
@[simp] theorem Blk.setPort_tier (b : Blk) (n : Nat) (f : Port → Port) : (b.setPort n f).tier = b.tier := rfl
@[simp] theorem Blk.setPort_orig (b : Blk) (n : Nat) (f : Port → Port) : (b.setPort n f).orig = b.orig := rfl
@[simp] theorem Blk.setPort_eng (b : Blk) (n : Nat) (f : Port → Port) : (b.setPort n f).eng = b.eng := rfl
@[simp] theorem Blk.setPort_prot (b : Blk) (n : Nat) (f : Port → Port) : (b.setPort n f).prot = b.prot := rfl
@[simp] theorem Blk.setPort_peat (b : Blk) (n : Nat) (f : Port → Port) : (b.setPort n f).peat = b.peat := rfl
@[simp] theorem Blk.setPort_pcie (b : Blk) (n : Nat) (f : Port → Port) : (b.setPort n f).pcie = b.pcie := rfl
@[simp] theorem Blk.setPort_aon (b : Blk) (n : Nat) (f : Port → Port) : (b.setPort n f).aon = b.aon := rfl
@[simp] theorem Blk.setPort_emits (b : Blk) (n : Nat) (f : Port → Port) : (b.setPort n f).emits = b.emits := rfl
@[simp] theorem Blk.setPort_get (b : Blk) (n : Nat) (f : Port → Port) (g : Fld) (i : Nat) : (b.setPort n f).get g i = b.get g i := rfl
@[simp] theorem Blk.setAon_fs (b : Blk) (f : Aon → Aon) : (b.setAon f).fs = b.fs := rfl
@[simp] theorem Blk.setAon_t (b : Blk) (f : Aon → Aon) : (b.setAon f).t = b.t := rfl
@[simp] theorem Blk.setAon_el (b : Blk) (f : Aon → Aon) : (b.setAon f).el = b.el := rfl
@[simp] theorem Blk.setAon_held (b : Blk) (f : Aon → Aon) : (b.setAon f).held = b.held := rfl
@[simp] theorem Blk.setAon_freeCtr (b : Blk) (f : Aon → Aon) : (b.setAon f).freeCtr = b.freeCtr := rfl
@[simp] theorem Blk.setAon_ports (b : Blk) (f : Aon → Aon) : (b.setAon f).ports = b.ports := rfl
@[simp] theorem Blk.setAon_sw (b : Blk) (f : Aon → Aon) : (b.setAon f).sw = b.sw := rfl
@[simp] theorem Blk.setAon_home (b : Blk) (f : Aon → Aon) : (b.setAon f).home = b.home := rfl
@[simp] theorem Blk.setAon_store (b : Blk) (f : Aon → Aon) : (b.setAon f).store = b.store := rfl
@[simp] theorem Blk.setAon_tier (b : Blk) (f : Aon → Aon) : (b.setAon f).tier = b.tier := rfl
@[simp] theorem Blk.setAon_orig (b : Blk) (f : Aon → Aon) : (b.setAon f).orig = b.orig := rfl
@[simp] theorem Blk.setAon_eng (b : Blk) (f : Aon → Aon) : (b.setAon f).eng = b.eng := rfl
@[simp] theorem Blk.setAon_prot (b : Blk) (f : Aon → Aon) : (b.setAon f).prot = b.prot := rfl
@[simp] theorem Blk.setAon_peat (b : Blk) (f : Aon → Aon) : (b.setAon f).peat = b.peat := rfl
@[simp] theorem Blk.setAon_pcie (b : Blk) (f : Aon → Aon) : (b.setAon f).pcie = b.pcie := rfl
@[simp] theorem Blk.setAon_emits (b : Blk) (f : Aon → Aon) : (b.setAon f).emits = b.emits := rfl
@[simp] theorem Blk.setAon_get (b : Blk) (f : Aon → Aon) (g : Fld) (i : Nat) : (b.setAon f).get g i = b.get g i := rfl
@[simp] theorem Blk.emit_fs (b : Blk) (e : Emit) : (b.emit e).fs = b.fs := rfl
@[simp] theorem Blk.emit_t (b : Blk) (e : Emit) : (b.emit e).t = b.t := rfl
@[simp] theorem Blk.emit_el (b : Blk) (e : Emit) : (b.emit e).el = b.el := rfl
@[simp] theorem Blk.emit_held (b : Blk) (e : Emit) : (b.emit e).held = b.held := rfl
@[simp] theorem Blk.emit_freeCtr (b : Blk) (e : Emit) : (b.emit e).freeCtr = b.freeCtr := rfl
@[simp] theorem Blk.emit_ports (b : Blk) (e : Emit) : (b.emit e).ports = b.ports := rfl
@[simp] theorem Blk.emit_sw (b : Blk) (e : Emit) : (b.emit e).sw = b.sw := rfl
@[simp] theorem Blk.emit_home (b : Blk) (e : Emit) : (b.emit e).home = b.home := rfl
@[simp] theorem Blk.emit_store (b : Blk) (e : Emit) : (b.emit e).store = b.store := rfl
@[simp] theorem Blk.emit_tier (b : Blk) (e : Emit) : (b.emit e).tier = b.tier := rfl
@[simp] theorem Blk.emit_orig (b : Blk) (e : Emit) : (b.emit e).orig = b.orig := rfl
@[simp] theorem Blk.emit_eng (b : Blk) (e : Emit) : (b.emit e).eng = b.eng := rfl
@[simp] theorem Blk.emit_prot (b : Blk) (e : Emit) : (b.emit e).prot = b.prot := rfl
@[simp] theorem Blk.emit_peat (b : Blk) (e : Emit) : (b.emit e).peat = b.peat := rfl
@[simp] theorem Blk.emit_pcie (b : Blk) (e : Emit) : (b.emit e).pcie = b.pcie := rfl
@[simp] theorem Blk.emit_aon (b : Blk) (e : Emit) : (b.emit e).aon = b.aon := rfl
@[simp] theorem Blk.emit_get (b : Blk) (e : Emit) (g : Fld) (i : Nat) : (b.emit e).get g i = b.get g i := rfl
@[simp] theorem Blk.setAon_aon (b : Blk) (f : Aon → Aon) : (b.setAon f).aon = f b.aon := rfl
@[simp] theorem Blk.emit_emits (b : Blk) (e : Emit) : (b.emit e).emits = b.emits ++ [e] := rfl

end Sys2Proof.Machine
end

