-- ==== Sys2Proof/Machine/Flags.lean ====
section
/-! DEFINITION. The signals the part drives, as functions of its state: ALERT_N (R535), THERM_TRIP_N and the rail requests (R475, R478,
R584), and the interrupt a page raises. -/
namespace Sys2Proof.Machine

/-- ALERT_N is driven low: some page holds an unmasked device-fatal sticky bit, and the MGMT output group is enabled (R535). -/
def Blk.alertLow (b : Blk) : Bool := b.fatalAny && bitAt (b.get Reg.GLB_PIN_EN_GROUPS) 3

/-- THERM_TRIP_N is driven low (R475). -/
def Blk.thermTripLow (b : Blk) : Bool := b.aon.trip

/-- RAIL_REQ of a rail group: 0 HBM, 1 CORE, 2 IO. -/
def Blk.railReq (b : Blk) (g : Nat) : Bool := b.aon.reqs.contains g

/-- A page's INT_STATUS holds a bit that INT_ENABLE enables (R576). -/
def Blk.pageInterrupts (b : Blk) (p : Nat) : Bool := b.pageInt p

end Sys2Proof.Machine
end

