-- ==== Sys2Proof/WellFormed.lean ====
section
/-! DEFINITION. What a command's operands must satisfy to be one the outside can send; operands of a fixed range have it in their type. -/
namespace Sys2Proof
open Machine

/-- A frame carries a given operation. -/
def frameIs (opc : Nat) (f : Frame) : Bool := f.opc.toNat == opc

/-- An access has a width of 4 or 8 bytes, at an aligned offset (R557); one over PCIe is a TLP within 4 KiB, `holes` naming bytes of it that are not
enabled (R558). -/
def accessForm (path : Machine.Path) (off width : Nat) (holes : List Nat) : Bool :=
  if path = .bar0 then decide (1 ≤ width) && decide (off % 4096 + width ≤ 4096) && holes.all fun k => decide (k < width)
  else (width == 4 || width == 8) && off % width == 0 && holes == []

/-- A value lies in `width` bytes. -/
def fitsIn (width v : Nat) : Bool := decide (v < 2 ^ (8 * width))

/-- A block of the lower tier: 1,024 lines with 16 CRCs, each of 32 bits (Table 8.6). -/
def blockForm (data : List Line) (crcs : List Nat) : Bool := data.length == 1024 && crcs.length == 16 && crcs.all (fitsIn 4 ·)

/-- Tiles, or stacks, of a list exist. -/
def below (n : Nat) (l : List Nat) : Bool := l.all fun x => decide (x < n)

/-- A temperature the sensors can report: signed, 8 bits (Table 16.14). -/
def sensorRange (tj : Int) : Bool := decide (-128 ≤ tj) && decide (tj < 128)

/-- What a self-test finds: tiles with the canary that fails, or 0xFFFF (Table 18.12), and stacks. -/
def testForm (tiles : List (Nat × Nat)) (stks : List Nat) : Bool :=
  below 96 (tiles.map (·.1)) && below 65536 (tiles.map (·.2)) && below 12 stks

/-- What units outside hand back names blocks, tiles and stacks that exist. -/
def worldForm (w : World) : Bool :=
  ((w.marks ++ w.bad).all fun m => decide (m.1 < 32) && decide (m.2.1 < 16) && decide (m.2.2 < 8192)) && testForm w.tiles w.stks

/-- The tries at the codewords of a read (R286): each is of a step, what decoded is a sub-block, and a row's pages give whole codewords. -/
def triesForm (tries : List (List Try)) : Bool :=
  tries.all fun l => l.all fun t => 1 ≤ t.step && t.step ≤ 4 && (!t.good || t.data.length == 64) && t.row.all fun c => c.length == 72

/-- An access at Sedge moves 1 to 64 bytes (R311). -/
def accForm (a : SedgeAcc) : Bool :=
  match a.act with
  | .read _ n => 1 ≤ n && n ≤ 64
  | .winRead _ _ n => 1 ≤ n && n ≤ 64
  | .write _ l => 1 ≤ l.length && l.length ≤ 64
  | .winWrite _ _ l => 1 ≤ l.length && l.length ≤ 64
  | .own .. | .advance .. => true

/-- The operands of a command are ones the outside can send. -/
def Instr.wellFormed : Instr → Bool
  | .rdLine f => frameIs Opc.rdLine f
  | .rdShared f => frameIs Opc.rdShared f
  | .rdOwn f => frameIs Opc.rdOwn f
  | .rdLineNa f => frameIs Opc.rdLineNa f
  | .rdVol f => frameIs Opc.rdVol f
  | .wrLine f => frameIs Opc.wrLine f
  | .wrPartial f => frameIs Opc.wrPartial f
  | .wrLineFinal f => frameIs Opc.wrLineFinal f
  | .wrSignal f => frameIs Opc.wrSignal f
  | .add f => frameIs Opc.add f
  | .and_ f => frameIs Opc.and f
  | .or_ f => frameIs Opc.or f
  | .xor_ f => frameIs Opc.xor f
  | .swap f => frameIs Opc.swap f
  | .cas f => frameIs Opc.cas f
  | .minS f => frameIs Opc.minS f
  | .maxS f => frameIs Opc.maxS f
  | .minU f => frameIs Opc.minU f
  | .maxU f => frameIs Opc.maxU f
  | .minF32 f => frameIs Opc.minF32 f
  | .maxF32 f => frameIs Opc.maxF32 f
  | .fadd32 f => frameIs Opc.fadd32 f
  | .faddExact f => frameIs Opc.faddExact f
  | .snpAck f => frameIs Opc.snpAck f
  | .grantAck f => frameIs Opc.grantAck f
  | .wbDirty f => frameIs Opc.wbDirty f
  | .rspData f => frameIs Opc.rspData f
  | .rspAck f => frameIs Opc.rspAck f
  | .rspErr f => frameIs Opc.rspErr f
  | .retryRsv f => frameIs Opc.retryRsv f
  | .tierFetchComplete _ data word crcs => blockForm data crcs && fitsIn 8 word
  | .passThroughComplete _ _ data word crc => data.length == 64 && fitsIn 8 word && fitsIn 4 crc
  | .peatFormat marks => worldForm { marks }
  | .peatCheckpoint bad => worldForm { bad }
  | .ckptTimer bad => worldForm { bad }
  | .nandReadComplete _ tries => triesForm tries
  | .retentionScrub _ tries => triesForm tries
  | .channelTrain _ _ dies => dies.all fun g => fitsIn 4 g.blocks && fitsIn 4 g.pages && fitsIn 4 g.data && fitsIn 4 g.spare && fitsIn 4 g.planes
  | .sedgeOwnerWrite _ _ _ _ _ _ before => before.all accForm
  | .cbwCountAdvance _ _ _ _ _ _ _ before => before.all accForm
  | .bar4Read _ _ len => 1 ≤ len && len ≤ 4096
  | .bar4Write _ _ bytes => 1 ≤ bytes.length && bytes.length ≤ 4096
  | .bar4Atomic _ off _ size x y => (size == 4 || size == 8 || size == 16) && off % size == 0 && fitsIn size x.toNat && fitsIn size y.toNat
  | .bar2Doorbell _ _ len _ v => 1 ≤ len && fitsIn len v.toNat
  | .pcieLinkTrain _ width => [1, 4, 8, 16].contains width
  | .pcieConfigWrite _ c => [128, 256, 512].contains c.mps && [128, 256, 512, 1024, 2048, 4096].contains c.mrrs && c.vfs ≤ 64
  | .resetRelease o => below 12 o.badStacks && below 96 (o.badTiles.map (·.1)) && o.stall ≤ 9 && below 4096 o.lostKeys && worldForm o.world
  | .thermalTrip tj => sensorRange tj
  | .thermalRelease tj => sensorRange tj
  | .canaryTempTrigger tj fails => sensorRange tj && below 96 (fails.map (·.1))
  | .thermWarn tj => sensorRange tj
  | .vcoreStepSettled fails => below 96 (fails.map (·.1))
  | .selftestFull tiles stks => testForm tiles stks
  | .dbgPoke _ world => worldForm world
  | .registerWrite path off width v holes world => accessForm path off.toNat width holes && fitsIn width v && worldForm world
  | .rcFieldRead path off width holes => accessForm path off.toNat width holes
  | .tableRead path _ _ => path != .debug
  | .tableWrite path _ _ => path != .debug
  | .tableSelWrite path _ _ => path != .debug
  | .portEnable .. | .portDisable .. | .laneLockAcquired .. | .flitAligned .. | .fecLocked .. | .ctrlFlitReceive ..
  | .bringupStepTimeout .. | .bringupRetry .. | .dataFlitReceive .. | .idleFlitReceive .. | .replayTimeout ..
  | .laneLockLoss .. | .lockHoldExpire .. | .creditStarved .. | .frameSend .. | .frameHeaderReceive .. | .frameTailReceive ..
  | .frameStallTimeout .. | .egressGrant .. | .holeTimeout .. | .sloughFullLimit | .srcReset .. | .finalHoldRelease ..
  | .snoopTimeout .. | .grantAckTimeout .. | .tenureEnd .. | .rsvSlotExpire .. | .requestTimeout .. | .pendingRequestSend ..
  | .winInstall .. | .winDrain .. | .winRevokeNow .. | .revokeNowDone .. | .winBump .. | .winBumpSrc .. | .winFree ..
  | .drainDone .. | .drainDeadline .. | .restartEpochWrite .. | .fenPurge .. | .fenMemberSet .. | .predCfgWrite ..
  | .syncPoll .. | .syncDbgSetWord .. | .syncDbgFire .. | .stackTimeout .. | .scrubStep .. | .cryptLoad .. | .cryptZeroise ..
  | .protActivate .. | .protDeactivate .. | .protFreeze .. | .protThaw .. | .protRebuild .. | .tierPlace .. | .tierRetire ..
  | .tierFlush .. | .tierFetchFail .. | .tierWaitTimeout .. | .evictOne | .writeDownComplete .. | .writeDownTimeout ..
  | .heatSweep | .tierHandoffHandoff .. | .tierHandoffAccept .. | .tierHandoffRevert .. | .peatTrim
  | .peatMount .. | .peatProgramComplete .. | .rowCloseTimeout .. | .relocationStart | .relocationComplete
  | .eraseComplete .. | .programResume .. | .dieTimeout .. | .qmgrEnable .. | .qmgrStop ..
  | .qmgrResume .. | .qmgrReset .. | .queueBind | .descriptorFetch .. | .descriptorComplete .. | .nop .. | .move ..
  | .graphRun .. | .graphStageComplete .. | .syncWait .. | .syncSignal ..
  | .syncPublish .. | .embLookup .. | .embUpdate .. | .embGatherChunk .. | .embUpdateChunk .. | .embReplyTrailer ..
  | .embChunkTimeout .. | .embDefine .. | .embUndefine .. | .embStage .. | .embSlotRetire .. | .vseSearch ..
  | .vseSearchRound .. | .vseScanChunk .. | .vseReplyTrailer .. | .vseChunkTimeout .. | .vseRerank .. | .vseMutate ..
  | .vseCommitPoll .. | .vseCommitTimeout .. | .vseMerge .. | .vseDefine .. | .vseUndefine .. | .vseSlotRetire ..
  | .wstStream .. | .wstChunkStart .. | .wstAckTimeout .. | .functionLevelReset .. | .pcieLinkDown | .msixUnmask ..
  | .vaonPowerOn | .powerGoodRise .. | .powerGoodTimeout | .railLoss .. | .vaonLoss | .tcxoLoss | .tcxoTick | .perstAssert
  | .sysRstAssert | .watchdogExpire | .fatalEscalate | .glbRstSystem .. | .glbRstTenant .. | .dbgRstCmd ..
  | .resetMapSwWrite .. | .norWrite | .norVerify .. | .commitSvn | .norRecover | .p3Enter | .p3EntryAdvance | .p3EntryTimeout
  | .p4Enter | .wake .. | .gateIdleTimeout .. | .tileForceWrite .. | .vcoreTargetWrite .. | .powerCapSample .. | .secAdvance ..
  | .setOwner .. | .decommission .. | .attest | .secFmWrite .. | .dbgChallenge .. | .challengeExpire | .dbgUnlock .. | .dbgLock ..
  | .debugExpiry | .dbgHalt .. | .dbgResume .. | .dbgPeek .. | .i3cMctpRequest .. | .mgmtUdpRequest .. | .timeStepTo
  | .ptpSync .. | .masterLoss | .holdoverExpire | .ppsInEdge | .ppsInMiss | .beaconSend | .mgmtFence | .selftestTile ..
  | .selftestSlice | .sliceDrainTimeout | .sliceTestComplete .. | .canaryRun .. | .pageInject .. | .errStickyClear ..
  | .errCountClear .. | .errSeverityWrite .. | .errMaskWrite .. | .pageLockWrite .. | .counterOvfClear ..
  | .intStatusClear .. | .absentPageAccess .. | .tileSnap .. | .tcxoReturn | .ptpAnnounce .. | .avsbusTimeout | .powerUpRetry
  | .mergeWaitTimeout .. | .mgmtArpRequest .. => true

end Sys2Proof
end

