-- ==== Sys2Proof/Tests/Slice0.lean ====
section
/-! SUPPORT. Tests: ill-formed operands are refused, and each statement's hypotheses hold together of a state and operands written
down here. Each is one evaluation of a small state. -/
open Sys2Proof Sys2Proof.Machine
namespace Sys2Proof.Tests

/-- A part that serves, with fields set: (field, entry, value), and then changed by `f`. -/
def part (l : List (Fld × Nat × Nat)) (f : Blk → Blk := id) : State :=
  { blk := f (l.foldl (fun b x => b.put x.1 x.2.2 x.2.1) { aon := { mode := .run } }) }

/-- Its elapsed time is `n`. -/
def at_ (n : Nat) (b : Blk) : Blk := { b with el := n }

/-- A flit that passes its check. -/
def sealed_ (f : Flit) : Flit := { f with lcrc := .ofNat 32 (crc32c (f.covered)) }

/-- A part with stack 3 up alone. -/
def stacked : Blk := (part [(Reg.HBM_STATE_STACK_STATE, 3, Stk.up)]).blk

/-- Descriptor 4095 over bank 1, in a state, with fields set. -/
def placed (st cls : Nat) (l : List (Fld × Nat × Nat)) (f : Blk → Blk := id) : Blk :=
  (part ([(Reg.place_STATE, 4095, st), (Reg.place_CLASS, 4095, cls), (Reg.place_LOCAL_BASE, 4095, 1), (Reg.place_SIZE, 4095, 1),
    (Reg.place_TENANT, 4095, 42), (Reg.slot_LOADED, 42, 1)] ++ l) f).blk

/-- The first descriptor of queue 1. -/
def first (op : Nat) : Work := { id := 1, queue := 1, desc := op, phase := .fetched }

/-- A part with works of queue 1 (index 0 each). -/
def working (ws : List Work) (l : List (Fld × Nat × Nat) := []) (f : Engines → Engines := id) : Blk :=
  (part l fun b => { at_ (secs 1) b with eng := f { b.eng with works := ws } }).blk

theorem get_of_mem {α : Type} (d v : α) (g : Nat → Nat) (m : List (Nat × α)) (a : Nat) :
    ∀ l : List Nat, a ∈ l → Sparse.get d (l.map (fun k => (g k, v)) ++ m) (g a) = v
  | k :: l, h => by
    simp only [List.map_cons, List.cons_append, Sparse.get]
    split
    · rfl
    · exact get_of_mem d v g m a l (by rcases List.mem_cons.mp h with rfl | h; · contradiction
                                       · exact h)

theorem get_past {α : Type} (d : α) (m : List (Nat × α)) (a : Nat) :
    ∀ l : List (Nat × α), (∀ e ∈ l, e.1 < a) → Sparse.get d (l ++ m) a = Sparse.get d m a
  | [], _ => rfl
  | e :: l, h => by
    obtain ⟨k, v⟩ := e
    have hk : k < a := h (k, v) (by simp)
    rw [List.cons_append, Sparse.get, if_neg (by omega)]
    exact get_past d m a l fun e he => h e (by simp [he])

theorem test_witness_IdlePartSettles :
    let b := (part [] fun b => b.setAon fun a => { a with low := false }).blk
    b.idle = true ∧ b.alive = true := by decide +kernel

theorem test_witness_NothingAnswersInReset :
    State.reset.blk.alive = false ∧ State.reset.blk.pcieOn = false ∧ (part [(Reg.DBG_STATE_LEVEL, 0, 3)]).blk.level = 3 ∧
    (Instr.secAdvance .bar0).ofBoard = false ∧ (Instr.secAdvance .bar0).ofLink = false ∧ (Instr.secAdvance .bar0).byJtag = false ∧
    Instr.pcieLinkDown.ofLink = true := by decide +kernel

theorem test_witness_FusesOnlyGain_LifecycleGoesOn :
    Sys2Proof.Machine.step State.reset = .next State.reset ∧ ({ fuse := { lc := 7 } } : State).fuse.life = 3 := ⟨rfl, by decide⟩

theorem test_witness_FramesSurviveSending :
    (({} : Frame).pl = false → ({} : Frame).data = 0) ∧ ((({ pl := true, data := BitVec.allOnes 512 } : Frame).pl = false) → False) := by decide +kernel

theorem test_witness_LinkBringUp :
    ((part []).blk.opens (Pg.fqp 23) = true ∧ (part []).blk.aon.mode = .run ∧ (part []).blk.get Reg.FQP_CTRL_ENABLE 23 = 0) ∧
    (let b := (part [(Reg.FQP_CTRL_ENABLE, 23, 1), (Reg.FQP_STATE_LINK_STATE, 23, Ls.down)] (at_ (ms 10))).blk
     b.opens (Pg.fqp 23) = true ∧ b.on = true ∧ b.get Reg.FQP_CTRL_ENABLE 23 = 1 ∧ b.resting 23 = true ∧
       b.past (b.port 23).start (ms 10) = true ∧ 23 < b.ports.length) ∧
    ((part [(Reg.FQP_STATE_LINK_STATE, 0, Ls.lock)]).blk.get Reg.FQP_STATE_LINK_STATE 0 = Ls.lock ∧
     (part [(Reg.FQP_STATE_LINK_STATE, 0, Ls.align)]).blk.get Reg.FQP_STATE_LINK_STATE 0 = Ls.align ∧
     (part [(Reg.FQP_STATE_LINK_STATE, 0, Ls.fec)]).blk.get Reg.FQP_STATE_LINK_STATE 0 = Ls.fec) ∧
    (∀ k : Fin 4, let b := (part [(Reg.FQP_STATE_LINK_STATE, 23, k.val + 1)] (at_ (stepBound (k.val + 1)))).blk
     b.on = true ∧ 1 ≤ b.get Reg.FQP_STATE_LINK_STATE 23 ∧ b.get Reg.FQP_STATE_LINK_STATE 23 ≤ 4 ∧ (b.port 23).stay = false ∧
       b.past (b.port 23).stepAt (stepBound (b.get Reg.FQP_STATE_LINK_STATE 23)) = true) := by decide +kernel

theorem test_witness_LinkBringUp_control :
    let b := (part [(Reg.FQP_STATE_LINK_STATE, 23, Ls.init), (Reg.FQP_CTRL_ROLE, 23, 1)]).blk
    let f := sealed_ { typ := 3, bytes := 0x1003F }
    b.on = true ∧ b.get Reg.FQP_STATE_LINK_STATE 23 = Ls.init ∧ (b.port 23).stay = false ∧ f.good = true ∧ f.typ = 3 ∧
    b.get Reg.FQP_CTRL_ROLE 23 = 1 ∧ bits f.bytes.toNat 23 16 = 1 ∧ bits f.bytes.toNat 15 0 ≤ 0x3F ∧
    b.grantUsed + (b.grants 23).foldl (· + ·) 0 ≤ 2621440 := by decide +kernel

/-- A part whose port 0 is up, with the port changed by `f`. -/
def linked (f : Port → Port) (l : List (Fld × Nat × Nat) := []) : Blk :=
  (part ([(Reg.FQP_STATE_LINK_STATE, 0, Ls.up), (Reg.FQP_CTRL_ROLE, 0, 1)] ++ l) fun b => (at_ (ms 1) b).setPort 0 f).blk

theorem test_witness_FlitsAndReplay :
    (let b := linked id
     let f := sealed_ { valid := 236 }
     let g := sealed_ { typ := 2, lseq := 4095 }
     let bad : Flit := { typ := 2, lcrc := 1 }
     b.on = true ∧ b.up 0 = true ∧ f.good = true ∧ f.typ = 1 ∧ f.lseq.toNat = (b.port 0).rxNext ∧ 1 ≤ f.valid.toNat ∧ f.valid.toNat ≤ 236 ∧
       g.good = true ∧ g.typ = 2 ∧ (g.lseq.toNat + 4096 + 1 - (b.port 0).rxNext) % 4096 = 0 ∧ bad.good = false) ∧
    (∀ late : Bool, let e : QEnt := { id := 1, fr := { tc := 3 }, eg := 0 }
     let h : TxFlit := { lseq := 0, ent := e, part := .whole, sent := 0, first := if late then 0 else ms 1 - us 2 }
     let b := linked fun q => { q with unacked := [h], lost := [7], out := [e] }
     (b.port 0).unacked = h :: [] ∧ b.up 0 = true ∧ b.past h.sent (us 2) = true ∧ b.past h.first (us 10) = late ∧ (b.port 0).lost ≠ [] ∧
       b.past (b.port 0).lostAt (us (b.get Reg.FQP_TIMING_LOCK_HOLD_US 0)) = true ∧ (b.port 0).out.any (fun e => e.fr.tc.toNat == 3) = true ∧
       b.past (nth 0 (b.port 0).starved 3) (ms 1) = true) := by decide +kernel

theorem test_witness_FramesAtAPort :
    (let e : QEnt := { id := 1, fr := { pl := true, tc := 3 }, eg := 0 }
     let b := linked fun q => { q with out := [e], crd := [0, 0, 0, 13] }
     b.on = true ∧ b.up 0 = true ∧ (b.port 0).sending = none ∧ (b.port 0).unacked.length < 2048 ∧
       (b.clear.classPick ((0 * 8 + 6) * 16) (b.mayStart 0)).map (·.1) = some 3 ∧ b.firstOut 0 3 = some e ∧ e.done = true) ∧
    (let fr : Frame := { dst := 3, opc := 1, tc := 1 }
     let b := linked (fun q => { q with rx := fr.sealed.bytes }) [(Reg.GLB_NODE_ID_NODE, 0, 3), (Reg.route_V, 3, 1), (Reg.route_LOCAL, 3, 1)]
     (b.port 0).hdr = none ∧ (b.port 0).drop = 0 ∧ 32 ≤ (b.port 0).rx.length ∧
       fr = Frame.ofHeader (ofBytesLE ((b.port 0).rx.take 32)) ∧ fr.mc = false ∧ b.admits 0 fr = true ∧
       b.route fr.src.toNat fr.dst.toNat fr.tc.toNat = .deliver) ∧
    (let fr : Frame := ({ dst := 3, opc := 1, tc := 1 } : Frame).sealed
     let b := linked fun q => { q with rx := fr.bytes, hdr := some ⟨1, Frame.ofHeader fr.header, 0⟩ }
     (b.port 0).hdr = some ⟨1, Frame.ofHeader fr.header, 0⟩ ∧ fr.len ≤ (b.port 0).rx.length ∧
       fr = (Frame.ofHeader fr.header).withRest (ofBytesLE (((b.port 0).rx.take (fr.len - 8)).drop 32)) (ofBytesLE (((b.port 0).rx.take fr.len).drop (fr.len - 8))) ∧
       fr.endc = 0 ∧ fr.crcOk = true) ∧
    (let b := linked fun q => { q with rx := [0] }
     (b.port 0).drop = 0 ∧ (b.port 0).rx ≠ [] ∧ (b.port 0).wholeIn = false ∧ b.past (b.port 0).rxAt (us (b.stallUs 0)) = true) := by decide +kernel

theorem test_witness_SwitchCommands :
    (let e : QEnt := { id := 1, fr := { tc := 1 }, eg := 24 }
     let b := (part [] fun b => { at_ (secs 1) b with sw := { b.sw with queue := [e] } }).blk
     b.on = true ∧ b.mayGrant 24 = true ∧ b.aged 24 = some e) ∧
    (let st : Stream := { sink := 24, src := 0x52, dst := 3, tc := 1, held := [(1, { id := 1, fr := {}, eg := 24 })] }
     let b := (part [] fun b => { at_ (ms 10) b with sw := { b.sw with streams := [st], fullSince := some 0 } }).blk
     b.stream 24 0x52 3 1 = st ∧ st.held ≠ [] ∧ b.past st.timer (us (b.get Reg.SWC_RESEQ_HOLE_US)) = true) ∧
    (let b := (part [] fun b => { at_ (secs 10) b with sw := { b.sw with fullSince := some 0 } }).blk
     b.sw.fullSince = some 0 ∧ b.past 0 (ms (b.get Reg.SLOUGH_THRESH_FULL_LIMIT_MS)) = true) ∧
    ((part []).blk.opens Pg.swc = true ∧ (part []).blk.get Reg.SWC_CMD_STATUS_DONE = 1) := by decide +kernel

theorem test_witness_LinesAndAtomics :
    stacked.lostAt 0 = false ∧ (2047 / 1024 = 1 ∧ stacked.lostAt 2047 = false) ∧
    (let f : Frame := { opc := 0x25, arg := 1, data := 5 }
     let l : Line := 5 <<< 448
     f.op ≠ Opc.faddExact ∧ 56 + f.width ≤ 64 ∧ f.op = Opc.cas ∧ lineGet l 56 f.width = lineGet f.data 0 f.width ∧
       lineGet 0 56 f.width ≠ lineGet f.data 0 f.width) ∧
    (∀ o ∈ [Opc.add, Opc.and, Opc.or, Opc.xor, Opc.swap, Opc.cas, Opc.minS, Opc.maxS, Opc.minU, Opc.maxU, Opc.minF32, Opc.maxF32, Opc.fadd32,
       Opc.faddExact], ∀ arg : Fin 2, let f : Frame := { opc := .ofNat 8 o, arg := .ofNat 32 arg.val, data := .ofNat 512 0x7F800001 }
     f.op = o ∧ 60 + f.width ≤ 64 + 4 * arg.val ∧ (arg = 0 → f.width = 4) ∧
       (f.width = 4 → f32Nan (lineGet f.data 0 f.width) = true) ∧ f32Nan (lineGet 0 0 4) = false) := by decide +kernel

/-- A window of tenant 42 for requesters, active over the page at index 0x100. -/
def window42 : List (Fld × Nat × Nat) := [
  (Reg.window_STATE, 7, Ws.active), (Reg.window_TENANT, 7, 42), (Reg.window_SRC_LO, 7, 0x40), (Reg.window_SRC_HI, 7, 0xFFFF), (Reg.window_RD, 7, 1),
  (Reg.window_IN_BASE, 7, 0x100), (Reg.window_LOCAL_BASE, 7, 0x80), (Reg.window_SIZE, 7, 1)]

/-- A read of a line of that window. -/
def read42 : Frame := { src := 0x52, tc := 1, tenant := 42, addr := 0x400000040, opc := 1 }

theorem test_witness_RequestsArrive :
    (part []).blk.on = true ∧ (part []).blk.comesHome (read42.as Opc.rdLine) = false ∧
    (let b := linked id window42
     let f := read42.as Opc.rdLine
     b.on = true ∧ b.comesHome f = true ∧ f.check = none ∧ b.fenced = false ∧ b.windowStage f = .pass 7 0x200000040 ∧
       b.comesHome (read42.as Opc.cas) = true ∧ (read42.as Opc.cas).check = some St.malformed) ∧
    (let b := linked id
     b.comesHome (read42.as Opc.rdLine) = true ∧ b.fenced = false ∧ b.windowStage (read42.as Opc.rdLine) = .refuse St.unmapped none false) ∧
    (let b := linked id [(Reg.PAGE_STATUS_FENCED, Pg.win, 1)]
     b.comesHome (read42.as Opc.rdLine) = true ∧ (read42.as Opc.rdLine).check = none ∧ b.fenced = true) := by decide +kernel

/-- A part with member 3 at node 0x52, and a directory entry for its line 1 as granted to it. -/
def member3 (l : List (Fld × Nat × Nat)) (f : Home → Home) : Blk :=
  (part ([(Reg.FQP_STATE_LINK_STATE, 0, Ls.up), (Reg.FQP_CTRL_ROLE, 0, 1), (Reg.member_V, 3, 1), (Reg.member_NODE, 3, 0x52), (Reg.dir_V, 16 * dirSet 1, 1), (Reg.dir_LINE, 16 * dirSet 1, 1),
    (Reg.dir_IN_LINE, 16 * dirSet 1, 0x10000001), (Reg.dir_TENANT, 16 * dirSet 1, 42)] ++ l) fun b => { at_ (secs 1) b with home := f b.home }).blk

theorem test_witness_HoldersAndTimers_frames :
    let f := { read42 with tc := 0 }
    let i := 16 * dirSet 1
    let late := member3 [] id
    (f.tc = 0 ∧ late.on = true ∧ f.restart.toNat = late.restart ∧ ({ f with restart := 1 } : Frame).restart.toNat ≠ late.restart ∧
      late.comesHome (f.as Opc.wbDirty) = true ∧ late.comesHome ({ f with restart := 1 }.as Opc.snpAck) = true ∧ (f.as Opc.wbDirty).cohOk = false) ∧
    (let sn : Snoop := { fen := 3, idx := i, opc := Opc.snpShr, reason := 0, tag := 0, sent := 0 }
     let b := member3 [] fun h => { h with snoops := [sn] }
     b.fenced = false ∧ b.fenOf f.src.toNat = some 3 ∧ b.comesHome (f.as Opc.snpAck) = true ∧ (f.as Opc.snpAck).cohOk = true ∧
       b.cohEntry f (fun i => (b.snoopAs 3 f.tag.toNat i).isSome) = some i ∧ b.snoopAs 3 f.tag.toNat i = some sn ∧
       ¬((sn.opc = Opc.snpInv ∧ f.held ≠ 0) ∨ (sn.opc = Opc.snpShr ∧ f.held = 2))) ∧
    (let gr : Grant := { fen := 3, idx := i, tag := 0, sent := 0, excl := true }
     let b := member3 [(Reg.dir_STATE, i, Ds.grantWait)] fun h => { h with grants := [gr] }
     b.comesHome (f.as Opc.grantAck) = true ∧ (f.as Opc.grantAck).cohOk = true ∧ b.cohEntry f (fun i => (b.grantTo 3 f.tag.toNat i).isSome) = some i ∧
       b.grantTo 3 f.tag.toNat i = some gr ∧ gr.excl = true ∧ b.get Reg.dir_STATE i = Ds.grantWait) ∧
    (let b := member3 [(Reg.dir_OWNER_V, i, 1), (Reg.dir_OWNER, i, 3)] id
     let g := { f with pl := true }
     b.comesHome (g.as Opc.wbDirty) = true ∧ (g.as Opc.wbDirty).cohOk = true ∧ b.ownEntry g = some (3, i) ∧ b.snoopTo 3 i = none ∧
       late.comesHome (g.as Opc.wbDirty) = true ∧ late.ownEntry g = none ∧ late.cohEntry g (fun _ => true) = some i) := by decide +kernel

theorem test_witness_HoldersAndTimers_timers :
    let i := 16 * dirSet 1
    (∀ again : Bool, let sn : Snoop := { fen := 3, idx := i, opc := Opc.snpShr, reason := 0, tag := 0, sent := 0, resent := again }
     let b := member3 [] fun h => { h with snoops := [sn] }
     b.on = true ∧ b.fenced = false ∧ b.home.snoops.find? (fun t => t.fen == 3 && b.get Reg.dir_LINE t.idx == 1) = some sn ∧
       b.past sn.sent (us (b.get Reg.FEN_CFG_SNOOP_TIMEOUT_US)) = true ∧ sn.resent = again ∧ b.get Reg.dir_OWNER_V sn.idx = 0) ∧
    (let gr : Grant := { fen := 3, idx := i, tag := 0, sent := 0, excl := true }
     let b := member3 [] fun h => { h with grants := [gr] }
     b.home.grants.find? (fun g => g.fen == 3 && b.get Reg.dir_LINE g.idx == 1) = some gr ∧ b.past gr.sent (us (b.get Reg.FEN_CFG_SNOOP_TIMEOUT_US)) = true) ∧
    (let q : Req := { id := 1, fr := read42, off := 64, wait := .tenure }
     let b := { member3 [(Reg.dir_STATE, i, Ds.tenureWait)] fun h => { h with reqs := [q] } with t := 2 ^ 50 }
     b.dirFind 1 = some i ∧ b.get Reg.dir_STATE i = Ds.tenureWait ∧ b.tenureOver i = true ∧
       b.home.reqs.find? (fun q => q.line == 1 && q.wait == .tenure) = some q) ∧
    (let x : RsvSlot := { slot := 511, src := 0x52, line := 1, opc := 1, since := 0, hold := 64 }
     let b := member3 [] fun h => { h with slots := [x] }
     b.home.slots.find? (·.slot == 511) = some x ∧ b.past x.since (us x.hold) = true) ∧
    (let q : Req := { id := 1, fr := { read42 with final := true }, wait := .final }
     let b := member3 [] fun h => { h with reqs := [q] }
     b.req? 1 = some q ∧ q.wait = .final ∧ b.mustHold q.fr q.line = false) := by decide +kernel

/-- A PEER_DEAD from the part itself answers the request whose ADDRESS it echoes (Table 4.2, R89); another status from there answers none. -/
theorem test_peer_dead_answers :
    let x : Out := { fr := { src := 3, dst := 5, tag := 9, addr := 0x2800000000040 }, agent := .beacon 1 }
    let b := (part [] fun b => { b with orig := { b.orig with out := [x] } }).blk
    let f : Frame := { dst := 3, src := 3, tag := 9, tc := 2, addr := 0x2800000000040 }
    b.answered { f with status := .ofNat 8 St.peerDead } = some x ∧ b.answered f = none ∧ b.answered { f with src := 5 } = some x := by
  decide +kernel

theorem test_witness_ResponsesComplete :
    let f : Frame := { dst := 3, src := 0x52, tag := 9, tc := 2 }
    let x : Out := { fr := { src := 3, dst := 0x52, tag := 9 }, agent := .beacon 1 }
    let l := [(Reg.GLB_NODE_ID_NODE, 0, 3)]
    let b := { at_ (secs 1) (linked id l) with orig := { out := [x] } }
    b.on = true ∧ f.tc = 2 ∧ f.restart.toNat = b.restart ∧ ({ f with restart := 1 } : Frame).restart.toNat ≠ b.restart ∧ b.answered f = some x ∧
    (linked id l).answered f = none ∧ f.status.toNat ≠ St.staleEpoch ∧
    (∀ o ∈ [Opc.rspData, Opc.rspAck, Opc.rspErr, Opc.retryRsv], b.comesHome (f.as o) = true ∧ (linked id l).comesHome (f.as o) = true ∧
      b.comesHome ({ f with restart := 1 }.as o) = true) ∧
    (let g := { f with status := 0x11, fence := true }
     b.comesHome (g.as Opc.rspErr) = true ∧ b.answered g = some x ∧ g.status.toNat = St.staleEpoch ∧ g.fence = true) ∧
    (let g := { f with status := 0x11 }
     let y : Out := { fr := { src := 3, dst := 0x52, tag := 9, tenant := 42 }, agent := .work 1 7, va := some (64, 2) }
     let c := { at_ (secs 1) (linked id ((Reg.tenant_ctx_COMP_EPOCH, 42, 1) :: l)) with orig := { out := [y] } }
     c.comesHome (g.as Opc.rspErr) = true ∧ c.answered g = some y ∧ g.status.toNat = St.staleEpoch ∧ g.fence = false ∧ y.retried = false ∧
       y.agent = .work 1 7 ∧ y.va = some (64, 2) ∧ c.get Reg.tenant_ctx_COMP_EPOCH y.fr.tenant.toNat ≠ y.fr.epoch.toNat ∧
       notOlder (c.get Reg.tenant_ctx_COMP_EPOCH y.fr.tenant.toNat) y.fr.epoch.toNat = true) ∧
    b.orig.out.find? (fun o => o.fr.dst.toNat == 0x52 && o.fr.tag.toNat == 9) = some x ∧
    b.past x.sent (us (b.get Reg.SWC_REQ_TIMEOUT_TIMEOUT_US)) = true ∧ x.mc = false := by decide +kernel

theorem test_witness_ResponsesComplete_waiting :
    let x : Out := { fr := { dst := 0x52 }, agent := .beacon 1 }
    let b := (part [(Reg.WIN_RESTART_EPOCH_RESTART_EPOCH, 0, 1)] fun b => { b with orig := { b.orig with waiting := [x] } }).blk
    (b.on = true ∧ b.restart ≠ 0 ∧ b.orig.waiting.find? (fun o => o.fr.dst.toNat == 0x52) = some x) ∧
      ∃ (t : Nat) (c : Blk), b.clear.takeTag 0x52 x.tagBefore = (some t, c) := ⟨by decide +kernel, _, _, rfl⟩

theorem test_witness_WindowCommands :
    let b (st : Nat) := (part ((Reg.window_STATE, 4095, st) :: [(Reg.window_SIZE, 4095, 1), (Reg.WIN_CMD_ARG_DEADLINE_US, 0, 1)])).blk
    (b 0).opens Pg.win = true ∧ (b 0).get Reg.WIN_CMD_STATUS_DONE = 1 ∧
    ((b Ws.free).get Reg.window_STATE 4095 = Ws.free ∧ (b Ws.free).installCode 4095 = ok) ∧
    ((part []).blk.installCode 4095 = badRange ∧ (b Ws.active).get Reg.window_STATE 4095 ≠ Ws.free) ∧
    ((b Ws.draining).get Reg.window_STATE 4095 = Ws.draining ∧ notOlder ((b 1).get Reg.WIN_CMD_ARG_EPOCH) ((b 1).get Reg.window_EPOCH 4095) = true ∧
      (let c := (part [(Reg.window_STATE, 4095, Ws.active), (Reg.window_EPOCH, 4095, 1)]).blk
       notOlder (c.get Reg.WIN_CMD_ARG_EPOCH) (c.get Reg.window_EPOCH 4095) = false)) ∧
    ((0x3F#16).toNat ≤ 0x3F) ∧
    ((b Ws.revoked).get Reg.window_STATE 4095 = Ws.revoked ∧ (b Ws.revoked).get Reg.window_INFLIGHT 4095 = 0) ∧
    ((b Ws.active).get Reg.window_STATE 4095 = Ws.active ∧ (b Ws.active).get Reg.WIN_CMD_ARG_DEADLINE_US ≠ 0 ∧ (b Ws.active).drainOf 4095 = none) ∧
    (∀ timed : Bool, let d : Drain := { win := 4095, start := 0, len := if timed then some 1 else none }
      let c := (part [(Reg.window_STATE, 4095, Ws.draining)] fun b => { at_ (us 1) b with home := { b.home with drains := [d] } }).blk
      c.kept = true ∧ c.drainOf 4095 = some d ∧ c.recallsDone d = true ∧ c.get Reg.window_INFLIGHT 4095 = 0 ∧ c.past d.start (us 1) = true ∧
        c.uncommitted 4095 = false) := by decide +kernel

theorem test_witness_FencesAndMembers :
    ((part []).blk.opens Pg.win = true ∧ (part []).blk.restart = 0 ∧ (part [(Reg.WIN_RESTART_EPOCH_RESTART_EPOCH, 0, 65535)]).blk.restart ≠ 0) ∧
    ((part []).blk.opens Pg.fen = true ∧ (part []).blk.get Reg.FEN_CMD_STATUS_DONE = 1 ∧ (part []).blk.get Reg.member_V 63 = 0 ∧
      (part []).blk.fenOf 0x52 = none ∧ (part [(Reg.member_V, 63, 1), (Reg.member_NODE, 63, 0x52)]).blk.get Reg.member_V 63 = 1 ∧
      (part [(Reg.member_V, 63, 1), (Reg.member_NODE, 63, 0x52)]).blk.fenOf 0x52 ≠ none ∧
      (part []).blk.home.snoops = [] ∧ (part []).blk.entriesWith Reg.dir_V = []) ∧
    ((part []).blk.opens Pg.pred = true ∧ bits (0x80000000#32).toNat 31 30 ≠ 3 ∧
      bits (0x80000000#32).toNat 31 30 ≠ (part []).blk.get Reg.PRED_CFG_MODE) ∧
    (∀ g : Fin 2, let v : BitVec 32 := .ofNat 32 ((if g = 0 then 13 else 26) * 2 ^ 25)
     12 ≤ bits v.toNat 29 25 ∧ bits v.toNat 29 25 ≤ 26 ∧ bits v.toNat 29 25 ≠ (part []).blk.get Reg.PRED_CFG_GRAIN_LOG2) ∧
    (let b := (part []).blk
     let v : BitVec 32 := .ofNat 32 (b.get Reg.PRED_CFG_MODE * 2 ^ 30 + b.get Reg.PRED_CFG_GRAIN_LOG2 * 2 ^ 25)
     bits v.toNat 31 30 = b.get Reg.PRED_CFG_MODE ∧ bits v.toNat 29 25 = b.get Reg.PRED_CFG_GRAIN_LOG2) ∧
    (let b := (part [(Reg.dir_V, 7, 1), (Reg.dir_SHARERS, 7, 2 ^ 63), (Reg.dir_OWNER_V, 7, 1), (Reg.dir_OWNER, 7, 63)]).blk
     b.entriesWith Reg.dir_V = [7] ∧ bitAt (b.get Reg.dir_SHARERS 7) 63 = true ∧ b.get Reg.dir_OWNER_V 7 = 1 ∧ b.get Reg.dir_OWNER 7 = 63 ∧
       b.get Reg.dir_V 7 = 1 ∧ b.home.snoops = [] ∧ b.get Reg.FEN_PURGE_OWNED_CNT + 1 < 2 ^ 48) := by decide +kernel

theorem test_witness_DescriptorsStart :
    (let b := (part [] fun b => { b with eng := { b.eng with works := [first Dop.move] } }).blk
     b.on = true ∧ b.fetched Dop.move 1 0 = some (first Dop.move) ∧ b.canStart (first Dop.move) = true ∧ b.fetched Dop.nop 1 0 = none) ∧
    (let x := { first Dop.nop with id := 2, index := 1, desc := 2 ^ 13 }
     let b := (part [] fun b => { b with eng := { b.eng with works := [first Dop.move, x] } }).blk
     b.fetched Dop.nop 1 1 = some x ∧ b.canStart x = false) ∧
    (∀ op : Fin 3, let x := first (Dop.handoff + op.val * 2 ^ 216)
     let b := (part [] fun b => { b with eng := { b.eng with works := [x] } }).blk
     b.fetched Dop.handoff 1 0 = some x ∧ x.f 27 1 0 = op.val ∧ b.canStart x = true) ∧
    (let x : FwWait := { tile := 95, thread := 15, tenant := 42, word := 8, cond := 0, value := 1, mask := 1 }
     let b := working [first Dop.move]
     b.fenced = false ∧ b.eng.works.any (fun w => w.kind == 4 && w.tile == x.tile.val && w.thread == x.thread.val) = false) := by decide +kernel

theorem test_witness_PollsAndDebugActions :
    (let w := { first Dop.syncWait with phase := Phase.running, snap := [2] }
     let b := (part [] fun b => { at_ (ms 1) b with eng := { b.eng with works := [w] } }).blk
     b.on = true ∧ b.eng.works.find? (fun w => w.queue == 1 && w.index == 0 && w.opcode == Dop.syncWait && w.phase == .running && w.snap == [2]) = some w ∧
       w.out = [] ∧ b.past w.since (ns (b.get Reg.SYNC_CFG_POLL_NS)) = true) ∧
    (let b := (part [(Reg.DBG_STATE_LEVEL, 0, 2), (Reg.monitor_STATE, 65535, 1)]).blk
     b.opens Pg.sync = true ∧ b.get Reg.SYNC_DBG_STATUS_DONE = 1 ∧ b.get Reg.DBG_STATE_LEVEL = 2 ∧ b.get Reg.monitor_STATE 65535 = 1 ∧
       b.get Reg.SYNC_FIRE_CNT + 1 < 2 ^ 48) ∧
    ((part []).blk.get Reg.DBG_STATE_LEVEL ≠ 2 ∧ (part []).blk.get Reg.SYNC_DBG_DENIED_CNT + 1 < 2 ^ 48) := by decide +kernel

theorem test_witness_HandoffRecords :
    let b := (part [(Reg.GLB_NODE_ID_NODE, 0, 3)]).blk
    (∃ phase holder target epoch deadline : Nat, phase < 4 ∧ holder < 64 ∧ target < 64 ∧ epoch < 2 ^ 16 ∧ deadline < 2 ^ 32) ∧
    bits (recordWord 0 3 0 9 0) 47 32 ≠ (first Dop.handoff).f 24 15 0 ∧
    (let w := first (Dop.handoff + 9 * 2 ^ 192)
     let cur := recordWord 0 3 0 9 0
     w.f 27 1 0 = 0 ∧ bits cur 47 32 = w.f 24 15 0 ∧ bits cur 63 62 = 0 ∧ bits cur 61 56 = b.node % 64) ∧
    (∀ late : Bool, let w := first (Dop.handoff + 9 * 2 ^ 192 + 2 ^ 216)
     let cur := recordWord 1 4 3 9 (b.get Reg.TIER_HANDOFF_CFG_GUARD_US - if late then 1 else 0)
     w.f 27 1 0 = 1 ∧ bits cur 47 32 = w.f 24 15 0 ∧ bits cur 63 62 = 1 ∧ bits cur 55 50 = b.node % 64 ∧
       (b.get Reg.TIER_HANDOFF_CFG_GUARD_US ≤ subMod 32 (bits cur 31 0) b.nowUs ↔ late = false) ∧ subMod 32 (bits cur 31 0) b.nowUs < 2 ^ 31) ∧
    (∀ late : Bool, let w := first (Dop.handoff + 9 * 2 ^ 192 + 2 * 2 ^ 216)
     let cur := recordWord 1 3 4 9 (if late then 0 else 1)
     w.f 27 1 0 = 2 ∧ bits cur 47 32 = w.f 24 15 0 ∧ bits cur 63 62 = 1 ∧ bits cur 61 56 = b.node % 64 ∧
       (subMod 32 b.nowUs (bits cur 31 0) < 2 ^ 31 ↔ late = true)) ∧
    (let w := first (Dop.handoff + 9 * 2 ^ 192)
     w.f 27 1 0 = 0 ∧ bits (recordWord 0 4 0 9 0) 61 56 ≠ b.node % 64) := by
  refine ⟨⟨3, 63, 63, 65535, 2 ^ 32 - 1, ?_⟩, ?_⟩ <;> decide +kernel

theorem test_witness_StacksAndKeys_stores :
    let b := { stacked with store := { stacked.store with scrubbed := [(3, 9)], lines := [(8, some (.raw 5))], flips := [(8, 1)] } }
    let c := { b with store := { b.store with flips := [] } }
    b.kept = true ∧ b.get Reg.HBM_STATE_STACK_STATE 3 = Stk.up ∧ 8 < b.raLines ∧ b.lostAt 8 = false ∧ b.scrubDue (b.stackOf 8) 8 = true ∧
      b.store.scrubbed.any (·.1 == b.stackOf 8) = true ∧ b.decodeAt 8 = (.good (.raw 5), 1) ∧ c.decodeAt 8 = (.good (.raw 5), 0) := by decide +kernel

/-- Bytes 0 to 63, wrapped by openssl under the KEK of key generation 0 and tenant 42 with a blank seed. -/
def wrapped : Nat := 0xb911cabe052989ae9cb9c278bf2adf6214cf7d3bf30500437b3f01386584edd5dc8d28f97b222cc3a89abfdd86252e1b7e47ec7a2bff2ef0abb400afb3d84fdab398842adc3e922

theorem test_witness_StacksAndKeys_unwraps :
    let b := (part [(Reg.SEC_KEY_STAGE_WRAPPED, 0, wrapped)]).blk
    keyUnwrap (({ lc := 3 } : Fuse).kek (b.get Reg.SEC_KEY_GEN_GEN) 42) (natBytes 72 (b.get Reg.SEC_KEY_STAGE_WRAPPED)) 8 = some (List.range 64) ∧
    (List.range 64).take 32 ≠ (List.range 64).drop 32 := by decide +kernel

theorem test_witness_StacksAndKeys_slots :
    let b := (part []).blk
    b.opens Pg.crypt = true ∧ b.get Reg.CRYPT_CMD_STATUS_DONE = 1 ∧ ({ lc := 3 } : Fuse).life = 2 ∧ b.recovery = false ∧ (42#12) ≠ 0 ∧
      b.get Reg.DBG_STATE_TENANT_DATA = 0 ∧ b.loaded 42 = false ∧ (part [(Reg.slot_LOADED, 42, 1)]).blk.loaded 42 = true ∧
      (({} : Fuse).life ≠ 2) := by decide +kernel

/-- Region 255 of one bank, in a state, its blocks pinned. -/
def region255 (mode owner st : Nat) : Blk :=
  let b := (part [(Reg.region_MODE, 255, mode), (Reg.region_OWNER, 255, owner), (Reg.region_SIZE, 255, 1), (Reg.region_K, 255, 2), (Reg.region_STATE, 255, st)]).blk
  { b with fs := (List.range 1024).map (fun k => (Reg.map_BSTATE.key k, Bst.pinned)) ++ b.fs }

theorem region255_pinned (mode owner st : Nat) (hs : (region255 mode owner st).get Reg.region_SIZE 255 = 1)
    (hl : (region255 mode owner st).get Reg.region_LOCAL_BASE 255 = 0) : (region255 mode owner st).regionPinned 255 = true := by
  unfold Blk.regionPinned
  rw [hs, hl, List.all_eq_true]
  intro k hk
  have h : Sparse.get 0 (region255 mode owner st).fs (Reg.map_BSTATE.key k) = Bst.pinned :=
    get_of_mem 0 Bst.pinned Reg.map_BSTATE.key _ k (List.range 1024) (by simpa using hk)
  simp only [Blk.get, Nat.zero_mul, Nat.zero_add, h]
  decide

theorem test_witness_ProtectionCommands_pinned :
    (region255 1 1 1).regionPinned 255 = true ∧ (region255 2 0 3).regionPinned 255 = true ∧ (region255 2 1 0).regionPinned 255 = true :=
  ⟨region255_pinned 1 1 1 (by decide +kernel) (by decide +kernel), region255_pinned 2 0 3 (by decide +kernel) (by decide +kernel),
    region255_pinned 2 1 0 (by decide +kernel) (by decide +kernel)⟩

theorem test_witness_ProtectionCommands :
    (let b := region255 1 1 1
     b.opens Pg.prot = true ∧ b.get Reg.PROT_CMD_STATUS_DONE = 1 ∧ b.prot = none ∧ b.get Reg.region_MODE 255 = 1 ∧ b.get Reg.region_STATE 255 = 1 ∧
       b.regionBusy 255 = false ∧ b.get Reg.region_STATE 255 ≠ 3 ∧ b.get Reg.region_OWNER 255 = 1 ∧ 1 < b.get Reg.region_K 255 ∧
       b.get Reg.region_K 255 ≤ 2) ∧
    (let c := region255 2 0 3
     c.get Reg.region_MODE 255 = 2 ∧ c.get Reg.region_OWNER 255 = 0 ∧ c.get Reg.region_STATE 255 = 3) ∧
    (let d := region255 2 1 0
     d.get Reg.region_MODE 255 = 2 ∧ d.get Reg.region_OWNER 255 = 1 ∧ d.regionLines 255 ≤ d.regionLines 255) ∧
    (part [(Reg.region_MODE, 255, 1), (Reg.region_SIZE, 255, 1)]).blk.regionPinned 255 = false ∧
    (let q : Req := { id := 1, fr := { opc := 0x10 } }
     (part [(Reg.region_SIZE, 255, 1)] fun b => { b with home := { b.home with reqs := [q] } }).blk.regionBusy 255 = true) := by decide +kernel

theorem test_witness_PlacementCommands :
    let b := placed 0 1 [(Reg.place_TRL_BASE, 4095, 2 ^ 30)]
    let c := placed 0 1 [(Reg.place_TRL_BASE, 4095, 2 ^ 30), (Reg.TIER_POOL_FREE_FRAMES, 0, 1)]
    let d := placed 1 1 []
    let e := placed 1 1 [(Reg.map_BSTATE, 2047, Bst.resident), (Reg.map_DIRTY, 2047, 1)]
    b.opens Pg.tier = true ∧ b.get Reg.TIER_CMD_STATUS_DONE = 1 ∧ b.tier.job = none ∧ b.placeCode 4095 = noSpace ∧ noSpace ≠ ok ∧
    c.placeCode 4095 = ok ∧ d.get Reg.place_STATE 4095 = 1 ∧ (∀ x ∈ d.tier.fetches, x.desc = 4095 → x.frame ≠ none ∨ x.pass = true) ∧
    d.blocksWith 4095 Reg.map_DIRTY = [] ∧ d.tier.downs.any (·.desc == 4095) = false ∧ e.tier.downs = [] ∧
    (e.blocksWith 4095 Reg.map_DIRTY).filter (fun k => e.get Reg.map_BSTATE k == Bst.resident) = [2047] ∧
    b.get Reg.place_STATE 4095 ≠ 1 := by decide +kernel

/-- The last block of a bank in host memory, being fetched into frame 5. -/
def fetching (l : List (Fld × Nat × Nat)) : Blk :=
  placed 1 1 l fun b => { b with tier := { b.tier with fetches := [{ block := 2047, desc := 4095, frame := some 5 }] } }

/-- A request that waits for the last block of a bank. -/
def waiter (wait : Wait) : Req := { id := 1, fr := {}, off := 2047 * 65536, wait }

theorem zeros_ok (b : Blk) (d blk n : Nat) (hn : n ≤ 16) (hw : b.trailerWord d blk % 2 ^ 31 = blk % 2 ^ 31) :
    b.trailerOk d blk (b.trailerWord d blk) n (List.replicate 16 (subCrc (List.replicate 64 0))) (List.replicate (64 * n) 0) = true := by
  have h : ∀ (c : Nat) (m k : Nat), k < m → nth 0 (List.replicate m c) k = c := by
    intro c m
    induction m with
    | zero => intro k hk; omega
    | succ m ih =>
      intro k hk
      cases k with
      | zero => rfl
      | succ k => exact ih k (by omega)
  simp only [Blk.trailerOk, hw, beq_self_eq_true, List.length_replicate, Bool.true_and, List.all_eq_true, List.mem_range, beq_iff_eq]
  intro k hk
  rw [h _ _ k (by omega), List.drop_replicate, List.take_replicate, Nat.min_eq_left (by omega)]

theorem test_witness_FetchesEnd_good :
    let b := fetching [(Reg.map_STORED, 2047, 1)]
    b.kept = true ∧ b.fetchOf 2047 = some ({ block := 2047, desc := 4095, frame := some 5 }, 5) ∧ b.zeroFill 2047 4095 = false ∧
    b.get Reg.place_CLASS 4095 ≠ Cls.weights ∧ b.stray (0, 2047) 1 = false ∧
    b.trailerOk 4095 2047 (b.trailerWord 4095 2047) 16 (List.replicate 16 (subCrc (List.replicate 64 0))) (List.replicate (64 * 16) 0) = true ∧
    b.trailerOk 4095 2047 0 16 [] [] = false ∧ (fetching []).zeroFill 2047 4095 = true ∧
    (let c := placed 1 1 [] fun b => { b with tier := { b.tier with asked := [(0, 2047)] } }
     c.fetchOf 2047 = none ∧ (0, 2047) ∈ c.tier.asked) :=
  ⟨by decide +kernel, by decide +kernel, by decide +kernel, by decide +kernel, by decide +kernel, zeros_ok _ _ _ 16 (by decide) (by decide +kernel), by decide +kernel, by decide +kernel, by decide +kernel⟩

theorem test_witness_FetchesEnd_waits :
    (let b := placed 1 1 [] fun b => { at_ (secs 1) b with home := { b.home with reqs := [waiter .fetch] } }
     b.home.reqs.find? (fun q => (q.wait == .fetch || q.wait == .pass) && q.off / 65536 == 2047 &&
       (match b.placeOf (2047 / 1024) with
        | some d => b.past q.since (b.tierSpan d)
        | none => false)) = some (waiter .fetch)) ∧
    (let b := placed 1 1 [] fun b => { b with home := { b.home with reqs := [waiter .pass] } }
     b.home.reqs.filter (fun q => q.wait == .pass && q.off / 4096 == 32752) = [waiter .pass] ∧ b.stray (1, 32752) 1 = false ∧ b.placeOf (32752 / 2 ^ 14) = some 4095 ∧
       b.get Reg.place_CLASS 4095 ≠ Cls.weights ∧
       b.trailerOk 4095 (32752 / 16) 0 1 [0] [] = false) := by decide +kernel

theorem test_witness_FetchesEnd_pass :
    (placed 1 1 []).trailerOk 4095 2047 ((placed 1 1 []).trailerWord 4095 2047) 1 (List.replicate 16 (subCrc (List.replicate 64 0)))
      (List.replicate (64 * 1) 0) = true :=
  zeros_ok _ 4095 2047 1 (by decide) (by decide +kernel)

/-- The last block of a bank, resident in frame 5. -/
def inPool (st cls : Nat) (l : List (Fld × Nat × Nat)) (f : Blk → Blk := id) : Blk :=
  placed 1 cls ([(Reg.map_BSTATE, 2047, st), (Reg.map_FRAME, 2047, 5), (Reg.frame_USED, 5, 1), (Reg.frame_BLOCK, 5, 2047)] ++ l) f

theorem test_witness_EvictionAndHeat :
    (∀ dirty : Fin 2, let b := inPool Bst.resident 1 [(Reg.TIER_POOL_TOTAL_FRAMES, 0, 100), (Reg.map_DIRTY, 2047, dirty)]
     b.kept = true ∧ b.evicting = true ∧ b.oldest (b.evictable.filter fun g => !b.givenUp (b.get Reg.frame_BLOCK g)) = some 5 ∧ b.get Reg.map_DIRTY (b.get Reg.frame_BLOCK 5) = dirty ∧ b.tier.downs.length < 64) ∧
    (∀ dirty : Fin 2, let x : Down := { block := 2047, desc := 4095, since := 0, why := 0 }
     let b := inPool Bst.writingDown 1 [(Reg.map_DIRTY, 2047, dirty)] fun b => { at_ (secs 1) b with tier := { b.tier with downs := [x] } }
     x.trailed = false ∧ ({ x with trailed := true } : Down).trailed = true ∧ b.stray (2, 2047) 1 = false ∧ b.tier.downs.find? (·.block == 2047) = some x ∧ b.tier.job = none ∧ x.bad = false ∧ b.get Reg.place_CLASS x.desc ≠ Cls.weights ∧ x.why = 0 ∧
       b.get Reg.map_DIRTY 2047 = dirty ∧ b.get Reg.frame_TOUCHED_DURING (b.get Reg.map_FRAME 2047) = 0 ∧ b.past x.since (b.tierSpan x.desc) = true) ∧
    (let b := placed 1 1 [(Reg.place_HIWYN, 4095, 1)]
     4095 ∈ b.entriesWith Reg.place_STATE ∧ b.get Reg.place_HIWYN 4095 = 1 ∧ b.inPlace 4095 2047 = true ∧
       ∀ d ∈ b.entriesWith Reg.place_STATE, b.get Reg.place_HIWYN d = 1 → b.inPlace d 2048 = false) := by decide +kernel

/-- A mounted, writable Peat. -/
def flash (l : List (Fld × Nat × Nat)) (f : Peat → Peat := id) : Blk :=
  (part ((Reg.PEAT_STATE_STATE, 0, Ps.ok) :: l) fun b => { at_ (secs 100000) b with peat := f b.peat }).blk

/-- The last slot of group 31. -/
def lastSlot : Slot := { g := 31, sb := 8191, row := 4095, pos := 15 }

theorem test_witness_FlashCommandsAndDies :
    (let b := flash [(Reg.PEAT_LOGICAL_BLOCKS_COUNT, 0, 7), (Reg.PEAT_CMD_ARG1_COUNT, 0, 7)]
     b.opens Pg.peat = true ∧ b.get Reg.PEAT_CMD_STATUS_DONE = 1 ∧ b.get Reg.PEAT_STATE_STATE ≠ Ps.absent ∧ b.get Reg.PEAT_STATE_STATE ≠ Ps.mounting ∧
       b.entriesWith Reg.place_STATE = [] ∧ b.nandBlocks ≤ 8192 ∧ b.get Reg.PEAT_CMD_ARG0_FIRST_LBN + b.get Reg.PEAT_CMD_ARG1_COUNT ≤ b.get Reg.PEAT_LOGICAL_BLOCKS_COUNT ∧
       b.ckptAble = true ∧ b.kept = true ∧ Ps.ok ≤ b.get Reg.PEAT_STATE_STATE ∧ b.past b.peat.ckptAt (secs (b.get Reg.PEAT_CKPT_CKPT_S)) = true) ∧
    ((part []).blk.get Reg.PEAT_STATE_STATE = Ps.absent ∧ (part []).blk.ckptAble = false) ∧
    (let b := placed 1 Cls.weights [(Reg.PEAT_STATE_STATE, 0, Ps.ok), (Reg.PEAT_LOGICAL_BLOCKS_COUNT, 0, 1024), (Reg.PEAT_CMD_ARG1_COUNT, 0, 1)]
     ((b.entriesWith Reg.place_STATE).any fun d => b.get Reg.place_CLASS d == Cls.weights) = true ∧
       ((b.entriesWith Reg.place_STATE).any fun d => b.get Reg.place_CLASS d == Cls.weights && meet (b.get Reg.PEAT_CMD_ARG0_FIRST_LBN)
         (b.get Reg.PEAT_CMD_ARG1_COUNT) (b.get Reg.place_LOWER_BASE d) (b.get Reg.place_SIZE d * 1024)) = true ∧
       b.get Reg.PEAT_CMD_ARG0_FIRST_LBN + b.get Reg.PEAT_CMD_ARG1_COUNT ≤ b.get Reg.PEAT_LOGICAL_BLOCKS_COUNT) ∧
    (let b := flash [(Reg.PEAT_STATE_STATE, 0, Ps.unformatted)] fun p => { p with fmt := some [] }
     b.peat.fmt = some [] ∧ (∀ o ∈ b.peat.ops, o.erase = false) ∧ b.get Reg.PEAT_STATE_STATE < Ps.ok) ∧
    (let b := flash [(Reg.PEAT_MAP_UNITS_UNITS, 0, 1)]
     b.ckptAble = false ∧ Ps.ok ≤ b.get Reg.PEAT_STATE_STATE) ∧
    (let b := flash [(Reg.PEAT_CMD_ARG1_COUNT, 0, 1)]
     b.get Reg.PEAT_LOGICAL_BLOCKS_COUNT < b.get Reg.PEAT_CMD_ARG0_FIRST_LBN + b.get Reg.PEAT_CMD_ARG1_COUNT) ∧
    (∀ m : Bool, let b := flash [(Reg.PEAT_STATE_STATE, 0, Ps.mounting)] fun p => { p with
       ckpt := if m then some [] else none, log := [.wrote (2 ^ 34 - 1) lastSlot 9] }
     b.get Reg.PEAT_STATE_STATE = Ps.mounting ∧ b.peat.ckpt = (if m then some [] else none) ∧ b.peat.ckptKey = b.key 0 ∧
       b.peat.log = [.wrote (2 ^ 34 - 1) lastSlot 9] ∧ [8].contains 9 = false) := by decide +kernel

/-- A program of a write-down at the last slot. -/
def lastOp : NandOp := { id := 1, job := .down 2047 (2 ^ 34 - 1), at_ := lastSlot }

theorem test_witness_FlashCommandsAndDies_dies :
    (∀ worn : Bool, let b := flash [(Reg.PCH_CTRL_DIE_EN, 31, 0x8000), (Reg.PEAT_GEOM_BLOCKS, 0, 8192)] fun p =>
       if worn then { p with grownAt := List.replicate 16 (31 * 16 + 15, secs 100000) } else { p with ops := [lastOp] }
     b.kept = true ∧ b.dieSilent 31 15 = !worn ∧ b.wornDie 31 15 = worn ∧ (b.diesOn 31).contains 15 = true ∧
       bitAt (b.get Reg.PCH_STATE_DIE_DEAD 31) 15 = false ∧ 8191 < b.nandBlocks ∧ b.erasing 31 8191 = false) ∧
    0 < (flash [(Reg.sb_VALID, sbIdx 31 8191, 1)]).get Reg.sb_VALID (sbIdx 31 8191) ∧
    (let b := flash [(Reg.PCH_STATE_DIE_DEAD, 31, 0x8000)]
     bitAt (b.get Reg.PCH_STATE_DIE_DEAD 31) 15 = true ∧ b.dieSilent 31 14 = false ∧ b.wornDie 31 14 = false) ∧
    (let b := flash [(Reg.PCH_CTRL_DIE_EN, 31, 0x8000), (Reg.PCH_STATE_STATE, 31, Pst.training)]
     let g : Geom := { blocks := 8192, pages := 4096, data := 16384, spare := 2048, planes := 4, suspend := true }
     b.get Reg.PCH_STATE_STATE 31 = Pst.training ∧ b.geometryOk 31 [g] = true ∧ b.geometryOk 31 [{ g with suspend := false }] = false ∧
       b.geometryOk 31 [] = false ∧ b.geometryOk 31 [{ g with pages := 4097 }] = false) := by decide +kernel

/-- What a read of a codeword of a dead die's page gives where its row does not decode either. -/
def unread : List (List Try) := List.replicate 16 [{ step := 4, good := false, corrected := 101 }]

theorem test_witness_DieOperations_read :
    let r : NandRead := { id := 1, pass := false, blk := 2047, lbn := 1023, at_ := lastSlot }
    let b := placed 1 2 [(Reg.PCH_STATE_DIE_DEAD, 31, 0x8000)] fun b => { b with
      tier := { b.tier with fetches := [{ block := 2047, desc := 4095, frame := some 5 }] }, peat := { b.peat with reads := [r] } }
    let c : Blk := { b.clear with peat := { b.peat with reads := b.peat.reads.filter (·.id ≠ 1) } }
    b.kept = true ∧ b.peat.reads.find? (·.id == 1) = some r ∧ r.pass = false ∧ r.move = false ∧ b.placeOf (r.blk / 1024) = some 4095 ∧
    b.dieGone r.at_ = true ∧ needsRow unread = true ∧ b.readBusy { r with row := true } = false ∧
    b.readSettled r (b.get Reg.place_TENANT 4095) unread = true ∧
    ((c.ladders r (b.get Reg.place_TENANT 4095) (List.range 16) unread).2.fetchOf r.blk).isSome = true ∧
    needsRow ([] : List (List Try)) = r.row ∧ ({ b with peat := { b.peat with ops := [{ lastOp with at_ := { lastSlot with pos := 0 } }] } } : Blk).readBusy r = true := by decide +kernel

/-- What a read gives that no step decodes, its row at last, where READ_RETRY_MAX is 0. -/
def hard : List (List Try) := List.replicate 16 ([1, 3, 4].map fun k => { step := k, good := false, corrected := 101 })

theorem test_witness_DieOperations_row :
    (let r : NandRead := { id := 1, pass := false, blk := 2047, lbn := 1023, at_ := lastSlot }
     let o := { lastOp with at_ := { lastSlot with pos := 0 } }
     let b := flash [(Reg.PEAT_TIMING_READ_RETRY_MAX, 0, 0), (Reg.PEAT_TIMING_SUSPEND_MAX, 0, 0)] fun p => { p with reads := [r], ops := [o] }
     b.peat.reads.find? (·.id == 1) = some r ∧ r.row = false ∧ needsRow hard = true ∧ b.dieGone r.at_ = false ∧
       b.readSettled r (b.tenantOf r hard) hard = true ∧ (b.clear.readRow { r with row := true }).readBusy { r with row := true } = true) ∧
    (let b := flash [(Reg.PEAT_TIMING_READ_RETRY_MAX, 0, 0), (Reg.lmap_V, 5, 1), (Reg.lmap_GROUP, 5, 31), (Reg.lmap_SB, 5, 8191), (Reg.lmap_ROW, 5, 4095),
       (Reg.lmap_POS, 5, 15)]
     let r : NandRead := { id := 0, pass := false, blk := 0, lbn := 5, at_ := lastSlot, move := true, row := needsRow hard }
     let c := b.clear.scrubPeriod
     b.get Reg.lmap_V 5 = 1 ∧ b.peat.lost.contains 5 = false ∧ Ps.ok ≤ b.get Reg.PEAT_STATE_STATE ∧ b.aon.mode ≠ .p3 ∧ b.slotOfLbn 5 = lastSlot ∧
       c.peat.scrubbed.contains 5 = false ∧ c.upkeepTurn (chanOf lastSlot.g lastSlot.pos) = true ∧ c.readBusy r = false ∧
       c.readSettled r (c.tenantOf r hard) hard = true) ∧
    (∀ b : Bool, settles (fun _ => b) [1] [{ step := 1, good := b }] = true) := by decide +kernel

/-- Peat with groups of one block on channel 16's last die, open at one row. -/
def lastGroup (l : List (Fld × Nat × Nat)) (f : Peat → Peat := id) : Blk :=
  flash ([(Reg.PCH_CTRL_ENABLE, 16, 1), (Reg.PCH_CTRL_DIE_EN, 16, 0x8000), (Reg.PEAT_GEOM_BLOCKS, 0, 1)] ++ l) f

theorem test_witness_DieOperations :
    (∀ k : Fin 3, let o := { lastOp with job := if k = 0 then .down 2047 (2 ^ 34 - 1) else if k = 1 then .copy 5 lastSlot 42 [] false else .parity }
     let b := flash [] fun p => { p with ops := [o] }
     b.kept = true ∧ b.peat.ops.find? (fun o => o.id == 1 && !o.erase && !o.suspended) = some o ∧ o.at_.g < 32 ∧ o.at_.sb < 8192 ∧
       o.at_.row < 8192 ∧ o.at_.pos < 16) ∧
    (let b := flash [(Reg.lmap_V, 5, 1), (Reg.lmap_GROUP, 5, 31), (Reg.lmap_SB, 5, 8191), (Reg.lmap_ROW, 5, 4095), (Reg.lmap_POS, 5, 15)]
     b.get Reg.lmap_V 5 = 1 ∧ b.slotOfLbn 5 = lastSlot ∧ (flash []).get Reg.lmap_V 5 = 0) ∧
    (let o : OpenSb := { g := 31, sb := 8191, used := [1] }
     let due (b : Blk) (o : OpenSb) : Bool := o.g == 31 && o.sb == 8191 && o.used != [] && (b.unfilled o != [] || !b.peat.closing.contains o) &&
       b.past o.since (us (b.get Reg.PEAT_TIMING_ROW_CLOSE_US))
     let b := flash [] fun p => { p with open_ := [o] }
     let c := flash [] fun p => { p with closing := [o] }
     (b.peat.closing ++ b.peat.open_).find? (due b) = some o ∧ (c.peat.closing ++ c.peat.open_).find? (due c) = some o) ∧
    (let b := lastGroup [(Reg.sb_SSTATE, sbIdx 31 0, Ss.full)] fun p => { p with noParity := [(31, 0)] }
     b.peat.reloc = none ∧ Ps.ok ≤ b.get Reg.PEAT_STATE_STATE ∧ b.trigger = some ((31, 0), 2) ∧ b.sbState (31, 0) ≠ Ss.retired) ∧
    (∀ busy : Bool, let r : NandRead := { id := 1, pass := false, blk := 2047, lbn := 1023, at_ := lastSlot }
     let b := flash [(Reg.lmap_V, 5, 1)] fun p => { p with reloc := some (31, 8191, 5), reads := if busy then [r] else [] }
     b.peat.reloc = some (31, 8191, 5) ∧ b.validIn 31 8191 = [] ∧ (b.peat.reads.any fun r => r.at_.g == 31 && r.at_.sb == 8191) = busy ∧
       (b.peat.ops.any fun o => o.at_.g == 31 && o.at_.sb == 8191) = false ∧ (b.peat.closing.any fun o => o.g == 31 && o.sb == 8191) = false ∧
       b.goodMembers 31 8191 ≠ []) ∧
    (let o := { lastOp with job := .erase }
     let b := flash [] fun p => { p with ops := [o] }
     let c := flash [] fun p => { p with ops := [o, { o with id := 2, at_ := { lastSlot with pos := 14 } }] }
     b.peat.ops.find? (fun o => o.id == 1 && o.erase && !o.suspended) = some o ∧ o.at_.pos < 16 ∧
       (b.peat.ops.any fun p => p.id != 1 && p.erase && p.at_.g == 31 && p.at_.sb == 8191) = false ∧
       (c.peat.ops.any fun p => p.id != 1 && p.erase && p.at_.g == 31 && p.at_.sb == 8191) = true) ∧
    (let x : Down := { block := 2047, desc := 4095, since := 0, why := 0 }
     let b := { flash [] with tier := { downs := [x] } }
     b.tier.downs.find? (·.block == 2047) = some x ∧ b.tier.job = none) ∧
    (∀ again : Bool, let b := flash [(Reg.lmap_V, 5, 1)] fun p => { p with scrubbed := if again then [5] else [] }
     b.get Reg.lmap_V 5 = 1 ∧ b.peat.lost.contains 5 = false ∧ Ps.ok ≤ b.get Reg.PEAT_STATE_STATE ∧ b.aon.mode ≠ .p3 ∧
       b.peat.scrubbed.contains 5 = again ∧ b.past b.peat.scrubAt (secs (86400 * b.get Reg.PEAT_RET_RET_PERIOD_D)) = false) ∧
    (∀ more : Bool, let r : NandRead := { id := 7, pass := false, blk := 2047, lbn := 1023, at_ := lastSlot }
     let o := { lastOp with suspended := true, waits := [6] }
     let b := flash [] fun p => { p with ops := [o], reads := if more then [r] else [] }
     b.peat.ops.find? (fun o => o.id == 1 && o.suspended && o.waits.all fun w => !b.peat.reads.any (·.id == w)) = some o ∧
       b.readsAt o = if more then [r] else []) := by decide +kernel

theorem test_witness_QueueCommands :
    let q : Nat := 2 ^ 20 - 1
    let off (l : List (Fld × Nat × Nat)) := (part ([(Reg.tenant_ctx_EN, 42, 1), (Reg.tenant_ctx_SM_COUNT, 42, 1), (Reg.xlt_entry_V, 0, 1), (Reg.xlt_entry_RD, 0, 1),
      (Reg.xlt_entry_WR, 0, 1), (Reg.xlt_entry_TENANT, 0, 42), (Reg.qctx_TENANT, q, 42)] ++ l)).blk
    let st (k : Nat) := (part [(Reg.qctx_STATE, q, k)]).blk
    (off []).opens Pg.qmgr = true ∧ (off []).get Reg.QMGR_CMD_STATUS_DONE = 1 ∧ (off []).get Reg.qctx_STATE q = Qst.off ∧
    (off [(Reg.qctx_RING_LOG2, q, 4)]).enableBad q = false ∧ (off [(Reg.qctx_RING_LOG2, q, 20)]).enableBad q = false ∧
    (off [(Reg.qctx_RING_LOG2, q, 3)]).enableBad q = true ∧ (off [(Reg.qctx_RING_LOG2, q, 21)]).enableBad q = true ∧
    (st Qst.ready).get Reg.qctx_STATE q = Qst.ready ∧ (st Qst.stopped).get Reg.qctx_STATE q = Qst.stopped ∧ (st Qst.error).get Reg.qctx_STATE q = Qst.error ∧
    (∀ p ∈ (st 0).eng.monWork, p.1 < 65536) ∧ (off []).aon.full = none ∧
    (part [] fun b => b.setAon fun a => { a with full := some (0, [], []) }).blk.aon.full ≠ none := by decide +kernel

theorem test_witness_ThreadsAndDescriptors :
    (let b := working [] [] fun e => { e with waiting := [(7, 0)] }
     b.on = true ∧ b.nextQueue = some (7, 0) ∧ b.freeThreads ≠ [] ∧ (part []).blk.nextQueue = none) ∧
    (let x : Bound := { queue := 7, tile := 95, thread := 14 }
     let b := working [] [(Reg.qctx_STATE, 7, Qst.ready), (Reg.qctx_HEAD, 7, 2 ^ 32 - 1), (Reg.qctx_RING_LOG2, 7, 4)] fun e => { e with bound := [x] }
     b.eng.bound.find? (·.queue == 7) = some x ∧ 2 ^ 32 - 1 = b.get Reg.qctx_HEAD 7 ∧ b.stopsFetching x = false ∧ b.eng.halted.contains x.tile = false ∧
       (b.worksOf 7).length < 16 ∧ b.slotFree 7 (2 ^ 32 - 1) = true) ∧
    (let w : Work := { first 0 with phase := .ended }
     let b := working [w]
     b.eng.works.find? (fun w => w.kind == 0 && w.queue == 1 && w.index == 0 && w.phase == .ended) = some w ∧ w.releases = false) ∧
    (let w : Work := { first 64 with id := 2, index := 1, desc := 2 ^ 14, phase := .ended }
     let b := working [first 1, w]
     b.eng.works.find? (fun w => w.kind == 0 && w.queue == 1 && w.index == 1 && w.phase == .ended) = some w ∧ w.releases = true ∧ b.earlierOpen w ≠ []) ∧
    (let g : Work := { first 8 with phase := .running }
     let w : Work := { first 0 with id := 2, kind := 1, parent := 1, stage := 15, phase := .ended }
     let b := working [g, w]
     b.eng.works.find? (fun w => w.kind == 1 && w.queue == 1 && w.index == 0 && w.stage == 15 && w.phase == .ended) = some w ∧ b.work? w.parent = some g ∧
       w.releases = false) := by decide +kernel

theorem test_witness_SedgeAndTiles :
    (let b := (part []).blk
     b.on = true ∧ b.eng.held = [] ∧ b.eng.handover = [] ∧ b.bankOwner 95 15 = 0 ∧ ownerOk 159 = true ∧ ownerOk 160 = false ∧ b.bankOwner 95 15 ≠ 1 ∧
       b.get Reg.SEDGE_OWNER_FAULT_CNT 95 + 1 < 2 ^ 48 ∧ b.opens (Pg.tile 95) = true ∧
       b.stand 95 { by_ := 1, act := .read 0 1 } = .bad ∧
       0 ∈ b.touches 95 { by_ := 0, act := .write (BitVec.allOnes 21) (List.replicate 64 5) } ∧ b.bankOwner 95 0 = 0 ∧
       (part [(Reg.SEDGE_OWN_HI_OWN, 95, 7 * 2 ^ 56), (Reg.SEDGE_OWN_LO_OWN, 95, 7)]).blk.stand 95
         { by_ := 7, act := .write (BitVec.allOnes 21) (List.replicate 64 5) } = .go) ∧
    (∀ p : Bool, let b := (part [(Reg.CBW_CFG_EN, cbw 95 7, 1), (Reg.CBW_CFG_PRODUCER, cbw 95 7, 3), (Reg.CBW_CFG_CONSUMER, cbw 95 7, 4),
       (Reg.CBW_CFG_SIZE_LOG2, cbw 95 7, 12), (Reg.CBW_PTR_PROD, cbw 95 7, 2), (Reg.CBW_PTR_CONS, cbw 95 7, 2 ^ 32 - 1)]).blk
     let by_ : Byte := if p then 3 else 4
     let a (n : BitVec 32) : SedgeAcc := { by_, act := .advance 7 p n }
     b.get Reg.CBW_CFG_EN (cbw 95 7) = 1 ∧ b.get (if p then Reg.CBW_CFG_PRODUCER else Reg.CBW_CFG_CONSUMER) (cbw 95 7) = by_.toNat ∧
       b.windowStand 95 (a (if p then 4095 else 2)) 7 = .go ∧ b.windowStand 95 (a (if p then 4096 else 3)) 7 = .wait ∧
       b.stand 95 (a (if p then 4096 else 3)) = .wait ∧ b.get (if p then Reg.CBW_CFG_PRODUCER else Reg.CBW_CFG_CONSUMER) (cbw 95 7) ≠ 5 ∧
       (part []).blk.get Reg.CBW_CFG_EN (cbw 95 7) = 0) := by decide +kernel

/-- A part with one channel toward peer 63. -/
def channel (c : Chan) : Blk := working [] [] fun e => { e with chans := [c] }

theorem test_witness_ChunksBetweenParts :
    (∀ eng : Fin 2, let b := channel { eng := eng.val, peer := 63, chan := 5, reqFinal := true, req := [(0, 1)] }
     b.on = true ∧ (b.chan eng.val 63 5).reqFinal = true ∧ (b.chan eng.val 63 5).serving = false ∧ (b.chan eng.val 63 5).kind = 1 ∧ b.servers ≠ [] ∧
       (b.chan eng.val 62 5).reqFinal = false) ∧
    (∀ eng : Fin 2, let t : Line := 0x90000000D
     let b := channel { eng := eng.val, peer := 63, chan := 5, wait := some (1, 2, 9), trailer := some t, waitFrom := some 0 }
     (b.chan eng.val 63 5).wait = some (1, 2, 9) ∧ (b.chan eng.val 63 5).trailer = some t ∧ lineGet t 4 4 = 9 ∧ lineGet 0 4 4 ≠ 9) ∧
    (∀ eng : Fin 2, let b := channel { eng := eng.val, peer := 63, chan := 5, wait := some (1, 2, 9), waitFrom := some 0 }
     (b.chan eng.val 63 5).wait = some (1, 2, 9) ∧ (b.chan eng.val 63 5).waitFrom = some 0 ∧ (b.chan eng.val 63 5).trailer = none ∧ b.past 0 b.reqTimeout = true ∧
       b.past ((b.chan eng.val 62 5).waitFrom.getD b.el) b.reqTimeout = false) := by decide +kernel

theorem test_witness_TablesAndIndexes :
    (let b := (part [(Reg.table_DIM, 4095, 16), (Reg.table_STRIDE_LOG2, 4095, 6), (Reg.table_NOWN, 4095, 1), (Reg.table_SHARD_LOG2, 4095, 26), (Reg.table_ROWS, 4095, 1)]).blk
     b.opens Pg.emb = true ∧ b.get Reg.EMB_CMD_STATUS_DONE = 1 ∧ b.get Reg.table_STATE 4095 = 0 ∧ b.defineBad 4095 = false ∧ (part []).blk.defineBad 4095 = true) ∧
    (let b := (part [(Reg.table_STATE, 4095, 1), (Reg.table_VERSION_A, 4095, 1)]).blk
     b.get Reg.table_STATE 4095 = 1 ∧ b.pinCount 0 4095 0 = 0 ∧ b.pinCount 0 4095 1 = 0 ∧
       (∀ slot : Fin 2, b.get (inSlot Reg.table_SSTATE_A slot.val) 4095 = 0 ∧ b.slotMisaligned 4095 slot.val = false) ∧
       b.get Reg.table_VERSION_A 4095 ≠ b.get Reg.table_VERSION_B 4095) ∧
    (∀ slot : Fin 2, let w : Work := { first 0x20 with pins := [(0, 4095, slot.val), (1, 255, slot.val)] }
     let b := working [w] [(Reg.table_STATE, 4095, 1), (Reg.index_STATE, 255, 1)]
     b.get Reg.table_STATE 4095 = 1 ∧ b.pinCount 0 4095 slot.val ≠ 0 ∧ b.get Reg.index_STATE 255 = 1 ∧ b.pinCount 1 255 slot.val ≠ 0) ∧
    (let b := (part [(Reg.index_ORIG_STRIDE_LOG2, 255, 8), (Reg.index_DIM, 255, 8), (Reg.index_NSHARD, 255, 1), (Reg.index_SHARD_LOG2, 255, 26),
       (Reg.index_SIDE_LOG2, 255, 4), (Reg.index_NLIST, 255, 1), (Reg.index_VERSION_VA, 255, 8), (Reg.index_SEQ_VA, 255, 64)]).blk
     b.opens Pg.vse = true ∧ b.get Reg.VSE_CMD_STATUS_DONE = 1 ∧ b.get Reg.index_STATE 255 = 0 ∧ b.indexBad 255 = false ∧ (part []).blk.indexBad 255 = true) ∧
    (let b := (part [(Reg.index_STATE, 255, 1)]).blk
     b.get Reg.index_STATE 255 = 1 ∧ b.pinCount 1 255 0 = 0 ∧ b.pinCount 1 255 1 = 0) ∧
    (∀ (slot : Fin 2) (own : Bool),
     let l := [(inSlot Reg.table_SSTATE_A slot.val, 4095, 1), (Reg.table_VERSION_VA, 4095, 8), (Reg.table_NEWEST, 4095, 1),
         (inSlot Reg.index_SSTATE_A slot.val, 255, 1), (Reg.index_VERSION_VA, 255, 8), (Reg.index_NEWEST, 255, 1), (Reg.index_OWN_SHARD, 255, if own then 0 else 0x7F)]
     let b := working [] l fun e => { e with passed := [(0, 4095, slot.val, 0), (1, 255, slot.val, 0)] }
     b.on = true ∧ b.mayRetire embVer 4095 slot.val = true ∧ b.mayRetire vseVer 255 slot.val = true ∧ b.get Reg.EMB_RETIRE_CNT + 1 < 2 ^ 48 ∧
       (b.get Reg.index_OWN_SHARD 255 = 0x7F ↔ own = false)) ∧
    (part []).blk.mayRetire embVer 4095 0 = false ∧ (part []).blk.mayRetire vseVer 255 1 = false := by decide +kernel

theorem test_witness_SearchesAndStreamsGoOn_works :
    (∀ bad : Bool, let x : Query := { q := 3, round := 1, chunks := [4] }
     let w : Work := { first 0x30 with phase := .running, queries := [x], chunks := [{ no := 4, phase := .done, status := if bad then St.malformed else St.ok }] }
     let b := working [w]
     b.eng.works.find? (fun w => w.queue == 1 && w.index == 0 && w.opcode == Dop.vseSearch && w.phase == .running) = some w ∧
       w.queries.find? (·.q == 3) = some x ∧ x.round ≠ 0 ∧ x.chunks ≠ [] ∧ x.status = none ∧ (∀ c ∈ w.roundChunks x, c.phase = CPhase.done) ∧
       (if bad then ((w.roundChunks x).find? (·.status != St.ok)).isSome = true else ∀ c ∈ w.roundChunks x, c.status = St.ok)) ∧
    (let w : Work := { first 0x32 with phase := .running, snap := [5, 0, 0, 0] }
     let b := working [w]
     b.on = true ∧ b.waitingMut 1 0 = some w ∧ w.out = [] ∧ b.past w.since (ns (b.get Reg.SYNC_CFG_POLL_NS)) = true ∧
       w.asked (b.commitAsk w.mIndex (nth 0 w.snap 0)).op = false ∧ b.past (nth 0 w.snap 2) (us (b.get Reg.VSE_CFG_COMMIT_WAIT_US)) = true) ∧
    (let w : Work := { first 0x33 with phase := .running, snap := [0, 0] }
     let b := working [w]
     b.eng.works.find? (fun w => w.queue == 1 && w.index == 0 && w.opcode == Dop.vseMerge && w.phase == .running && w.snap.headD 1 == 0) = some w ∧
       b.past (nth 0 w.snap 1) (us (b.get Reg.VSE_CFG_COMMIT_WAIT_US)) = true) := by decide +kernel

/-- A stream of two chunks. -/
def streamed (id : Nat) : Work :=
  { first 0x40 with id, index := id, desc := 0x40 + (1024 <<< 40 + 1024 <<< 20) <<< 256 + (1 <<< 32 + 1 <<< 8) <<< 320, phase := .running }

theorem test_witness_SearchesAndStreamsGoOn_streams :
    (let st : WStream := { slot := 1023, work := 1, next := 0 }
     let r : WStream := { slot := 5, work := 2, next := 0 }
     let b := working [streamed 1, streamed 2] [] fun e => { e with streams := [st, r] }
     b.on = true ∧ (b.eng.streams.filter b.streamReady).find? (·.slot == 1023) = some st ∧ (b.eng.streams.filter b.streamReady).find? (·.slot == 5) = some r ∧
       r ∈ b.eng.streams ∧ b.streamReady r = true ∧ (b.eng.streams.filter b.streamReady).find? (·.slot == 6) = none ∧
       (∀ q ∈ b.eng.streams, b.streamReady q = true → (r.slot + 1023 - b.eng.wstTurn) % 1024 ≤ (q.slot + 1023 - b.eng.wstTurn) % 1024) ∧
       (r.slot + 1023 - b.eng.wstTurn) % 1024 < (st.slot + 1023 - b.eng.wstTurn) % 1024) ∧
    (∀ owned : Bool, let x : CbwSetup := { w := 7, base := 0x1FF000, sizeLog2 := 12, producer := 3, consumer := 4 }
     let b := working [streamed 1] [(Reg.SEDGE_OWN_HI_OWN, 0, if owned then 0x87 * 2 ^ 56 else 0)] fun e => { e with
       streams := [{ slot := 1023, work := 1, next := 0 }] }
     (b.eng.streams.filter b.streamReady).find? (·.slot == 1023) = some { slot := 1023, work := 1, next := 0 } ∧
       b.work? 1 = some (streamed 1) ∧ (streamed 1).tile < 96 ∧ x.fits = true ∧ x.banks = [15] ∧
       (b.bankOwner (streamed 1).tile 15 = windowOwner x.w.val ↔ owned = true)) ∧
    (let st : WStream := { slot := 1023, work := 1, next := 1 }
     let o : Out := { fr := { dst := 0xFFC0, tag := 9 }, agent := .work 1 (finalOp 0 2), mc := true }
     let b := { working [streamed 1] [] fun e => { e with streams := [st] } with orig := { out := [o] } }
     b.eng.streams.find? (·.slot == 1023) = some st ∧ b.orig.out.find? (fun o => o.mc && o.agent == .work st.work (finalOp 0 2)) = some o ∧
       b.orig.out.find? (fun p => p.fr.dst.toNat == o.fr.dst.toNat && p.fr.tag.toNat == o.fr.tag.toNat) = some o ∧
       b.past o.sent b.reqTimeout = true) := by decide +kernel

/-- A part whose PCIe link is up. -/
def hosted (l : List (Fld × Nat × Nat)) (f : Pcie → Pcie := id) : Blk :=
  (part ([(Reg.PCIE_LINK_SPEED, 0, 5), (Reg.PCIE_LINK_WIDTH, 0, 16)] ++ l) fun b => { b with pcie := f b.pcie }).blk

theorem test_witness_Bar4AndPcie :
    (let b := hosted [(Reg.PCIE_HOST_NODE, 0, 0x40), (Reg.func_BAR4_EN, 64, 1), (Reg.seg_V, segOf 64 (2 ^ 36 - 8), 1)]
     b.on = true ∧ b.linkUp = true ∧ b.bar4Refused 64 (2 ^ 36 - 8) = false ∧ nth 0 [Opc.add, Opc.swap, Opc.cas] 2 = Opc.cas) ∧
    (2 ^ 23 - 8 < 2 ^ 23 ∧ (2 ^ 23 - 8) % 8 = 0 ∧ ¬((4 = 4 ∨ 4 = 8) ∧ (2 ^ 23 - 4) % 8 = 0)) ∧
    (let b := hosted [] fun p => { p with pba := [64 * 2048 + 63] }
     b.served = true ∧ b.linkUp = true ∧ 63 < vectorsOf 64 ∧ b.pcie.pba.contains (64 * 2048 + 63) = true ∧ 2047 < vectorsOf 0 ∧
       (∀ p ∈ b.eng.monWork, p.1 < 65536) ∧ Sparse.wf 0xFF b.aon.nor = true ∧ Sparse.wf 0 b.fs = true ∧ b.pcieOn = true ∧ b.get Reg.qctx_FUNC (2 ^ 20 - 1) = 0) ∧
    (∀ part : Fin 4, 63 < vectorsOf 64 ∧ 2 ^ 23 + 16 * 63 + 4 * part.val < 2 ^ 24) ∧ [128, 256, 512].contains 512 = true ∧
    [128, 256, 512, 1024, 2048, 4096].contains 4096 = true ∧
    (∀ k : Fin 4, let b := hosted [] |>.setAon fun a => { a with mode := .boot (k.val + 2) }
     b.aon.mode = .boot (k.val + 2) ∧ b.linkUp = true) ∧
    ([1, 4, 8, 16].contains 16 = true) := by decide +kernel

theorem test_witness_Bar4Refused :
    (let b := hosted []
     b.on = true ∧ b.linkUp = true ∧ b.get Reg.PCIE_HOST_NODE < 0x40 ∧ b.get Reg.func_BAR4_EN 64 = 0 ∧ b.get Reg.seg_V (segOf 64 (2 ^ 36 - 1)) = 0 ∧
       b.get Reg.PCIE_BAR4_ERR_CNT < 2 ^ 48 - 1 ∧ bitAt (b.get Reg.ERR_STICKY_ERR Pg.pcie) 0 = false) ∧
    (hosted [(Reg.PCIE_HOST_NODE, 0, 0x3F)]).get Reg.PCIE_HOST_NODE < 0x40 := by decide +kernel

/-- A part with its AON island set. -/
def island (l : List (Fld × Nat × Nat)) (f : Aon → Aon) : Blk := (part l fun b => at_ (secs 100000) b |>.setAon f).blk

theorem test_witness_RailsAndSensors_rails :
    (island [] fun a => { a with mode := .dark }).aon.mode = .dark ∧
    (part []).blk.aon.reqs = [0, 1, 2] ∧ (part []).blk.aon.goods = [0, 1, 2] ∧
    (let b := island [] fun a => { a with fall := some (2, 0, 5), reqs := [0, 1], goods := [0, 1] }
     b.aon.fall = some (2, 0, 5) ∧ b.aon.reqs = [0, 1] ∧ b.aon.goods = [0, 1]) ∧
    (∀ g k : Fin 3, let b := island [] fun a => { a with mode := .rails k.val }
     b.aon.fall = none ∧ b.aon.goods.contains g.val = true ∧ b.aon.mode = .rails k.val ∧ b.aon.wake ≠ 3) ∧
    (∀ g : Fin 3, let b := island [] fun a => { a with mode := .rails g.val }
     b.aon.mode = .rails g.val ∧ b.aon.wake ≠ 3 ∧ b.past b.aon.since (ms 50) = true ∧ (part []).blk.aon.goods.contains g.val = true) ∧
    (∀ k : Fin 4, (island [] fun a => { a with reqs := (List.range k.val) }).aon.reqs = List.range k.val ∧ (part []).blk.aon.wake = 0) ∧
    (let b := island [] fun a => { a with mode := .retry }
     b.aon.mode = .retry ∧ b.past b.aon.since (secs 1) = true) ∧
    ((part []).blk.held = false ∧ (part []).blk.aon.mode = .run ∧ (part [] fun b => { b with held := true }).blk.held = true ∧
      (part []).blk.get Reg.TIME_STATUS_STATE ≠ 2) := by decide +kernel

theorem test_witness_RailsAndSensors_core :
    (let b := (part [(Reg.PWR_VCORE_STATUS_VCORE_MV, 0, 845)]).blk
     b.opens Pg.pwr = true ∧ 850 ≤ (850#10).toNat ∧ (25#5).toNat ≤ 25 ∧ (850#10).toNat ≤ 850 ∧ 600 ≤ (850#10).toNat ∧ b.aon.avs = none ∧
       b.get Reg.PWR_VCORE_STATUS_VCORE_MV < (850#10).toNat ∧
       (600#10).toNat < b.get Reg.PWR_VCORE_STATUS_VCORE_MV ∧ 600 ≤ (600#10).toNat ∧ (600#10).toNat ≤ (600#10).toNat) ∧
    (∀ up : Bool, let b := island [(Reg.PWR_VCORE_TARGET_MV, 0, 800)] fun a => { a with avs := some (if up then 780 else 820, 0) }
     b.served = true ∧ b.aon.avs = some (if up then 780 else 820, 0) ∧ (if up then 780 else 820) < 1024 ∧
       ((if up then 780 else 820) < b.get Reg.PWR_VCORE_TARGET_MV ↔ up = true) ∧ (b.get Reg.PWR_VCORE_TARGET_MV < (if up then 780 else 820) ↔ up = false)) ∧
    (let b := island (List.ofFn fun t : Fin 96 => (Reg.TILE_STATE_STATE, t.val, Ts.gated)) fun a => { a with avs := some (750, 0) }
     b.served = true ∧ b.aon.avs = some (750, 0) ∧ 750 = b.get Reg.PWR_VCORE_TARGET_MV ∧ b.past 0 (ms 1) = true) ∧
    (let b := island [(Reg.PWR_CAP_CORE_CAP_W, 0, 1), (Reg.PWR_VCORE_STATUS_VCORE_MV, 0, 1001)] id
     b.kept = true ∧ 0 < b.get Reg.PWR_CAP_CORE_CAP_W ∧ b.past b.aon.capAt (us 100) = true ∧
       b.get Reg.PWR_CAP_CORE_CAP_W * 1000 < b.get Reg.PWR_VCORE_STATUS_VCORE_MV * (1#12).toNat ∧
       b.get Reg.PWR_VCORE_VMIN_MV < b.get Reg.PWR_VCORE_TARGET_MV ∧ b.get Reg.PWR_CAP_ACT_CNT < 2 ^ 48 - 1) ∧
    (let b := (part []).blk
     toSigned 8 (b.get Reg.PWR_THERM_TJ_C) < (b.get Reg.PWR_THERM_WARN_C : Int) ∧ (b.get Reg.PWR_THERM_WARN_C : Int) ≤ 127 ∧
       b.get Reg.PWR_WARN_CNT < 2 ^ 48 - 1) := by decide +kernel

theorem test_witness_TimeCounterAdvances :
    (let b := (part [(Reg.TIME_CMD_ARG_NS, 0, 2 ^ 64 - 1)]).blk
     b.held = false ∧ b.aon.mode ≠ .dark ∧ b.t + 41 * 2 ^ 32 < 2 ^ 96 ∧ b.opens Pg.time = true ∧ b.get Reg.TIME_CMD_STATUS_DONE = 1 ∧ b.t < 2 ^ 96 ∧
       b.now ≤ b.get Reg.TIME_CMD_ARG_NS) ∧
    (let b := (part [] fun b => { b with t := 2 ^ 96 - 1 }).blk
     b.t < 2 ^ 96 ∧ b.get Reg.TIME_CMD_ARG_NS < b.now) ∧
    (let b := (part [(Reg.TIME_CTRL_PPS_OUT_EN, 0, 1)] fun b => { { b with t := 10 ^ 9 * 2 ^ 32 - 1 } with aon := { b.aon with ppsRise := some 0 } }).blk
     let c := { b with t := 0 }
     b.held = false ∧ b.aon.mode ≠ .dark ∧ b.get Reg.TIME_CTRL_PPS_OUT_EN = 1 ∧ wholeSecond b.t < wholeSecond b.tick.t ∧ b.aon.ppsRise = some 0 ∧
       wholeSecond c.tick.t ≤ wholeSecond c.t ∧ c.tick.past 0 (ms 100) = false ∧ { c with el := ms 100 }.tick.past 0 (ms 100) = true) ∧
    (part []).blk.aon.ppsRise = none ∧ (part []).blk.aon.fall = none ∧ (part []).blk.get Reg.TIME_CTRL_PPS_OUT_EN = 0 ∧
    (part []).blk.t + 2 ^ 43 < 2 ^ 96 := by decide +kernel

theorem test_witness_TimeStates :
    (let b := (part [(Reg.TIME_CTRL_PTP_EN, 0, 1)]).blk
     b.served = true ∧ b.ptpTakes 0 false = true ∧ b.ptpTakes 1 false = false ∧ 0 < ({ id := 9, interval := 1 } : Announce).interval ∧
       b.get Reg.TIME_STATUS_STATE = Tm.free ∧ b.get Reg.TIME_CTRL_PPS_IN_EN = 0 ∧
       b.get Reg.TIME_PPS_IN_CNT < 2 ^ 48 - 1) ∧
    (let b := island [(Reg.TIME_CTRL_PTP_EN, 0, 1), (Reg.TIME_STATUS_STATE, 0, Tm.acquiring), (Reg.TIME_MASTER_ID, 0, 5)] fun a => { a with rank := 5 }
     let m : Announce := { id := 4, interval := 1 }
     b.masterless = false ∧ m.rank ≤ b.aon.rank ∧ b.aon.rank < ({ m with id := 6 } : Announce).rank ∧ (6#64).toNat ≠ b.get Reg.TIME_MASTER_ID) ∧
    (let b := (part [(Reg.TIME_CTRL_PTP_EN, 0, 1), (Reg.TIME_STATUS_STATE, 0, Tm.acquiring), (Reg.TIME_MASTER_ID, 0, 5)] fun b =>
       { b with t := 2 ^ 95 }).blk
     (∀ ahead : Bool, let m : PtpSync := { id := 5, origin := if ahead then b.now + 2000000000 else b.now - 2000000000 }
      b.ptpTakes m.domain.toNat m.udp = true ∧ m.id.toNat = b.get Reg.TIME_MASTER_ID ∧ m.p2p = b.flag Reg.TIME_CTRL_DELAY ∧
        b.syncOffset m = if ahead then 2000000000 else -2000000000) ∧ b.get Reg.TIME_STATUS_STATE = Tm.acquiring ∧ b.ppsPhase = false ∧ b.aon.lockedOnce = false ∧ (b.get Reg.TIME_STEP_THRESH_NS : Int) < 2000000000 ∧
       b.get Reg.TIME_LOCK_LOCK_NS < b.get Reg.TIME_STEP_THRESH_NS ∧ b.t < 2 ^ 96 ∧ b.now + (2000000000 : Int).toNat < 2 ^ 64 ∧
       b.get Reg.TIME_SERVO_SLEW_PPM ≤ 1000 ∧ (-2000000000 : Int) < -(b.get Reg.TIME_STEP_THRESH_NS : Int)) ∧
    (∀ st : Fin 2, let b := island [(Reg.TIME_STATUS_STATE, 0, 2 + st.val)] id
     b.past b.aon.syncAt (ns (3 * b.aon.announce)) = true ∧ b.past b.aon.holdAt (secs (b.get Reg.TIME_SERVO_HOLDOVER_S)) = true ∧
       b.get Reg.TIME_STATUS_STATE = 2 + st.val) ∧
    (let b := island [(Reg.TIME_CTRL_PPS_IN_EN, 0, 1)] id
     b.ppsPhase = true ∧ b.past b.aon.ppsAt (ms 1500) = true) := by decide +kernel

theorem test_witness_ResetLevel :
    (let b := (part []).blk
     b.aon.mode = .run ∧ b.level ≠ 3 ∧ b.levelOf {} 1 none = 1 ∧ b.levelOf { map := 0 } 1 none = 0 ∧
       ({} : Fuse).map.toNat % 4 ≤ 2 ∧ b.get Reg.GLB_RESET_MAP_SW_MAP % 4 ≤ 2 ∧ ({ map := 3 } : Fuse).map.toNat % 4 = 3) := by decide +kernel

theorem test_witness_ResetSourcesAndL2 :
    (let b := island [(Reg.GLB_ESCALATE_EN, 0, 1)] fun a => { a with wdog := some 0, fatal := [(0, 0)] }
     b.aon.wdog = some 0 ∧ b.past 0 b.wdogSpan = true ∧ b.aon.mode = .run ∧ b.get Reg.GLB_ESCALATE_EN = 1 ∧
       b.aon.fatal.any (fun e => b.past e.2 (ms (b.get Reg.GLB_ESCALATE_HOLD_MS))) = true ∧ b.aon.trip = false ∧
       b.opens Pg.glb = true ∧ b.get Reg.GLB_RST_STATUS_DONE = 1 ∧ b.opens Pg.dbg = true ∧ b.get Reg.DBG_STATE_LEVEL ≠ 2 ∧
       b.prot = none ∧ b.tier.fetches = [] ∧ b.tier.downs = [] ∧ b.tier.job = none) ∧
    (island [] fun a => { a with trip := true }).aon.trip = true ∧ (part []).blk.aon.reqs = [0, 1, 2] ∧ (part []).blk.aon.goods = [0, 1, 2] ∧
    (island [] fun a => { a with goods := [] }).aon.goods = [] ∧ (part [(Reg.TILE_STATE_STATE, 95, Ts.retired)]).blk.get Reg.TILE_STATE_STATE 95 = Ts.retired ∧
    Reg.dir_V.sp = .t_dir ∧ Reg.dir_V.key 262143 / 2 ^ 60 = Space.t_dir.code ∧
    (let b := (part [(Reg.DBG_STATE_LEVEL, 0, 2)]).blk
     b.opens Pg.dbg = true ∧ b.get Reg.DBG_STATE_LEVEL = 2 ∧ b.get Reg.GLB_RST_STATUS_DONE = 1) ∧
    (island [] fun a => { a with mode := .l2 }).aon.mode = .l2 := by decide +kernel

theorem test_witness_ResetMapOnlyDeepens : (part []).blk.opens Pg.glb = true := by decide +kernel

/-- An image of type 1 with an empty body: its header in the other slot, whose reserved bytes are zero. -/
def image (svn : Nat) : List (Nat × Byte) :=
  let h := natBytes 4 0x4B484657 ++ [1, 0, 0, 0, 0, 0, 0, 0, 0, 0, 0, 0, svn, 0, 0, 0, 0, 0, 0, 0] ++ natBytes 32 0x55b852781b9995a44c939b64e441ae2724b96f99c8f4fb9a141cfc9842c4b0e3 ++ List.replicate 8 0
  (h.zip (List.range 64)).map (fun x => (slotBase 1 + x.2, .ofNat 8 x.1)) ++ (List.range 428).map fun i => (slotBase 1 + 3668 + i, 0)

/-- A part that runs SVN 1 from slot A. -/
def running (nor : List (Nat × Byte)) : Blk := island [(Reg.GLB_SVN_RUN_SVN, 0, 1)] fun a => { a with nor }

theorem image_zero (svn i : Nat) (hi : i < 428) (hs : ∀ e ∈ (image svn).take 64, e.1 < slotBase 1 + 3668)
    (hd : (image svn) = (image svn).take 64 ++ ((List.range 428).map (fun k => (slotBase 1 + 3668 + k, (0 : Byte))) ++ [])) :
    Sparse.get (0xFF : Byte) (image svn) (slotBase 1 + 3668 + i) = 0 := by
  rw [hd, get_past _ _ _ _ (fun e he => Nat.lt_of_lt_of_le (hs e he) (Nat.le_add_right _ _))]
  exact get_of_mem (0xFF : Byte) 0 (fun k => slotBase 1 + 3668 + k) [] i (List.range 428) (by simpa using hi)

theorem running_zero : (((running (image 1)).norAt (slotBase 1) 3668 428).all (· == 0)) = true := by
  simp only [Blk.norAt, Blk.norBytes, List.all_map, List.all_eq_true, List.mem_range]
  intro i hi
  have hn : (running (image 1)).aon.nor = image 1 := by rfl
  have h : (running (image 1)).norByte (slotBase 1 + 3668 + i) = 0 := by
    rw [Blk.norByte, hn, image_zero 1 i hi (by decide +kernel) (by decide +kernel)]
    rfl
  simp [h]

theorem test_witness_CommitSvn :
    (let b := running []
     b.opens Pg.glb = true ∧ b.get Reg.GLB_NOR_STATUS_DONE = 1 ∧ b.get Reg.GLB_BOOT_STATUS_RECOVERY = 0 ∧
       ({} : Fuse).svn < b.get Reg.GLB_SVN_RUN_SVN ∧ b.get Reg.GLB_SVN_RUN_SVN ≤ ({ svn := 1 } : Fuse).svn ∧
       1 - b.get Reg.GLB_BOOT_STATUS_FW_SLOT = 1 ∧ b.slotCode {} 1 ≠ ok ∧ (running (image 0)).norByte (slotBase 1 + 16) < b.get Reg.GLB_SVN_RUN_SVN) ∧
    (running (image 1)).get Reg.GLB_SVN_RUN_SVN ≤ (running (image 1)).norByte (slotBase 1 + 16) := by decide +kernel

/-- An image passes where its signature does: the key is the maker's (Config.firmwareKey), so none can be signed here. -/
theorem test_witness_CommitSvn_signed
    (h : hssVerify (natBytes 60 Config.firmwareKey) ((running (image 1)).norAt (slotBase 1) 0 64) ((running (image 1)).norAt (slotBase 1) 64 3604) = true) :
    (running (image 1)).slotCode {} 1 = ok := by
  unfold Blk.slotCode imageCode
  dsimp only
  rw [h, running_zero, if_neg (by decide +kernel), if_neg (by decide +kernel), if_neg (by decide), if_neg (by decide +kernel)]

theorem test_witness_BootStoreAndImages :
    (let b := (part [(Reg.GLB_NOR_ARG_NOR_OFF, 0, slotBase 1), (Reg.GLB_NOR_ARG_LEN, 0, 65536)]).blk
     b.opens Pg.glb = true ∧ b.get Reg.GLB_NOR_STATUS_DONE = 1 ∧ b.get Reg.GLB_NOR_ARG_NOR_OFF = slotBase 1 ∧ b.get Reg.GLB_NOR_ARG_LEN = 65536 ∧
       slotBase 1 % 256 = 0 ∧ slotBase (1 - b.get Reg.GLB_BOOT_STATUS_FW_SLOT) ≤ slotBase 1 ∧
       slotBase 1 + 65536 ≤ slotBase (1 - b.get Reg.GLB_BOOT_STATUS_FW_SLOT) + 0x1800000 ∧ b.get Reg.GLB_BOOT_STATUS_RECOVERY = 0 ∧
       b.recoverCode {} ≠ ok ∧ b.norTarget (slotBase 1) = true ∧ b.norTarget (slotBase 0) = false) ∧
    (let b := island [(Reg.GLB_NOR_ARG_NOR_OFF, 0, 1), (Reg.GLB_NOR_ARG_LEN, 0, 256)] fun a => { a with loser := some 1 }
     b.norTarget 0x100000 = true ∧ b.get Reg.GLB_NOR_ARG_NOR_OFF + b.get Reg.GLB_NOR_ARG_LEN ≤ 0x3200000 ∧ b.get Reg.GLB_NOR_ARG_NOR_OFF % 256 ≠ 0) ∧
    (let b := (part [(Reg.GLB_NOR_ARG_NOR_OFF, 0, 0x3A00000 - 256), (Reg.GLB_NOR_ARG_LEN, 0, 256)]).blk
     b.get Reg.GLB_NOR_ARG_NOR_OFF < 0x3A00000 ∧ 0x3200000 < b.get Reg.GLB_NOR_ARG_NOR_OFF + b.get Reg.GLB_NOR_ARG_LEN) := by decide +kernel

theorem test_witness_BootStarts :
    let s := State.reset
    (∃ k : Nat, s.blk.aon.mode = .reset k) ∧ s.blk.aon.wake ≠ 3 ∧ s.blk.past s.blk.aon.ready 0 = true ∧ ({ force := true } : BootIn).force = true ∧
    s.blk.get Reg.GLB_FAILED_START_COUNT < s.fuse.startLimit ∧ s.blk.cfgWinner = none ∧ 1 ≤ s.blk.levelOf s.fuse 3 none ∧
    s.fuse.startLimit ≤ (part [(Reg.GLB_FAILED_START_COUNT, 0, 3)]).blk.get Reg.GLB_FAILED_START_COUNT := by
  refine ⟨⟨0, rfl⟩, ?_⟩; decide +kernel

/-- Configuration copy A, without entries. -/
def copyA : List (Nat × Byte) :=
  let l : List Nat := natBytes 8 0 ++ natBytes 4 32 ++ natBytes 4 0xF1D20B11 ++ [1] ++ List.replicate 15 0
  (l.zip (List.range 32)).map fun x => (x.2, .ofNat 8 x.1)

/-- A part before its release, out of power or out of P3, with that copy and an image in slot B. -/
def bootable (p3 : Bool) : State :=
  { blk := island [(Reg.qctx_STATE, 5, Qst.stopped)] fun a => { a with
      nor := copyA ++ image 1, mode := .reset 1, wake := if p3 then 3 else 0, entry := some { target := 3, step := 7, since := 0, queues := [5] } } }

theorem bootable_zero (p3 : Bool) : (((bootable p3).blk.norAt (slotBase 1) 3668 428).all (· == 0)) = true := by
  simp only [Blk.norAt, Blk.norBytes, List.all_map, List.all_eq_true, List.mem_range]
  intro i hi
  have hn : (bootable p3).blk.aon.nor = copyA ++ image 1 := by rfl
  have h : (bootable p3).blk.norByte (slotBase 1 + 3668 + i) = 0 := by
    rw [Blk.norByte, hn, get_past _ _ _ copyA (fun e he => by
      have := (show ∀ e ∈ copyA, e.1 < 32 by decide +kernel) e he
      have : (32 : Nat) ≤ slotBase 1 := by decide
      omega), image_zero 1 i hi (by decide +kernel) (by decide +kernel)]
    rfl
  simp [h]

theorem test_witness_BootStarts_releases (p3 : Bool) :
    let b := (bootable p3).blk
    let c := b.cfgWinner
    let b2 := ((b.clear.setAon fun a => { a with up := false }).ownAddress {} |>.checkStart {} false).2
    let b4 := ((((b2.enter (.boot 3)).atStage 3).enter (.boot 4)).atStage 4)
    b.aon.mode = .reset 1 ∧ b.past b.aon.ready 0 = true ∧ (b.aon.wake = 3 ↔ p3 = true) ∧ b.get Reg.GLB_FAILED_START_COUNT < ({} : Fuse).startLimit ∧
      c.map (fun x => (x.1, x.2.pref, x.2.entries)) = some (0, 0, []) ∧ (((b4.runImage 1 0).enter (.boot 5)).atStage 5).aon.mode = .boot 5 ∧
      bitAt ((((b4.runImage 1 0).enter (.boot 5)).atStage 5).get Reg.HBM_GLB_STACK_EN) 11 = true ∧
      (∀ e : Entry, b.aon.entry = some e → ∀ q ∈ e.queues, q < 2 ^ 20) ∧ b.get Reg.qctx_STATE 5 = Qst.stopped := by
  cases p3 <;> refine ⟨by decide +kernel, by decide +kernel, by decide +kernel, by decide +kernel, by decide +kernel, by decide +kernel, by decide +kernel,
    fun e he => ?_, by decide +kernel⟩ <;> (cases he; decide)

/-- A start goes on where the image's signature passes: the key is the maker's (Config.firmwareKey), so none can be signed here. -/
theorem test_witness_BootStarts_signed (p3 : Bool)
    (h : hssVerify (natBytes 60 Config.firmwareKey) ((bootable p3).blk.norAt (slotBase 1) 0 64) ((bootable p3).blk.norAt (slotBase 1) 64 3604) = true) :
    (bootable p3).blk.bootSlot {} ((bootable p3).blk.get Reg.GLB_FAILED_START_COUNT % 2 == 1) 0 = some 1 := by
  have h1 : (bootable p3).blk.slotCode {} 1 = ok := by
    unfold Blk.slotCode imageCode
    dsimp only
    rw [h, bootable_zero]
    cases p3 <;> rw [if_neg (by decide +kernel), if_neg (by decide +kernel), if_neg (by decide), if_neg (by decide +kernel)]
  have h0 : ((bootable p3).blk.slotCode {} 0 == ok) = false := by cases p3 <;> decide +kernel
  have hc : ((bootable p3).blk.get Reg.GLB_FAILED_START_COUNT % 2 == 1) = false := by cases p3 <;> decide +kernel
  rw [hc]
  simp only [Blk.bootSlot, Bool.false_eq_true, if_false, List.find?, h0, h1, Nat.sub_zero, beq_self_eq_true]

theorem test_witness_LowPowerEntry :
    (∀ d2 : Bool, let b := (part [(Reg.DBG_STATE_LEVEL, 0, if d2 then 2 else 0), (Reg.qctx_STATE, 2 ^ 20 - 1, Qst.ready)]).blk
     b.opens Pg.pwr = true ∧ b.aon.mode = .run ∧ b.get Reg.PWR_CMD_STATUS_DONE = 1 ∧ b.anyBusy = false ∧ b.level = (if d2 then 2 else 0) ∧ b.level ≠ 3 ∧
       b.recovery = false ∧ b.get Reg.qctx_STATE (2 ^ 20 - 1) = Qst.ready) ∧
    (∀ (k : Fin 6) (p3 : Bool), let e : Entry := { target := if p3 then 3 else 4, step := k.val + 2, since := 0, queues := [2 ^ 20 - 1] }
     let b := island [(Reg.qctx_STATE, 2 ^ 20 - 1, Qst.stopped)] fun a => { a with entry := some e }
     b.on = true ∧ b.aon.entry = some e ∧ e.step = k.val + 2 ∧ b.eng.works.any Work.holdsUp = false ∧ b.entriesWith Reg.dir_V = [] ∧ b.home.reqs = [] ∧
       b.tier.fetches = [] ∧ b.tier.downs = [] ∧ b.peat.open_ = [] ∧ b.peat.closing = [] ∧ b.peat.ops = [] ∧ b.peat.fmt = none ∧
       b.aon.reqs = [0, 1, 2] ∧ b.aon.goods = [0, 1, 2] ∧
       (e.target = 4 ↔ p3 = false) ∧ b.past e.since (secs 10) = true ∧ (∀ q ∈ e.queues, q < 2 ^ 20) ∧
       b.get Reg.qctx_STATE (2 ^ 20 - 1) = Qst.stopped) ∧
    (let e : Entry := { target := 4, step := 2, since := 0 }
     let b := { working [{ first 1 with phase := .running }] with aon := { mode := .run, entry := some e } }
     b.on = true ∧ b.aon.entry = some e ∧ b.eng.works.any Work.holdsUp = true) ∧
    (∀ p3 : Bool, let b := { island [(Reg.PWR_WAKE_TIME_SECONDS, 0, 1)] fun a => { a with mode := if p3 then .p3 else .p4, reqs := if p3 then [0] else [] }
       with t := 2 ^ 95 }
     b.aon.mode = (if p3 then .p3 else .p4) ∧ b.aon.reqs = (if p3 then [0] else []) ∧ b.get Reg.PWR_WAKE_TIME_SECONDS ≠ 0 ∧
       b.get Reg.PWR_WAKE_TIME_SECONDS * 10 ^ 9 ≤ b.now) := by decide +kernel

theorem test_witness_TilesGatedAndTested :
    (let b := island [(Reg.PWR_CFG_RUN_STATE, 0, 1), (Reg.MGMT_SELFTEST_CFG_SLICE_S, 0, 1)] id
     b.on = true ∧ b.get Reg.TILE_STATE_STATE 95 = Ts.run ∧ b.get Reg.PWR_CFG_RUN_STATE ≠ 0 ∧ b.tileBusy 95 = false ∧ b.eng.halted.contains 95 = false ∧
       b.past (Sparse.get 0 b.aon.idle 95) (us (b.get Reg.PWR_CFG_GATE_IDLE_US)) = true ∧ b.opens Pg.pwr = true ∧
       b.opens Pg.mgmt = true ∧ b.get Reg.MGMT_CMD_STATUS_DONE = 1 ∧ b.tileState 95 = Ts.run ∧ b.aon.slice = none ∧ b.queuesIdle = true ∧
       b.get Reg.MGMT_SELFTEST_CFG_SLICE_S ≠ 0 ∧ b.aon.sliceNext = 0 ∧ b.tileState 0 = Ts.run ∧ b.eng.halted = [] ∧
       b.past b.aon.sliceAt (secs (b.get Reg.MGMT_SELFTEST_CFG_SLICE_S)) = true ∧ b.aon.retireNext < 16 ∧
       b.past (Sparse.get 0 b.aon.canaryAt 95) (ms (b.get Reg.MGMT_CANARY_CFG_CANARY_MS)) = true) ∧
    (∀ testing gated : Bool, let x : Slice := { tile := 95, gated, testing, since := 0 }
     let b := island [] fun a => { a with slice := some x, retireNext := 15 }
     b.aon.slice = some x ∧ x.cmd = false ∧ x.tile < 96 ∧ b.past x.since (ms (b.get Reg.MGMT_SELFTEST_CFG_DRAIN_MAX_MS)) = true ∧ b.aon.retireNext < 16 ∧
       b.get Reg.MGMT_SLICE_ABANDON_CNT < 2 ^ 48 - 1) ∧
    (let b := (part (List.ofFn fun t : Fin 96 => (Reg.TILE_STATE_STATE, t.val, Ts.gated))).blk
     b.on = true ∧ b.tilesIn Ts.run = []) ∧
    (let b := (part []).blk
     b.on = true ∧ (-128 : Int) ≤ 127 ∧ toSigned 8 (b.get Reg.PWR_THERM_TJ_C) < b.get Reg.PWR_THERM_WARN_C ∧
       (b.get Reg.PWR_THERM_WARN_C : Int) ≤ 127 ∧ b.tileState 95 = Ts.run ∧ failOf [(95, 7)] 95 = some 7 ∧ failOf [(95, 7)] 0 = none ∧ b.tileState 0 = Ts.run ∧
       b.get Reg.MGMT_CANARY_CFG_TEMP_BAND_C ≤ ((127 : Int) - toSigned 8 (Sparse.get 0 b.aon.tempAt 95)).natAbs ∧
       ((toSigned 8 (Sparse.get 0 b.aon.tempAt 95)) - toSigned 8 (Sparse.get 0 b.aon.tempAt 95)).natAbs < b.get Reg.MGMT_CANARY_CFG_TEMP_BAND_C) := by decide +kernel

theorem test_witness_LifecycleTransitions :
    (let b := (part []).blk
     b.opens Pg.sec = true ∧ b.unsettled = false ∧ b.get Reg.SEC_CMD_STATUS_DONE = 1 ∧ b.aon.mode = .run ∧ b.level ≠ 3 ∧
       b.get Reg.SEC_OWNER_STAGE_SEED = (0#256).toNat ∧ b.get Reg.SEC_DBGKEY_STAGE_HASH = (0#256).toNat) ∧
    (let b := (part [(Reg.DBG_STATE_LEVEL, 0, 3)]).blk
     b.level = 3 ∧ b.alive = true ∧ b.unsettled = false ∧ b.get Reg.SEC_CMD_STATUS_DONE = 1 ∧ b.aon.mode = .run) ∧
    ({} : Fuse).life = 0 ∧ ({ lc := 1 } : Fuse).life = 1 ∧ ({ lc := 1 } : Fuse).seed = 0 ∧ ({ lc := 1 } : Fuse).dbgKey = 0 ∧
    BitVec.ofNat 256 ((part [(Reg.SEC_OWNER_STAGE_SEED, 0, 3)]).blk.get Reg.SEC_OWNER_STAGE_SEED) &&& 1#256 ≠ 0 ∧
    ({ lc := 3 } : Fuse).life = 2 ∧ (0xD4#8) ≠ 0xD5 ∧ ({ lc := 5 } : Fuse).life = 3 ∧
    ((part []).blk.opens Pg.sec = true ∧ (∀ n : Fin 2, n.val + 1 = ({ lc := if n = 0 then 1 else 3 } : Fuse).life)) := by decide +kernel

/-- A part with a challenge drawn at once and a token that answers it at D1 for one second. -/
def challenged : Blk :=
  let t := natBytes 4 0x4B484454 ++ [1, 0, 0, 0] ++ natBytes 8 0 ++ natBytes 32 5 ++ natBytes 4 1
  (part [(Reg.DBG_CHALLENGE_NONCE, 0, 5), (Reg.token_area_DATA, 0, ofNatBytes t)] fun b => b.setAon fun a => { a with chal := some 0 }).blk

theorem test_witness_ChallengeServesOnce :
    (let b := challenged
     b.opens Pg.dbg = true ∧ b.unsettled = false ∧ b.get Reg.DBG_CMD_STATUS_DONE = 1) ∧
    (let b := island [] fun a => { a with chal := some 0 }
     b.aon.chal = some 0 ∧ b.past 0 (secs 60) = true) := by decide +kernel

theorem test_witness_DebugUnlockAndSessions :
    (∀ l : Fin 3, let b := { (part [(Reg.DBG_STATE_LEVEL, 0, l.val)]).blk with t := 2 ^ 95 }
     b.opens Pg.dbg = true ∧ b.unsettled = false ∧ b.get Reg.DBG_CMD_STATUS_DONE = 1 ∧ b.level = l.val ∧ b.get Reg.DBG_EXPIRY_TIME ≤ b.now ∧
       b.tileState 95 = Ts.run ∧ b.get Reg.DBG_PEEK_ADDR_SPACE = 0 ∧ b.get Reg.DBG_PEEK_ADDR_TILE < 96 ∧ b.get Reg.DBG_PEEK_ADDR_OFFSET % 8 = 0 ∧
       b.get Reg.DBG_PEEK_ADDR_OFFSET < 4096 ∧ b.recovery = false ∧ b.aon.mode = .run) ∧
    (working [] [(Reg.DBG_STATE_LEVEL, 0, 2)] fun e => { e with halted := [95] }).eng.halted.contains 95 = true ∧
    (∀ runs : Bool, let b := (part [(Reg.DBG_STATE_LEVEL, 0, 2), (Reg.SYNC_DBG_STATUS_DONE, 0, if runs then 0 else 1)] fun b =>
       b.setAon fun a => { a with expired := true }).blk
     b.levelRuns = runs ∧ b.aon.expired = true ∧ b.level ≠ 0) ∧
    (∀ p : Fin 2, let b := (part [(Reg.DBG_POKE_ADDR_OFFSET, 0, (if p = 0 then Pg.sec else Pg.dbg) * 4096)]).blk
     b.get Reg.DBG_POKE_ADDR_OFFSET % 8 = 0 ∧ b.get Reg.DBG_POKE_ADDR_OFFSET / 4096 = if p = 0 then Pg.sec else Pg.dbg) ∧
    (part [(Reg.DBG_POKE_ADDR_OFFSET, 0, Pg.time * 4096 + 0x70)]).blk.get Reg.DBG_POKE_ADDR_OFFSET = Pg.time * 4096 + 0x70 ∧
    ((part []).blk.unlockCode {} .bar0 ≠ ok ∧ (part []).blk.aon.chal = none ∧ (part []).blk.get Reg.DBG_DENY_CNT < 2 ^ 48 - 1) := by decide +kernel

/-- A token unlocks where its signature passes: the key is the maker's (Config.debugKey), so none can be signed here. -/
theorem test_witness_DebugUnlockAndSessions_signed
    (h : hssVerify (natBytes 60 Config.debugKey) (challenged.token.take 128) (challenged.token.drop 128) = true) :
    challenged.unlockCode {} .bar0 = ok := by
  unfold Blk.unlockCode
  dsimp only
  rw [if_neg (by decide +kernel), if_neg (by decide +kernel), if_neg (by decide +kernel), if_neg (by decide +kernel), if_neg (by decide +kernel),
    if_neg (show ¬({} : Fuse).life = 2 by decide), if_pos h]

theorem test_witness_AttestationAndCredential :
    (let b := (part []).blk
     b.opens Pg.sec = true ∧ b.unsettled = false ∧ b.get Reg.SEC_CMD_STATUS_DONE = 1 ∧ b.aon.leaf.getD b.otsNext = 0 ∧ b.otsNext ≤ 0 ∧
       0 + 1024 ≤ 2 ^ 40 ∧ b.aon.fmWritten = false) ∧
    (let b := island [] fun a => { a with leaf := some (2 ^ 40 - 1023), fmWritten := true }
     b.opens Pg.sec = true ∧ b.aon.leaf.getD b.otsNext = 2 ^ 40 - 1023 ∧ b.otsNext ≤ 2 ^ 40 - 1023 ∧ 2 ^ 40 < 2 ^ 40 - 1023 + 1024 ∧ b.aon.fmWritten = true) := by
  decide +kernel

theorem test_witness_BeaconsAndFence :
    (let b := (part []).blk
     b.on = true ∧ b.now / (b.get Reg.MGMT_BEACON_CFG_PERIOD_US * 1000) ≤ b.aon.beaconAt / (b.get Reg.MGMT_BEACON_CFG_PERIOD_US * 1000) ∧
       b.opens Pg.mgmt = true ∧ b.get Reg.MGMT_CMD_STATUS_DONE = 1 ∧ b.fenced = false) ∧
    (let b := { (part [(Reg.MGMT_BEACON_CFG_EN, 0, 1), (Reg.WIN_RESTART_EPOCH_RESTART_EPOCH, 0, 1)]).blk with t := 2 ^ 95 }
     b.on = true ∧ b.aon.beaconAt / (b.get Reg.MGMT_BEACON_CFG_PERIOD_US * 1000) < b.now / (b.get Reg.MGMT_BEACON_CFG_PERIOD_US * 1000) ∧
       b.get Reg.MGMT_BEACON_CFG_EN = 1 ∧ b.restart ≠ 0 ∧ b.fenced = false ∧ b.aon.beaconOut = false) := by decide +kernel

theorem test_witness_BeaconsAndFence_tag (b : Blk) : ∃ (tag : Option Nat) (c : Blk), b.takeTag (b.get Reg.MGMT_BEACON_ADDR * 64 / 2 ^ 47) = (tag, c) :=
  ⟨_, _, rfl⟩

theorem test_witness_ErrorIsRecorded :
    (∀ full : Bool, let b := (part [(Reg.ERR_COUNT_COUNT, Pg.glb, if full then 0xFFFF else 0xFFFE)]).blk
     (b.get Reg.ERR_COUNT_COUNT Pg.glb = 0xFFFF ↔ full = true) ∧ b.get Reg.ERR_FIRST_VALID Pg.glb = 0) ∧
    (∀ c : Fin 4, let b := (part [(Reg.ERR_FIRST_VALID, Pg.hbm 0, 1), (Reg.ERR_FIRST_CLASS, Pg.hbm 0, c.val)]).blk
     b.get Reg.ERR_FIRST_VALID (Pg.hbm 0) = 1 ∧ b.get Reg.ERR_FIRST_CLASS (Pg.hbm 0) = c.val) ∧
    2 ^ 20 - 1 < 2 ^ 20 ∧ 31 < 32 ∧ 0 < (part []).blk.classOf (Pg.hbm 0) 0 := by decide +kernel

theorem test_witness_InjectionRecords :
    pageAt (0#14).toNat = some Pg.glb ∧ (part []).blk.opens Pg.glb = true ∧ (errBits Pg.glb - 1 < errBits Pg.glb) ∧ 0 < errBits Pg.glb ∧ errBits Pg.glb ≤ 31 := by
  decide +kernel

theorem test_witness_SeverityOnlyRises : errBits Pg.time - 1 < errBits Pg.time ∧ pageAt (3#14).toNat = some Pg.time ∧ (part []).blk.opens Pg.time = true := by
  decide +kernel

theorem test_witness_HeaderAndCounters :
    pageAt (0#14).toNat = some Pg.glb ∧ (part []).blk.opens Pg.glb = true ∧ Reg.GLB_ABSENT_CNT.w = 48 ∧
    2 ^ 48 ≤ (part [(Reg.GLB_ABSENT_CNT, 0, 2 ^ 48 - 1)]).blk.get Reg.GLB_ABSENT_CNT + 1 ∧
    (part [(Reg.GLB_ABSENT_CNT, 0, 2 ^ 48 - 2)]).blk.get Reg.GLB_ABSENT_CNT + 1 < 2 ^ 48 := by decide +kernel

theorem test_witness_RegistersAndTables_tables :
    (let b := (part [(Reg.TABLE_INDEX_INDEX, Pg.swc, 65535)]).blk
     pageAt (0x20#14).toNat = some Pg.swc ∧ b.opens Pg.swc = true ∧ b.get Reg.TABLE_SEL_SEL Pg.swc = 0 ∧
       (b.tablesOf Pg.swc)[b.get Reg.TABLE_SEL_SEL Pg.swc]? = some ⟨.t_route, 8, 65536, true⟩ ∧ b.get Reg.TABLE_INDEX_INDEX Pg.swc < 65536 ∧
       b.get Reg.TABLE_INDEX_INDEX Pg.swc + 1 < 2 ^ 40) ∧
    (let b := (part [(Reg.TABLE_SEL_SEL, Pg.swc, 2)]).blk
     (b.tablesOf Pg.swc)[b.get Reg.TABLE_SEL_SEL Pg.swc]? = none) ∧
    (let b := (part [(Reg.TABLE_INDEX_INDEX, Pg.swc, 65536)]).blk
     65536 ≤ b.get Reg.TABLE_INDEX_INDEX Pg.swc) ∧
    (let b := (part []).blk
     pageAt (0#14).toNat = some Pg.glb ∧ (b.tablesOf Pg.glb)[b.get Reg.TABLE_SEL_SEL Pg.glb]? = some ⟨.t_crash, 32, 16, false⟩ ∧
       b.get Reg.TABLE_INDEX_INDEX Pg.glb < 16) := by decide +kernel

/-- A datagram that reads TIME_CMD_ARG. -/
def datagram : BitVec 192 := 0x3070#192 <<< 64 ||| 7#192 <<< 32 ||| 8#192 <<< 24 ||| 1#192 <<< 16 ||| 0x4B52#192

theorem test_witness_RegistersAndTables_paths :
    (let b := (part []).blk
     b.served = true ∧ b.recovery = false ∧ (BitVec.ofNat 32 (b.get Reg.GLB_MGMT_IP_IP)).toNat = b.get Reg.GLB_MGMT_IP_IP ∧ dgOk datagram.toNat = true ∧ dgOp datagram.toNat = 1 ∧
       dgWidth datagram.toNat = 8 ∧ dgOffset datagram.toNat = 0x3070 ∧ (BitVec.ofNat 16 (b.get Reg.GLB_MGMT_UDP_PORT)).toNat = b.get Reg.GLB_MGMT_UDP_PORT ∧ dgOk 0 = false ∧
       pageAt (bits ((Pg.qmgr * 4096) <<< 8) 39 8 / 4096) = some Pg.qmgr ∧ (1#8) ≠ 0 ∧ (1#8) ≠ 0xFF ∧
       (∀ top : Bool, let v : BitVec 64 := if top then 2 ^ 64 - 2 ^ 32 + 1000 * 2 ^ 16 + 65535 else 1000 * 2 ^ 32 + 2 ^ 16 + 1
         1000 ≤ v.toNat / 2 ^ 32 ∧ 1 ≤ v.toNat / 2 ^ 16 % 2 ^ 16 ∧ v.toNat / 2 ^ 16 % 2 ^ 16 ≤ 1000 ∧ 1 ≤ v.toNat % 2 ^ 16) ∧
       b.get Reg.SEC_FM_EN = 0 ∧ pageAt (0x3000 / 4096) = some Pg.time ∧
       ∀ op : Fin 2, let m : BitVec 112 := (2#112 ^ 64 - 1) <<< 48 ||| 8#112 <<< 40 ||| 0x3070#112 <<< 8 ||| .ofNat 112 (op.val + 1)
         bits m.toNat 39 8 = 0x3070 ∧ bits m.toNat 47 40 = 8 ∧ bits m.toNat 7 0 = op.val + 1) ∧
    (let b := island [] fun a => { a with mode := .l2 }
     b.aon.mode = .l2 ∧ b.served = true ∧ b.recovery = false ∧ (covered Pg.qmgr 0x40 4 []).length = 1 ∧ pageAt ((0x90000 : BitVec 26).toNat / 4096) = some Pg.qmgr ∧ pagesL2.contains Pg.qmgr = true) ∧
    (let b := (part [(Reg.GLB_BOOT_STATUS_RECOVERY, 0, 1)]).blk
     b.served = true ∧ b.recovery = true ∧ Pg.swc ≠ Pg.glb ∧ Pg.swc ≠ Pg.sec ∧ Pg.swc ≠ Pg.time) := by decide +kernel

theorem test_witness_AbsentPages : pageAt ((0x3FFFFFF : BitVec 26).toNat / 4096) = none ∧ (part []).blk.served = true ∧
    (part []).blk.get Reg.GLB_ABSENT_CNT < 2 ^ 48 - 1 := by decide +kernel

/-- SHA-256 of "abc" (FIPS 180-4). -/
theorem test_sha256 : ofNatBytes (sha256 (label "abc")).reverse = 0xba7816bf8f01cfea414140de5dae2223b00361a396177a9cb410ff61f20015ad := by decide +kernel

/-- CRC-32C of "123456789". -/
theorem test_crc32c : crcOf (label "123456789") = 0xE3069283 := by decide +kernel

/-- AES-256-XTS of one line, computed with openssl's AES and the doubling of IEEE 1619 (R236). -/
theorem test_xts : xtsEncrypt 0x3f3e3d3c3b3a393837363534333231302f2e2d2c2b2a292827262524232221201f1e1d1c1b1a191817161514131211100f0e0d0c0b0a09080706050403020100 0xa40001234567
    0xbab3aca59e979089827b746d665f58514a433c352e272019120b04fdf6efe8e1dad3ccc5beb7b0a9a29b948d867f78716a635c554e474039322b241d160f0801 =
  0x4f15012fc6831ffc34d489749a677e19290c81a13db5ba9057ee6344ce8c3a45240bdb27eba8db1c38dd7bf54ecea03f43a1461a10fe74e66eb317b51da290f6 := by
  decide +kernel

/-! ### Operands that no command may carry -/

theorem test_ill_frames : ({ opc := 2 } : Frame).op = 2 ∧ (Instr.rdLine { opc := 2 }).wellFormed = false ∧ (Instr.rdShared {}).wellFormed = false ∧
    (Instr.rdOwn {}).wellFormed = false ∧ (Instr.rdLineNa {}).wellFormed = false ∧ (Instr.rdVol {}).wellFormed = false ∧ (Instr.wrLine {}).wellFormed = false ∧
    (Instr.wrPartial {}).wellFormed = false ∧ (Instr.wrLineFinal {}).wellFormed = false ∧ (Instr.wrSignal {}).wellFormed = false ∧
    (Instr.snpAck {}).wellFormed = false ∧ (Instr.grantAck {}).wellFormed = false ∧ (Instr.wbDirty {}).wellFormed = false ∧ (Instr.rspData {}).wellFormed = false ∧
    (Instr.rspAck {}).wellFormed = false ∧ (Instr.rspErr {}).wellFormed = false ∧ (Instr.retryRsv {}).wellFormed = false ∧
    (Instr.rdLine { opc := .ofNat 8 Opc.rdLine }).wellFormed = true := by decide +kernel

theorem test_ill_atomics : ([Instr.add, .and_, .or_, .xor_, .swap, .cas, .minS, .maxS, .minU, .maxU, .minF32, .maxF32, .fadd32, .faddExact].all
    fun mk => !(mk {}).wellFormed) = true := by decide +kernel

theorem test_ill_tiers : (Instr.tierFetchComplete 0 [] 0 []).wellFormed = false ∧ (Instr.passThroughComplete 0 true [] 0 0).wellFormed = false ∧
    (Instr.passThroughComplete 0 true (List.replicate 64 0) (2 ^ 64) 0).wellFormed = false ∧
    (Instr.passThroughComplete 0 true (List.replicate 64 0) 0 (2 ^ 32)).wellFormed = false ∧
    (Instr.passThroughComplete 0 true (List.replicate 64 0) 0 0).wellFormed = true := by decide +kernel

theorem test_ill_flash : (Instr.peatFormat [(32, 0, 0)]).wellFormed = false ∧ (Instr.peatCheckpoint [(0, 16, 0)]).wellFormed = false ∧
    (Instr.peatFormat [(31, 15, 8191)]).wellFormed = true ∧ (Instr.nandReadComplete 1 [[{ step := 5, good := false }]]).wellFormed = false ∧
    (Instr.nandReadComplete 1 [[{ step := 1, good := true }]]).wellFormed = false ∧
    (Instr.nandReadComplete 1 [[{ step := 4, good := false, row := [[]] }]]).wellFormed = false ∧ (Instr.ckptTimer [(0, 0, 8192)]).wellFormed = false ∧
    (Instr.channelTrain 0 true [⟨2 ^ 32, 0, 0, 0, 0, true⟩]).wellFormed = false ∧ (Instr.retentionScrub 1 [[{ step := 0, good := false }]]).wellFormed = false := by
  decide +kernel

theorem test_ill_sedge : (Instr.sedgeOwnerWrite 0 0 0 0 0 0 [{ by_ := 0, act := .read 0 65 }]).wellFormed = false ∧
    (Instr.sedgeOwnerWrite 0 0 0 0 0 0 [{ by_ := 0, act := .write 0 [] }]).wellFormed = false ∧
    (Instr.cbwCountAdvance 0 0 0 true 0 0 0 [{ by_ := 0, act := .winRead 0 0 0 }]).wellFormed = false ∧
    (Instr.cbwCountAdvance 0 0 0 true 0 0 0 [{ by_ := 0, act := .winWrite 0 0 (List.replicate 64 0) }]).wellFormed = true := by decide +kernel

theorem test_ill_host : (Instr.bar4Read 0 0 0).wellFormed = false ∧ (Instr.bar4Read 0 0 4097).wellFormed = false ∧ (Instr.bar4Write 0 0 []).wellFormed = false ∧
    (Instr.bar4Atomic 0 4 0 8 0 0).wellFormed = false ∧ (Instr.bar4Atomic 0 0 0 2 0 0).wellFormed = false ∧ (Instr.bar4Atomic 0 0 0 4 (2 ^ 32) 0).wellFormed = false ∧
    (Instr.bar2Doorbell 0 0 0 true 0).wellFormed = false ∧ (Instr.pcieLinkTrain 1 2).wellFormed = false ∧ (Instr.pcieConfigWrite 0 { bme := true, mps := 64 }).wellFormed = false ∧
    (Instr.pcieConfigWrite 0 { bme := true, mrrs := 64 }).wellFormed = false ∧ (Instr.pcieConfigWrite 0 { bme := true, vfs := 65 }).wellFormed = false := by decide +kernel

theorem test_ill_sensors : (Instr.thermalTrip 128).wellFormed = false ∧ (Instr.thermalRelease (-129)).wellFormed = false ∧ (Instr.thermWarn 128).wellFormed = false ∧
    (Instr.canaryTempTrigger 0 [(96, 0)]).wellFormed = false ∧ (Instr.canaryTempTrigger 128 []).wellFormed = false ∧
    (Instr.vcoreStepSettled [(96, 0)]).wellFormed = false ∧ (Instr.selftestFull [(96, 0)] []).wellFormed = false ∧ (Instr.selftestFull [] [12]).wellFormed = false ∧
    (Instr.selftestFull [(95, 0xFFFF)] [11]).wellFormed = true := by decide +kernel

theorem test_ill_boots : (Instr.resetRelease { badStacks := [12] }).wellFormed = false ∧ (Instr.resetRelease { badTiles := [(96, 0)] }).wellFormed = false ∧
    (Instr.resetRelease { stall := 10 }).wellFormed = false ∧ (Instr.resetRelease { lostKeys := [4096] }).wellFormed = false ∧
    (Instr.resetRelease { world := { stks := [12] } }).wellFormed = false ∧ (Instr.dbgPoke .bar0 { tiles := [(96, 0)] }).wellFormed = false ∧
    (Instr.resetRelease {}).wellFormed = true := by decide +kernel

theorem test_ill_accesses : (Instr.registerWrite .mgmt 0 2 0 [] {}).wellFormed = false ∧ (Instr.registerWrite .mgmt 4 8 0 [] {}).wellFormed = false ∧
    (Instr.registerWrite .bar0 0 4 (2 ^ 32) [] {}).wellFormed = false ∧ (Instr.rcFieldRead .mgmt 2 4 []).wellFormed = false ∧
    (Instr.registerWrite .bar0 0xFF8 16 0 [] {}).wellFormed = false ∧ (Instr.registerWrite .bar0 0 4 0 [4] {}).wellFormed = false ∧
    (Instr.registerWrite .mgmt 0 4 0 [0] {}).wellFormed = false ∧
    (Instr.tableRead .debug 0 false).wellFormed = false ∧ (Instr.tableWrite .debug 0 false).wellFormed = false ∧
    (Instr.tableSelWrite .debug 0 0).wellFormed = false ∧ (Instr.registerWrite .bar0 0x3070 8 5 [] {}).wellFormed = true := by decide +kernel

end Sys2Proof.Tests
end

section
/-! SUPPORT. A request that arrives at its home (R26): where the checks, the fence and the window stage end it, and the request that waits where they
let it pass. -/
namespace Sys2Proof.Machine

/-! ### The command -/

/-- Each command of a request's row brings its frame, with the opcode of the row, to the home. -/
theorem exec_request {mk : Frame → Instr} {o : Nat} (h : (mk, o) ∈ requestRows) (f : Frame) (s : State) :
    exec (mk f) s = s.whileOn fun b => b.arrive (f.as o) := by
  have rows : ∀ r ∈ requestRows, exec (r.1 f) s = s.whileOn fun b => b.arrive (f.as r.2) := by
    unfold requestRows
    repeat refine List.forall_mem_cons.mpr ⟨rfl, ?_⟩
    exact List.forall_mem_nil _
  exact rows _ h

/-! ### What clearing and the inbox leave alone -/

@[simp] theorem Blk.clear_comesHome (b : Blk) (f : Frame) : b.clear.comesHome f = b.comesHome f := rfl
@[simp] theorem Blk.clear_fenced (b : Blk) : b.clear.fenced = b.fenced := rfl
@[simp] theorem Blk.clear_windowStage (b : Blk) (f : Frame) : b.clear.windowStage f = b.windowStage f := rfl
@[simp] theorem Blk.takeInbox_fenced (b : Blk) (f : Frame) : (b.takeInbox f).fenced = b.fenced := rfl
@[simp] theorem Blk.takeInbox_windowStage (b : Blk) (f g : Frame) : (b.takeInbox f).windowStage g = b.windowStage g := rfl

/-! ### A request does not hold itself -/

theorem subMod_self (w a : Nat) : subMod w a a = 0 := by
  have h : a + 2 ^ w - a % 2 ^ w = 2 ^ w * (a / 2 ^ w + 1) := by
    have := Nat.div_add_mod a (2 ^ w)
    rw [Nat.mul_add]
    omega
  rw [subMod, h, Nat.mul_mod_right]

section
variable (b : Blk) (q : Req)

/-- A request that stands for its own frame alone is not before that frame in its stream. -/
theorem Blk.unlanded_addReq_self (h : q.members = []) : (b.addReq q).2.unlanded q.fr = b.unlanded q.fr := by
  simp [Blk.unlanded, Blk.addReq, Req.frames, h, subMod_self]

theorem Blk.lineHeld_addReq_self (line : Nat) : (b.addReq q).2.lineHeld q.fr line = b.lineHeld q.fr line := by
  simp [Blk.lineHeld, Blk.addReq, subMod_self]

theorem Blk.mustHold_addReq_self (h : q.members = []) (line : Nat) : (b.addReq q).2.mustHold q.fr line = b.mustHold q.fr line := by
  simp only [Blk.mustHold, b.unlanded_addReq_self q h, b.lineHeld_addReq_self q line]

end

/-! ### The window stage -/

/-- The request that waits at the home once a frame has passed the window stage for the first time. -/
def Blk.windowReq (b : Blk) (f : Frame) (w off : Nat) : Req :=
  { id := b.home.nextId, fr := f, win := some w, off, winWr := b.flag Reg.window_WR w, stage := .hold,
    wait := if b.mustHold f (off / 64) then .final else .ready, since := b.el }

/-- A frame that passes: its window counts it, and its request waits at the home. -/
def Blk.enrol (b : Blk) (f : Frame) (w off : Nat) : Blk := ((b.winEnter w).addReq ((b.winEnter w).windowReq f w off)).2

theorem Blk.enterWindow_pass {b : Blk} {f : Frame} {w off : Nat} (h : b.windowStage f = .pass w off) : b.enterWindow f = b.enrol f w off := by
  simp only [Blk.enterWindow, h]
  rfl

theorem Blk.enterWindow_refuse {b : Blk} {f : Frame} {st : Nat} {w : Option Nat} {fence : Bool} (h : b.windowStage f = .refuse st w fence) :
    b.enterWindow f = b.windowRefuse f st w fence := by
  simp only [Blk.enterWindow, h]

section
variable (b : Blk) (f : Frame) (w off : Nat)

theorem Blk.enrol_get_inflight : (b.enrol f w off).get Reg.window_INFLIGHT w = (b.get Reg.window_INFLIGHT w + 1) % 2 ^ 32 :=
  b.get_put_same _ _ _

theorem Blk.enrol_get_other {g : Fld} {i : Nat} (h : g.key i ≠ Reg.window_INFLIGHT.key w) : (b.enrol f w off).get g i = b.get g i :=
  b.get_put_other _ _ _ _ _ h

/-- What decided whether the request is held still says the same of it once it waits. -/
theorem Blk.enrol_mustHold (line : Nat) : (b.enrol f w off).mustHold f line = (b.winEnter w).mustHold f line :=
  (b.winEnter w).mustHold_addReq_self ((b.winEnter w).windowReq f w off) rfl line

theorem Blk.windowReq_held : (b.windowReq f w off).wait = .final ↔ b.mustHold f (off / 64) = true := by
  simp [Blk.windowReq]

end

/-! ### Where an arrival ends -/

theorem Blk.arrive_elsewhere {b : Blk} {f : Frame} (h : b.comesHome f = false) : b.arrive f = b := by
  simp [Blk.arrive, Blk.onArrival, h]

section
variable {b : Blk} {f : Frame} (home : b.comesHome f = true)
include home

theorem Blk.arrive_check_fails {st : Nat} (h : f.check = some st) : b.arrive f = (b.takeInbox f).refuse f st := by
  simp [Blk.arrive, Blk.onArrival, home, h]

theorem Blk.arrive_fenced (h : f.check = none) (hf : b.fenced = true) : b.arrive f = (b.takeInbox f).refuse f St.fenced := by
  simp [Blk.arrive, Blk.onArrival, home, h, hf]

theorem Blk.arrive_enters (h : f.check = none) (hf : b.fenced = false) : b.arrive f = ((b.takeInbox f).enterWindow f).settleHome := by
  simp [Blk.arrive, Blk.onArrival, home, h, hf]

end

end Sys2Proof.Machine
end

section
/-! CERTIFICATE. Requests at the home. -/
open Sys2Proof Sys2Proof.Machine

/-- Settles O15: an arrival ends at the first of the checks, the fence and the window stage that refuses it; a request that passes all is added to the
home, and since no request is before itself in its stream, what holds it there is what held it before it was added. -/
theorem requestsArrive : Obligations.RequestsArrive := by
  intro mk o f s row on
  rw [exec_request row, State.whileOn_on _ on, ← s.blk.clear_comesHome, ← s.blk.clear_fenced, ← s.blk.clear_windowStage]
  refine ⟨fun away => ?_, fun home => ⟨fun st bad => ?_, fun good fenced => ?_, fun st w fence good unfenced refused => ?_,
    fun w off good unfenced passes => ?_⟩⟩
  · rw [Blk.arrive_elsewhere away]
  · rw [Blk.arrive_check_fails home bad]
  · rw [Blk.arrive_fenced home good fenced]
  · rw [← Blk.takeInbox_windowStage _ (f.as o)] at refused
    rw [Blk.arrive_enters home good unfenced, Blk.enterWindow_refuse refused]
  · rw [← Blk.takeInbox_windowStage _ (f.as o)] at passes
    refine ⟨(s.blk.clear.takeInbox (f.as o)).enrol (f.as o) w off, ?_, Blk.enrol_get_inflight _ _ _ _, ⟨_, rfl, rfl, rfl, rfl, rfl, rfl, ?_⟩, rfl,
      fun g i other => Blk.enrol_get_other _ _ _ _ other, rfl, rfl, rfl, rfl, rfl, rfl⟩
    · rw [Blk.arrive_enters home good unfenced, Blk.enterWindow_pass passes]
    · rw [Blk.enrol_mustHold]
      exact Blk.windowReq_held _ _ _ _

end

section
/-! SUPPORT. The switch core (R124, R130, R131, R143): what a grant, a hole timer and a full Slough come to when they are due, and what a source reset
leaves. -/
namespace Sys2Proof.Machine

/-! ### What is due is done -/

theorem Blk.grant_aged {b : Blk} {eg : Nat} {e : QEnt} (may : b.mayGrant eg = true) (aged : b.aged eg = some e) :
    b.grant eg = (b.count Reg.SWC_AGE_GRANT_CNT).takeGrant eg e := by
  simp only [Blk.grant, may, aged, if_true]

theorem Blk.holeTimeout_due {b : Blk} {sink src dst tc : Nat} (held : (b.stream sink src dst tc).held ≠ [])
    (due : b.past (b.stream sink src dst tc).timer (us (b.get Reg.SWC_RESEQ_HOLE_US)) = true) :
    b.holeTimeout sink src dst tc = b.closeHole (b.stream sink src dst tc) :=
  if_pos ⟨held, due⟩

theorem Blk.sloughFull_due {b : Blk} {t : Nat} (full : b.sw.fullSince = some t)
    (due : b.past t (ms (b.get Reg.SLOUGH_THRESH_FULL_LIMIT_MS)) = true) :
    b.sloughFull = (Blk.sloughDiscard b.sw.queue.length b).err Pg.slough 1 := by
  simp only [Blk.sloughFull, full, due, if_true]

/-! ### The end of a command -/

/-- Ending a command writes its status; of the fields elsewhere it moves its page's BUSY and CMD_DONE alone (R564). -/
theorem Blk.cmdEnd_get {b : Blk} {c : CmdReg} {code : Nat} {g : Fld} {i : Nat} (busy : g.key i ≠ Reg.PAGE_STATUS_BUSY.key c.page)
    (int : g.key i ≠ Reg.INT_STATUS_CMD_DONE.key c.page) : (b.cmdEnd c code).get g i = ((b.put c.code code).put c.done 1).get g i := by
  rw [Blk.cmdEnd, Blk.get_put_other _ _ _ _ _ _ int, Blk.get_put_other _ _ _ _ _ _ busy]

theorem Blk.cmdEnd_swc_done (b : Blk) (code : Nat) : (b.cmdEnd swcCmd code).get Reg.SWC_CMD_STATUS_DONE = 1 := by
  rw [Blk.cmdEnd_get (by decide) (by decide)]
  exact Blk.get_put_same _ _ _ _

theorem Blk.cmdEnd_swc_code (b : Blk) (code : Nat) : (b.cmdEnd swcCmd code).get Reg.SWC_CMD_STATUS_CODE = code % 2 ^ 4 := by
  rw [Blk.cmdEnd_get (by decide) (by decide), Blk.get_put_other _ _ _ _ _ _ (by decide)]
  exact Blk.get_put_same _ _ _ _

/-! ### A source reset -/

/-- No sink output records a stream of the source any more: each starts again (R131). -/
def Blk.dropStreams (b : Blk) (n : Nat) : Blk := { b with sw := { b.sw with streams := b.sw.streams.filter (·.src ≠ n) } }

theorem Blk.dropStreams_only {b c : Blk} (h : b.onlyFields c) (n : Nat) : (b.dropStreams n).onlyFields (c.dropStreams n) := by
  obtain ⟨ht, hel, hports, hsw, hrest⟩ := h
  exact ⟨ht, hel, hports, by simp only [Blk.dropStreams, hsw], hrest⟩

/-- A source reset that is taken drops the source's streams, and ends `ok` once the frames they held are counted. -/
theorem Blk.srcReset_taken {b : Blk} (h : b.get Reg.SWC_CMD_STATUS_DONE ≠ 0) (n : Nat) :
    ∃ c : Blk, b.srcReset n = c.cmdEnd swcCmd ok ∧ c.onlyFields (b.dropStreams n) := by
  have started := Blk.dropStreams_only (b.cmdStart_only swcCmd) n
  refine ⟨_, b.cmd_taken swcCmd none _ h, ?_⟩
  split
  · exact started
  · exact Blk.onlyFields_trans (Blk.countN_only _ _ _ _) started

end Sys2Proof.Machine
end

section
/-! CERTIFICATE. The switch core. -/
open Sys2Proof Sys2Proof.Machine

/-- Settles O13: each command that is due runs its one operation, since clearing what was driven moves none of what it looks at; a source reset
that is taken drops the source's streams and, beside them, moves fields alone. -/
theorem switchCommands : Obligations.SwitchCommands := by
  intro s
  refine ⟨fun eg e on may aged => ?_, fun sink src dst tc st on stream held due => ?_, fun t on full due => ?_, fun node opens ready => ?_⟩
  · exact (State.whileOn_on _ on).trans (by rw [Blk.grant_aged (b := s.blk.clear) may aged])
  · subst stream
    exact (State.whileOn_on _ on).trans (by rw [Blk.holeTimeout_due (b := s.blk.clear) held due]; rfl)
  · exact (State.whileOn_on _ on).trans (by rw [Blk.sloughFull_due (b := s.blk.clear) full due]; rfl)
  · have free : s.blk.clear.get Reg.SWC_CMD_STATUS_DONE ≠ 0 := by simp [ready]
    obtain ⟨c, reset, moved⟩ := Blk.srcReset_taken free node.toNat
    obtain ⟨-, -, ports, sw, home, store, -, orig, -⟩ := Blk.onlyFields_trans (c.cmdEnd_only swcCmd ok) moved
    refine ⟨c.cmdEnd swcCmd ok, (State.onPage_bar0 _ opens).trans (by rw [reset]), c.cmdEnd_swc_done ok, c.cmdEnd_swc_code ok, ?_, ?_, ports, home,
      store, orig⟩
    · rw [sw]; rfl
    · rw [sw]; rfl

end
